-- ==== Sys2Proof/Word.lean ====
section
/-!
DEFINITION. The word types of the W1 and their plainest arithmetic.
-/

namespace Sys2Proof

/-- One byte (R6). -/
abbrev Byte := BitVec 8
/-- A register word: every register is 64 bits wide. -/
abbrev Word := BitVec 64
/-- An FP32 or INT32 bit pattern. -/
abbrev F32 := BitVec 32
/-- A 16-bit fault code: class in bits [15:12], code in bits [11:0] (R15). -/
abbrev Code := BitVec 16
/-- A 64 B descriptor, bits [511:0] (R5). -/
abbrev Desc := BitVec 512

/-- Bits [hi:lo] of a word, as a natural number (R4). -/
def bits {w : Nat} (x : BitVec w) (hi lo : Nat) : Nat :=
  (x.toNat / 2 ^ lo) % 2 ^ (hi - lo + 1)

/-- Bit [n] of a word (R4). -/
def bit {w : Nat} (x : BitVec w) (n : Nat) : Bool :=
  x.toNat / 2 ^ n % 2 == 1

end Sys2Proof
end

