-- ==== Sys2Proof/Syntax.lean ====
section
/-!
DEFINITION. The commands the block takes: one constructor per row of spec/opcode_table.json, with the
operand records they carry. A core is named by its global address word as a number, y * 4096 + x (R19).
-/

namespace Sys2Proof

/-- The store of a core in which a check found an error; the order is that of UNIT (Table 6.7). -/
inductive StoreUnit where
  | coreMem | aBuf | bBuf | scaleStore | accFile | sideStore | vrf | staging
deriving DecidableEq, Repr

/-- An error that a store's check detects on a read (R158): the unit and the byte address within it. -/
structure StoreHit where
  unit : StoreUnit
  addr : BitVec 17
deriving DecidableEq, Repr

/-- What the checkers of Table 3.7 and the store checks of Table 6.1 find in one tensor command. -/
inductive TChk where
  | ok
  | residue (tile : BitVec 3) (lane : BitVec 8)
  | sigProd (tile : BitVec 3) (lane : BitVec 8)
  | adderDup (tile : BitVec 3) (lane : BitVec 8)
  | store (h : StoreHit)
deriving DecidableEq, Repr

/-- The fields of a tensor command word that its opcode uses (Table 4.1). -/
structure TCmd where
  fmt : BitVec 4 := 0
  fmtB : BitVec 4 := 0
  tiles : BitVec 8 := 0
  trLog2 : BitVec 2 := 0
  tcLog2 : BitVec 2 := 0
  half : Bool := false
  sparse : BitVec 3 := 0
  kc : BitVec 10 := 0
  addr : BitVec 17 := 0
  scaleAddr : BitVec 17 := 0
  init : Bool := false
  rmode : BitVec 2 := 0
  sat : BitVec 2 := 0
  outShift : BitVec 8 := 0
deriving DecidableEq, Repr

/-- The element type of a vector command (TYPE of Table 5.1, reserved code left out). -/
inductive VType where
  | fp32 | bf16 | int32
deriving DecidableEq, Repr

/-- The tests of VCMP (Table 5.2, reserved codes left out). -/
inductive VTest where
  | eq | lt | le | notFinite
deriving DecidableEq, Repr

/-- The sub-operations of VCVT (R125, reserved codes left out). -/
inductive VCvt where
  | lowBf16ToF32 | highBf16ToF32 | f32ToLowBf16 | f32ToHighBf16 | i32ToF32 | f32ToI32
deriving DecidableEq, Repr

/-- The register fields of a vector command (Table 5.1); vrfErr is a parity error found on its reads (R127). -/
structure VCmd where
  vd : BitVec 5 := 0
  va : BitVec 5 := 0
  vb : BitVec 5 := 0
  vc : BitVec 5 := 0
  ty : VType := .fp32
  pred : Bool := false
  bcastB : Bool := false
  addr : BitVec 17 := 0
  vrfErr : Option (BitVec 17) := none
deriving DecidableEq, Repr

/-- COND of a TEST (Table 7.2). -/
inductive Cond where
  | eq | lt | le | ne
deriving DecidableEq, Repr

/-- A control error of a core found in a beat (R386). -/
inductive CoreErr where
  | handshake | controlStore
deriving DecidableEq, Repr

/-- What one beat of a core meets besides its schedule (95, BEAT): the start waited on a neighbour,
an arrival outside the modelled waits is late (its CAUSE, and where a core sent it that core with the ORDER of its packet) or is
an external wait, errors found. -/
structure BeatIn where
  coupleWait : Bool := false
  late : Option (BitVec 3) := none
  lateFrom : Option (Nat × Bool) := none
  ext : Bool := false
  err : Option CoreErr := none
  hit : Option StoreHit := none
deriving DecidableEq, Repr

/-- The two coupling events a plinth controller or sequencer finds (R66). -/
inductive CouplingEvent where
  | noBeat (cluster : Nat)
  | skew (core : Nat)
deriving DecidableEq, Repr

/-- A mesh packet: the fields of its first flit's sideband, its payload and its CRC (Table 9.1, R250); the router that sent it and the
beat of the router that holds it before which it does not go on (R253, R258). -/
structure Pkt where
  ptype : BitVec 3
  order : Bool
  destX : BitVec 12
  destY : BitVec 12
  index : BitVec 5
  outward : Bool
  version : BitVec 2
  rsv : BitVec 10
  payload : List (BitVec 256)
  crc : BitVec 32
  src : Nat := 0
  due : Nat := 0
deriving DecidableEq, Repr

/-- Where an arriving packet comes from, and the receiving router's own beat at which its hop onwards is budgeted (R253, R255). -/
structure HopIn where
  src : Nat
  due : Nat
deriving DecidableEq, Repr

/-- What an unscheduled packet does at a router: it comes in by the local port, or an output serves the next one (R248, R258,
R275). -/
inductive UnschedTurn where
  | enter (p : Pkt)
  | serve (out : BitVec 3)
deriving DecidableEq, Repr

/-- Where a block written to a channel comes from (R174, R179). -/
inductive WriteSrc where
  /-- The oldest outgoing block of a core's stream slot: scheduled. -/
  | engine (core slot : Nat)
  /-- A whole block from the fabric, a COPY, a dump or bring-up: unscheduled. -/
  | outside (block : Nat) (data : BitVec 4096) (tag : BitVec 32)
deriving DecidableEq, Repr

/-- An unscheduled access that a channel serves (R179). -/
inductive ExtOp where
  | read (block : Nat)
  | write (block : Nat) (data : BitVec 4096) (tag : BitVec 32)
  | line (block : Nat) (index : BitVec 3) (data : BitVec 512)
deriving DecidableEq, Repr

/-- A word on the control lane (R264). -/
inductive CtrlWord where
  | drainNotice
  | startBeat (beat : BitVec 64)
  | setup (offset : BitVec 12) (value : Word)
deriving DecidableEq, Repr

/-- The section masks of one core in one step (R165). -/
structure Masks where
  footprint : BitVec 8 := 0
  entry : BitVec 8 := 0
  keep : BitVec 8 := 0
  scrub : BitVec 8 := 0
deriving DecidableEq, Repr

/-- A command word of a core's schedule, by engine (Tables 4.1, 5.1, 7.2, 8.1, 9.5). -/
inductive CmdWord where
  | tensor (w : BitVec 128)
  | vector (w : BitVec 64)
  | steer (w : BitVec 64)
  | dma (w : BitVec 64)
  | router (w : BitVec 64)
deriving DecidableEq, Repr

/-- One command of a schedule: the core (program-relative word), the layer, its beat in the layer. -/
structure SchedCmd where
  core : Nat
  layer : Nat
  beat : Nat
  word : CmdWord
deriving DecidableEq, Repr

/-- A layer of the layer table: L(i) and the drain bound (R53, R212). -/
structure LayerInfo where
  beats : Nat
  drainBound : Nat
deriving DecidableEq, Repr

/-- One 32 B endpoint binding entry (Table 7.1) or bus binding entry (Table 9.4) of a core and layer. -/
structure BindRec where
  core : Nat
  layer : Nat
  bus : Bool
  raw : BitVec 256
deriving DecidableEq, Repr

/-- The core-memory address of a core's descriptor list in a layer, and its descriptors (R225). -/
structure DescList where
  core : Nat
  layer : Nat
  addr : Nat
  descs : List Desc
deriving DecidableEq, Repr

/-- The route-order word of a core in a layer (Table 9.2). -/
structure RouteOrder where
  core : Nat
  layer : Nat
  word : BitVec 64
deriving DecidableEq, Repr

/-- One step schedule of a program. -/
structure StepSched where
  layers : List LayerInfo
  masks : List (Nat × Masks)
  patches : List (Nat × BitVec 128)
  binds : List BindRec
  lists : List DescList
  orders : List RouteOrder
  cmds : List SchedCmd
deriving DecidableEq, Repr

/-- A preconditioner block of a group (R132): P and Q, the first state block and its blocks, the
bonded addresses of L, Rs and of each root slot, the order of the norm sums, and the lengths of the segments into which
the mapping splits a reduction over P and one over Q (R89, R286; an empty list: one segment). -/
structure PreBlock where
  p : Nat
  q : Nat
  firstBlock : Nat
  blocks : Nat
  statL : Nat
  statR : Nat
  rootL0 : Nat
  rootR0 : Nat
  rootL1 : Nat
  rootR1 : Nat
  normOrder : List Nat
  segsP : List Nat
  segsQ : List Nat
deriving DecidableEq, Repr

/-- Where an update or refresh program keeps a group (R131, R141, R142): bonded addresses. -/
structure GroupMap where
  group : Nat
  stateBase : Nat
  blocks : Nat
  gradBase : Nat
  pre : List PreBlock
deriving DecidableEq, Repr

/-- A per-core record of a program image (R349). -/
structure ImgRec where
  core : BitVec 32
  kind : BitVec 4
  target : BitVec 48
  rsv : BitVec 12
  bytes : List Byte
deriving DecidableEq, Repr

/-- The family a program is for. -/
inductive ProgKind where
  | step | update | refresh
deriving DecidableEq, Repr

/-- A program image as PROGRAM_LOAD reads it (R349). The 64 B header is raw; the records follow, with the
schedule they stand for (no container of commands at beats is given by the spec). -/
structure Image where
  header : Desc
  body : List Byte
  records : List ImgRec
  kind : ProgKind
  seqs : Nat
  heads : Nat
  steps : List StepSched
  courses : List (Nat × Nat × Nat)
  waferCourses : List (Nat × Nat)
  tallies : List (Nat × Nat × Nat)
  groups : List GroupMap
deriving DecidableEq, Repr

/-- A fabric frame as it fills a data slot: 560 B (R308). -/
abbrev Slot := BitVec 4480

/-- A frame delivered end to end: its 32 B header and 512 B payload (R308). -/
structure Frame where
  header : BitVec 256
  payload : BitVec 4096
deriving DecidableEq, Repr

/-- What a physical port meets in a training phase (R312). -/
structure TrainPhase where
  ok : Bool
  failedFrames : Nat := 0
  roundTripNs : Nat := 0
deriving DecidableEq, Repr

/-- The identity that a TRAIN frame carries (R312). -/
structure TrainInfo where
  dev : BitVec 20
  port : BitVec 7
  switch : Bool
  version : BitVec 8
  roundTripNs : Nat
deriving DecidableEq, Repr

/-- A unit that a test covers, KIND and LOCATION of Table 14.5; lasting units without spare are .other. -/
inductive TestUnit where
  | core (pos : BitVec 22)
  | row (pos : BitVec 22)
  | channel (cluster p : Nat)
  | port (p : Nat)
  | lane (y : Nat)
  | wire (kind : BitVec 4) (loc : BitVec 20)
  | tirrik
  | refOsc
  | laser (l : Nat)
  | vdomain (cluster : Nat)
  | transit (cluster : Nat)
  | plinth (wing : Nat)
deriving DecidableEq, Repr

/-- Why a failing unit fails: what is needed to take it out of use (Table 14.4). -/
inductive TestResult where
  | pass
  /-- A channel scrub: blocks found bad (R384). -/
  | badBlocks (n : Nat)
  | fail
  /-- A MAC column or memory column group failed, to be left out by its bypass (R102, R161). -/
  | failColumn (col : BitVec 5)
  | failGroup (bank : BitVec 3) (group : BitVec 4)
deriving DecidableEq, Repr

/-- The result of the known-answer tests of R391 at a core. -/
structure Kat where
  core : Nat
  datapathPass : Bool
  failedCols : List (BitVec 5)
  checkerPass : Bool
deriving DecidableEq, Repr

/-- Results that a bring-up, re-form or boundary test phase reports: unit, result, pack test. -/
structure TestReport where
  unit : TestUnit
  result : TestResult
  pack : Bool := false
deriving DecidableEq, Repr

/-- What a signed image or token presents (Table 16.1, R432). -/
structure SignedImage where
  header : BitVec 1024
  signature : List Byte
  publicKey : BitVec 256
  zeroPad : Bool
  bodyDigest : BitVec 256
  bodyBytes : Nat
deriving DecidableEq, Repr

/-- The party that writes a power-control field (R413). -/
inductive Party where
  | companion | sideband
deriving DecidableEq, Repr

/-- The commands: one constructor per row of the table. -/
inductive Instr where
  -- beats and pace
  | beat (core : Nat) (i : BeatIn)
  | engineTimeout (core : Nat)
  | computeRail (core : Nat)
  | layerStart (wing : Nat)
  | layerEndSample (wing : Nat)
  | stall (core : Nat)
  | paceWindowEnd (wing : Nat) (count : BitVec 32) (waits : List (Nat × Nat))
  | refLost (wing : Nat)
  | couplingTimeout (e : CouplingEvent)
  -- tensor engine
  | nop (core : Nat)
  | loadA (core : Nat) (c : TCmd) (k : TChk)
  | loadB (core : Nat) (c : TCmd) (k : TChk)
  | loadAnchor (core : Nat) (c : TCmd) (k : TChk)
  | mma (core : Nat) (c : TCmd) (k : TChk)
  | merge (core : Nat) (c : TCmd) (k : TChk)
  | store (core : Nat) (c : TCmd) (k : TChk)
  -- vector engine
  | vnop (core : Nat)
  | vld (core : Nat) (c : VCmd)
  | vst (core : Nat) (c : VCmd)
  | vadd (core : Nat) (c : VCmd)
  | vsub (core : Nat) (c : VCmd)
  | vmul (core : Nat) (c : VCmd)
  | vfma (core : Nat) (c : VCmd)
  | vdiv (core : Nat) (c : VCmd)
  | vsqrt (core : Nat) (c : VCmd)
  | vrsqrt (core : Nat) (c : VCmd)
  | vexp2 (core : Nat) (c : VCmd)
  | vlog2 (core : Nat) (c : VCmd)
  | vmax (core : Nat) (c : VCmd)
  | vmin (core : Nat) (c : VCmd)
  | vcmp (core : Nat) (t : VTest) (c : VCmd)
  | vsel (core : Nat) (c : VCmd)
  | vcvt (core : Nat) (k : VCvt) (c : VCmd)
  | vsum (core : Nat) (c : VCmd)
  | vpowi (core : Nat) (c : VCmd)
  -- steering unit
  | snop (core : Nat)
  | ctrSet (core : Nat) (ctr : BitVec 4) (imm : BitVec 16)
  | ctrAdd (core : Nat) (ctr : BitVec 4) (imm : BitVec 16)
  | ctrTest (core : Nat) (pred : BitVec 3) (ctr : BitVec 4) (c : Cond) (imm : BitVec 16)
  | loopCmd (core : Nat) (src : Bool) (ctr : BitVec 4) (imm len : BitVec 16)
  | gate (core : Nat) (pred : BitVec 3) (sense : Bool) (len : BitVec 16)
  | fire (core : Nat) (ep : BitVec 4)
  | consume (core : Nat) (ep : BitVec 4)
  | take (core : Nat) (ep ctr : BitVec 4)
  | token (core : Nat) (ep : BitVec 4) (src : Bool) (ctr : BitVec 4) (imm : BitVec 16)
  -- DMA engine
  | dnop (core : Nat)
  | dstart (core : Nat) (slot : BitVec 3) (desc : BitVec 9)
  | dtile (core : Nat) (slot : BitVec 3)
  | blockIssue (core : Nat) (slot : BitVec 3)
  | prescanDone (core : Nat) (slot : BitVec 3)
  -- router commands
  | rnop (core : Nat)
  | arrive (core : Nat) (wafer : Bool) (course member : BitVec 6) (order : Bool) (host : Nat)
  | await (core : Nat) (wafer : Bool) (course : BitVec 6) (ext : Bool)
  | tprod (core : Nat) (tally : BitVec 5) (countM1 : Byte) (remote order : Bool) (target : Nat)
  | tcons (core : Nat) (tally : BitVec 5) (countM1 : Byte)
  | twait (core : Nat) (tally : BitVec 5) (countM1 : Byte) (ext : Bool)
  -- mesh, buses, courses
  | meshPacketReceive (core : Nat) (link : BitVec 2) (hop : HopIn) (side : List (BitVec 96)) (payload : List (BitVec 256))
  | meshAck (core : Nat) (link : BitVec 2) (scheduled nak : Bool) (lseq : BitVec 6)
  | meshResendTimeout (core : Nat) (link : BitVec 2) (scheduled : Bool)
  | streamBlock (core : Nat) (ep : BitVec 5) (data : List Byte)
  | creditPacket (core : Nat) (ep : BitVec 5) (data pair : Nat)
  | controlToken (core : Nat) (w : BitVec 128)
  | courseMessage (host : Nat) (course member : BitVec 6) (sender : Nat) (order : Bool)
  | courseRelease (core : Nat) (course : BitVec 6)
  | courseTreeMessage (wing : Nat) (course : BitVec 6) (parityOk : Bool) (node : Nat)
  | tallyMessage (core : Nat) (tally : BitVec 5) (countM1 : Byte)
  | unscheduledPacket (core : Nat) (turn : UnschedTurn)
  | busBlockSend (core : Nat) (entry : BitVec 2)
  | busBlock (core : Nat) (entry : BitVec 2) (data : List Byte) (crc : BitVec 32)
  | controlWord (core : Nat) (w : CtrlWord) (crcOk : Bool)
  -- bonded-memory channels
  | readAccept (chan core : Nat) (slot : BitVec 3) (block : Nat) (alloc : Bool)
  | readDelivery (chan : Nat)
  | writeAccept (chan : Nat) (src : WriteSrc) (corrupt : Bool)
  | writeAcknowledgement (chan : Nat)
  | extBlockAccess (chan : Nat) (op : ExtOp)
  | channelFail (chan : Nat)
  -- drains
  | drainStart (wing : Nat)
  | drainNotice (core : Nat)
  | drainSample (wing : Nat)
  | drainTimeout (wing : Nat)
  -- companion link, memory side
  | inv (addr : BitVec 64)
  | data (addr : BitVec 64) (line : Desc)
  | wrAck
  | companionErrorResponse (write : Bool) (addr : BitVec 64)
  | setupWr (addr : BitVec 64) (size : Nat) (value : Desc)
  | setupRd (addr : BitVec 64) (size : Nat)
  -- register writes with an action
  | coreLimitWrite (core : Nat) (value : Word)
  | coreMemRelease (core : Nat) (mask : Byte)
  | coreArithStatusClear (core : Nat) (mask : Word)
  | attnClear (wing : Nat)
  | staleClear (core : Nat)
  | rtLinkClear (core : Nat) (link : BitVec 2)
  | portClear (port : Nat)
  | linkErrClear
  | pwrErrClear
  | pwrCtrlWrite (by_ : Party) (value : Word)
  -- rings and descriptors
  | sqEnable (ring : Nat) (on : Bool)
  | cqEnable (ring : Nat) (on : Bool)
  | descriptorFetch (wing : Nat)
  | programLoad (ring : Nat) (seq : BitVec 32) (img : Image)
  | stepRun (ring : Nat) (seq : BitVec 32)
  | update (ring : Nat) (seq : BitVec 32) (blocks : Nat)
  | rootRefresh (ring : Nat) (seq : BitVec 32)
  | collective (ring : Nat) (seq : BitVec 32)
  | copy (ring : Nat) (seq : BitVec 32) (src : List Byte)
  | fence (ring : Nat) (seq : BitVec 32)
  | abort (ring : Nat) (seq : BitVec 32)
  | testWindow (ring : Nat) (seq : BitVec 32) (reports : List TestReport)
  | paceSet (ring : Nat) (seq : BitVec 32)
  | dumpSync (ring : Nat) (seq : BitVec 32)
  | reform (ring : Nat) (seq : BitVec 32)
  | tableWrite (ring : Nat) (seq : BitVec 32) (src : List Byte)
  | commitPoint (ring : Nat) (seq : BitVec 32)
  | outcomePost (cq : Nat) (timeUs : Nat)
  | postingRetry (cq : Nat)
  -- Tirrik link
  | tirrikFlit (seq : BitVec 12) (crcOk : Bool) (ack : Option (Bool × BitVec 12)) (wellFormed : Bool)
  | tirrikResendTimeout
  | tirrikTrain (lanes : Nat) (companionVersion : BitVec 8)
  | tirrikTrainRetry
  -- optical fabric
  | frameReceive (port : Nat) (x : Slot)
  | linkStatusWord (port : Nat) (link : BitVec 96) (crc : BitVec 32)
  | frameResendTimeout (port : Nat)
  | collData (wing : Nat) (f : Frame)
  | collAnchor (wing : Nat) (f : Frame)
  | streamData (core : Nat) (slot : BitVec 3) (f : Frame)
  | bulkData (wing : Nat) (f : Frame)
  | bulkReturn (wing : Nat) (f : Frame)
  | bulkRefusal (wing : Nat) (f : Frame)
  | startFrame (wing : Nat) (f : Frame)
  | abandon (wing : Nat) (f : Frame)
  | paceNotice (wing : Nat) (f : Frame)
  | grant (core : Nat) (slot : BitVec 3) (f : Frame)
  | train (port : Nat) (t : TrainInfo)
  | portTrainPhase (port : Nat) (t : TrainPhase)
  | portTrainRetry (port : Nat)
  | portLost (port : Nat)
  | laserLost (laser : Nat)
  | degradedWindow (port : Nat)
  | fabricTimeout (wing : Nat) (flow : BitVec 24)
  | paceNoticeRepeat (wing : Nat)
  -- power, thermal, flow
  | powerSample (vin iin : BitVec 16) (clusterW : List (Nat × BitVec 16 × BitVec 16))
  | controlPeriod (wing : Nat)
  | sensorRead (readings : List (Nat × List Int))
  | throttleTick
  | regionRestore (cluster : Nat)
  | flowLost
  | flowRestore
  | flowWaitTimeout
  | inputRange
  | inputOvercurrent
  | currentLimit
  | railFault (cluster : Nat)
  | inputRestore
  -- pins, supplies, bring-up, re-form
  | coldRstAssert
  | coldRstDeassert
  | warmRstAssert
  | pwrOkDeassert
  | pwrOkAssert
  | flowOkAssert
  | housekeepingUp
  | coldPhase (wing : Nat) (dur10ms : Nat) (fwOk : List Nat) (reports : List TestReport)
  | portPhaseEnd (wing : Nat)
  | warmPhase (wing : Nat) (reports : List TestReport)
  | reformStart (wing : Nat)
  | reformPhase (wing : Nat) (reports : List TestReport) (kats : List Kat)
  | capstone (wing : Nat) (elapsedMs : Nat)
  -- boundaries and tests
  | stepBoundary (wing : Nat) (reports : List TestReport)
  | testDue (core : Nat)
  | testOverdue (core : Nat)
  -- security
  | packInstall (img : SignedImage)
  | fwInstall (img : SignedImage)
  | securityOperationDone
  | armTrial
  | raiseFloor (newFloor : Byte)
  | advanceIdentity (tok : SignedImage)
  | debugUnlock (tok : SignedImage)
  | debugLock
  | attest (companion : Bool)
  -- sideband
  | entdaa (addr : BitVec 7)
  | setdasa (addr : BitVec 7)
  | rstdaa
  | enec
  | disec
  | getpid
  | getbcr
  | getdcr
  | getstatus
  | getmwl
  | getmrl
  | sbSetOffset (bytes : List Byte)
  | sbWrite (bytes : List Byte)
  | sbRead (len : Nat)
  | sbErrClear
  | attnIbi (accepted : Bool)
  | ibiRetry (accepted : Bool)
  -- test access port and debug
  | bypass
  | idcode
  | samplePreload (preload : List Bool)
  | extest
  | trstN
  | debugHaltRequest (wing : Nat)
  | debugHaltEnter (wing : Nat)
  | debugStep (wing : Nat)
  | debugRelease (wing : Nat)
  -- further events
  | tirrikLaneLoss (lanes : Nat)
  | referenceRestored (wing : Nat)
  | laserInputRestored (laser : Nat)
  | wireGroupFailure (u : TestUnit) (group : BitVec 3)
  | housekeepingSupplyFail
  | testBudgetExpiry (wing : Nat)
deriving DecidableEq, Repr

end Sys2Proof
end

