-- ==== Sys2Proof/Decode.lean ====
section
/-!
DEFINITION. Decoding of a table word: no row of the opcode table gives bits.
-/

namespace Sys2Proof

/-- The command that a word spells by the table's bits: none, since the table gives no row any bits. -/
def decodeTableWord (_nbits _w : Nat) : Option Instr := none

end Sys2Proof
end

