-- ==== Sys2Proof/Config.lean ====
section
/-!
DEFINITION. What one part fixes and the spec does not state: opaque constants, so that no proof can
see a value of them (the free values of the model).
-/

namespace Sys2Proof.Config

/-- The unstated FP32 result of a vector command, fresh at each use (n below 0 in VPOWI, R124). -/
opaque freeF32 : Nat → F32
/-- A byte that a store writes beyond its data in the last line, fresh at each byte (R113, R162). -/
opaque freeByte : Nat → Byte
/-- The fused 128-bit DEVICE_UID (R431). -/
opaque deviceUid : BitVec 128
/-- The four fused SHA-256 digests of the signing public keys (R431). -/
opaque keyDigest : Nat → BitVec 256
/-- Whether an SLH-DSA-SHA2-128s signature over a message verifies under a public key (R430). -/
opaque verifySig : BitVec 256 → List Byte → List Byte → Bool
/-- The mason's mark signature over a message, for an identity generation (R438, R440). -/
opaque markSign : Nat → List Byte → List Byte
/-- The public key of the mark of an identity generation (R438). -/
opaque markPk : Nat → BitVec 256
/-- The 48-bit provisioned identifier that GETPID returns (R454). -/
opaque sbPid : BitVec 48
/-- The bus characteristics register that GETBCR returns (R454). -/
opaque sbBcr : Byte
/-- The device characteristics register that GETDCR returns (R454). -/
opaque sbDcr : Byte
/-- The maximum write length that GETMWL returns (R454). -/
opaque sbMwl : BitVec 16
/-- The maximum read length that GETMRL returns (R454). -/
opaque sbMrl : BitVec 16
/-- The status that GETSTATUS returns, given the states of the pins (R454). -/
opaque sbStatus : Nat → BitVec 16
/-- The direction of an element of a preconditioner block whose state blocks are not all at the step before the target, from
everything that the pass reads of the block (R132, R137; the spec states no value). -/
opaque freeDir : List Byte → Nat → BitVec 32
/-- The blocks of a channel that cannot be read at all when the channel is copied to a spare, and whether the old tag of each is
known, fresh at each copy (R184). -/
opaque unreadable : Nat → List (Nat × Bool)
/-- The flit of a one-flit packet by its PTYPE and what it carries (read request, credit, token, course or tally message, write
acknowledgement): the spec gives no layout of it within the flit. -/
opaque flitOf : Nat → List Nat → BitVec 256
/-- The payload of a TRAIN frame from the device identifier, the physical port and the round trip measured in ns: the spec gives no
layout of what R312 has it carry. -/
opaque trainBytes : Nat → Nat → Nat → List Byte
/-- The SHA-256 digest of a byte string (R430; FIPS 180-4 is named and not restated). -/
opaque sha256 : List Byte → BitVec 256
/-- The capture of a boundary-scan cell at a SAMPLE (R460). -/
opaque boundaryCell : Nat → Bool
/-- Powered hours over the module's life before this cold reset (R445). -/
opaque lifeHours : Nat
/-- The digests of the plinth and of the core firmware (true) in a bundle with a body digest (R440); how a bundle holds
the two is not stated. -/
opaque fwDigest : Bool → BitVec 256 → BitVec 256
/-- Fuse steps that a cold reset finds blown of a change that was blowing, fresh at each use (R444). -/
opaque freeFuses : Nat → Nat
/-- The duration of a cold phase 4 that ends at its time limit, in units of 10 ms (R368, R381): fresh at each use. -/
opaque freeTime : Nat → BitVec 10
/-- Whether the rise of power that the controller predicts for a rise of V_common by 5 mV stays within SLOPE, from the 1 ms
power, V_common and SLOPE (R416; how it predicts is not stated). -/
opaque riseOk : Nat → Nat → Nat → Bool
/-- The expected power to which the controller lowers E when V_common falls, in mW, fresh at each use (R416). -/
opaque freePower : Nat → Nat
/-- The preferred point that an entry of an OP_MAP register above 7 stands for, fresh at each use (R348; a PACE_SET cannot
write one, R353). -/
opaque freeOp : Nat → BitVec 3
/-- The beats that a drain of a reconfiguration takes to its first sample, fresh at each use (R215). -/
opaque freeBeats : Nat → BitVec 24
/-- The tag of the blocks that a dump or a collective writes to bonded memory, fresh at each use (R278, R321 and R324 state
none). -/
opaque freeTag : Nat → BitVec 32
/-- The 16-bit SCALE that stands for a block's need above 32,767, by that need (R322 gives none). -/
opaque freeNeed : Nat → BitVec 16
/-- What kind of block a full BULK_DATA frame carries: 0 a state block, 1 a statistics block, otherwise a root block. Table
11.2 has no field that says so. -/
opaque bulkKind : BitVec 256 → Nat

end Sys2Proof.Config
end

