-- ==== Sys2Proof/Machine/Map.lean ====
section
/-!
DEFINITION. Sparse maps as lists with rising keys, memories as lists of cells in one canonical form,
byte strings, and the two CRCs of the memories (R163, R173).
-/

namespace Sys2Proof.Machine

/-- The value at a key, the default where the key is not listed. -/
def Map.get {α : Type} (d : α) : List (Nat × α) → Nat → α
  | [], _ => d
  | (k, v) :: m, a => if a = k then v else Map.get d m a

/-- The value at a key, where the key is listed. -/
def Map.find? {α : Type} : List (Nat × α) → Nat → Option α
  | [], _ => none
  | (k, v) :: m, a => if a = k then some v else Map.find? m a

/-- Sets the value at a key; the keys stay rising. -/
def Map.set {α : Type} : List (Nat × α) → Nat → α → List (Nat × α)
  | [], a, v => [(a, v)]
  | (k, w) :: m, a, v =>
    if a = k then (a, v) :: m
    else if a < k then (a, v) :: (k, w) :: m
    else (k, w) :: Map.set m a v

/-- Leaves out a key. -/
def Map.erase {α : Type} : List (Nat × α) → Nat → List (Nat × α)
  | [], _ => []
  | (k, w) :: m, a => if a = k then m else (k, w) :: Map.erase m a

/-- Applies f to the value at a key. -/
def Map.upd {α : Type} (d : α) (m : List (Nat × α)) (a : Nat) (f : α → α) : List (Nat × α) :=
  Map.set m a (f (Map.get d m a))

/-- Applies f to the listed values whose key satisfies p. -/
def Map.mapIf {α : Type} (p : Nat → Bool) (f : α → α) (m : List (Nat × α)) : List (Nat × α) :=
  m.map (fun e => if p e.1 then (e.1, f e.2) else e)

/-- What an unlisted byte of a memory reads as: after bring-up every block of the bonded memory holds
zeros (R175); for the core memories the model's choice (log 4). -/
def Mem.unlisted : Byte := 0

/-- One byte of a memory. -/
def Mem.get (m : List Host.Cell) (a : Nat) : Byte := Map.get Mem.unlisted m a

/-- Writes one byte, keeping the canonical form: an entry equal to what an unlisted address reads as is
left out. -/
def Mem.put : List Host.Cell → Nat → Byte → List Host.Cell
  | [], a, v => if v = Mem.unlisted then [] else [(a, v)]
  | (k, w) :: m, a, v =>
    if a = k then (if v = Mem.unlisted then m else (a, v) :: m)
    else if a < k then (if v = Mem.unlisted then (k, w) :: m else (a, v) :: (k, w) :: m)
    else (k, w) :: Mem.put m a v

/-- Every key of the list is at least lo and the keys rise, and no entry is redundant. -/
def Mem.wfFrom : Nat → List Host.Cell → Bool
  | _, [] => true
  | lo, (k, v) :: m => decide (lo ≤ k) && decide (v ≠ Mem.unlisted) && Mem.wfFrom (k + 1) m

/-- The canonical form of a memory: addresses strictly rising, no entry equal to an unlisted byte. -/
def Memory.wf (m : List Host.Cell) : Bool := Mem.wfFrom 0 m

/-- n bytes from address a on. -/
def Mem.read (m : List Host.Cell) (a : Nat) : Nat → List Byte
  | 0 => []
  | n + 1 => Mem.get m a :: Mem.read m (a + 1) n

/-- Writes a byte string from address a on. -/
def Mem.write (m : List Host.Cell) (a : Nat) : List Byte → List Host.Cell
  | [] => m
  | b :: bs => Mem.write (Mem.put m a b) (a + 1) bs

/-- A byte string read as a number, first byte lowest (R5). -/
def ofBytes : List Byte → Nat
  | [] => 0
  | b :: bs => b.toNat + 256 * ofBytes bs

/-- The n low bytes of a number, lowest first (R5). -/
def toBytes : Nat → Nat → List Byte
  | 0, _ => []
  | n + 1, x => BitVec.ofNat 8 (x % 256) :: toBytes n (x / 256)

/-- Bytes i, …, i + n - 1 of a byte string, zeros beyond its end. -/
def sliceBytes (bs : List Byte) (i n : Nat) : List Byte :=
  (List.range n).map (fun j => bs.getD (i + j) 0)

/-- A byte string cut or filled with zeros to n bytes. -/
def padTo (n : Nat) (bs : List Byte) : List Byte := sliceBytes bs 0 n

/-- The smallest multiple of q that is at least n. -/
def roundUp (n q : Nat) : Nat := (n + q - 1) / q * q

/-- n / q rounded up. -/
def ceilDiv (n q : Nat) : Nat := (n + q - 1) / q

/-- One bit of CRC-16, generator 0x1021, not reflected (R163). -/
def crc16Bit (c : Nat) : Nat :=
  if c / 0x8000 % 2 = 1 then (2 * c % 0x10000) ^^^ 0x1021 else 2 * c % 0x10000

/-- n applications of a function. -/
def iter {α : Type} (f : α → α) : Nat → α → α
  | 0, x => x
  | n + 1, x => iter f n (f x)

/-- CRC-16 continued over a byte string (R163). -/
def crc16From : Nat → List Byte → Nat
  | c, [] => c
  | c, b :: bs => crc16From (iter crc16Bit 8 (c ^^^ (b.toNat * 256))) bs

/-- The line check: CRC-16 from 0xFFFF over the line index, two bytes, and the 64 data bytes (R163). -/
def lineCheck (line : Nat) (data : List Byte) : BitVec 16 :=
  BitVec.ofNat 16 (crc16From 0xFFFF (toBytes 2 line ++ data))

/-- One bit of CRC-32C, reflected (R173). -/
def crc32cBit (c : Nat) : Nat :=
  if c % 2 = 1 then (c / 2) ^^^ 0x82F63B78 else c / 2

/-- CRC-32C continued over a byte string (R173). -/
def crc32cFrom : Nat → List Byte → Nat
  | c, [] => c
  | c, b :: bs => crc32cFrom (iter crc32cBit 8 (c ^^^ b.toNat)) bs

/-- CRC-32C: initial value and final XOR 0xFFFF_FFFF (R173). -/
def crc32c (bs : List Byte) : BitVec 32 :=
  BitVec.ofNat 32 (crc32cFrom 0xFFFFFFFF bs ^^^ 0xFFFFFFFF)

/-- The CRC of a block's side field: over the 512 data bytes and then the tag (R173). -/
def blockCrc (data : List Byte) (tag : BitVec 32) : BitVec 32 :=
  crc32c (data ++ toBytes 4 tag.toNat)

/-- The CRC of a block of zeros with tag 0 (R175), written out: see Tests. -/
def zeroBlockCrc : BitVec 32 := 0xb84e1c9b#32

end Sys2Proof.Machine
end

