-- ==== Sys2Proof/Machine/Float.lean ====
section
/-!
DEFINITION. The element formats of Tables 3.1 and 3.2, exact dyadic numbers, one correct rounding of an
exact value to a format (R91, R92, R94, R95), and FP32 arithmetic (R88, R90, R125).
-/

namespace Sys2Proof.Machine

/-- A number read from an encoding: the finite value is ± m × 2^e. -/
inductive Num where
  | nan
  | inf (neg : Bool)
  | fin (neg : Bool) (m : Nat) (e : Int)
deriving DecidableEq, Repr

/-- Which encodings of a format are infinities and NaNs (Table 3.2). -/
inductive FStyle where
  | ieee | e4m3 | none
deriving DecidableEq, Repr

/-- A floating-point element encoding: widths of its fields and its bias (Table 3.2). -/
structure FFmt where
  bits : Nat
  ebits : Nat
  mbits : Nat
  bias : Nat
  style : FStyle
deriving DecidableEq, Repr

/-- FP32 (Table 3.2). -/
def fmtF32 : FFmt := ⟨32, 8, 23, 127, .ieee⟩
/-- BF16 (Table 3.2). -/
def fmtBF16 : FFmt := ⟨16, 8, 7, 127, .ieee⟩

/-- The floating-point encoding of a format code of Table 3.1. -/
def ffmt (code : Nat) : Option FFmt :=
  match code with
  | 0x0 => some fmtF32
  | 0x1 => some fmtBF16
  | 0x2 => some ⟨16, 5, 10, 15, .ieee⟩
  | 0x3 | 0x5 => some ⟨8, 4, 3, 7, .e4m3⟩
  | 0x4 | 0x6 => some ⟨8, 5, 2, 15, .ieee⟩
  | 0x7 => some ⟨6, 2, 3, 1, .none⟩
  | 0x8 => some ⟨6, 3, 2, 3, .none⟩
  | 0x9 => some ⟨4, 2, 1, 1, .none⟩
  | _ => none

/-- Element width in bits of a format code (Tables 3.1, 3.2, 3.4). -/
def fmtBits (code : Nat) : Nat :=
  match code with
  | 0x0 => 32
  | 0x1 | 0x2 => 16
  | 0x3 | 0x4 | 0x5 | 0x6 | 0xA => 8
  | 0x7 | 0x8 => 6
  | 0x9 | 0xB => 4
  | 0xC => 128
  | _ => 0

/-- The formats whose products enter the exact accumulator (Table 3.1). -/
def isExactFmt (code : Nat) : Bool := decide (0x3 ≤ code ∧ code ≤ 0xB)
/-- The MX formats: one E8M0 scale per block of 32 (Table 3.1). -/
def isMxFmt (code : Nat) : Bool := decide (0x5 ≤ code ∧ code ≤ 0x9)
/-- INT8 and INT4 (Table 3.1). -/
def isIntFmt (code : Nat) : Bool := code == 0xA || code == 0xB
/-- Pairings that Table 3.1 allows for a multiplication (R72). -/
def mayPair (a b : Nat) : Bool := (isExactFmt a && isExactFmt b) || (a == b && decide (a ≤ 2))

/-- floor(log2) of the finite value m × 2^e, m ≠ 0. -/
def expOf (m : Nat) (e : Int) : Int := e + Int.ofNat (Nat.log2 m)

/-- m1 × 2^e1 ≤ m2 × 2^e2. -/
def leDy (m1 : Nat) (e1 : Int) (m2 : Nat) (e2 : Int) : Bool :=
  if e1 ≤ e2 then decide (m1 ≤ m2 * 2 ^ (e2 - e1).toNat) else decide (m1 * 2 ^ (e1 - e2).toNat ≤ m2)

/-- Reads an element of a floating-point format (R73). -/
def decodeF (f : FFmt) (x : Nat) : Num :=
  let neg := x / 2 ^ (f.bits - 1) % 2 == 1
  let ex := x / 2 ^ f.mbits % 2 ^ f.ebits
  let fr := x % 2 ^ f.mbits
  let top := 2 ^ f.ebits - 1
  if f.style = .ieee ∧ ex = top then (if fr = 0 then .inf neg else .nan)
  else if f.style = .e4m3 ∧ ex = top ∧ fr = 2 ^ f.mbits - 1 then .nan
  else if ex = 0 then .fin neg fr (1 - Int.ofNat f.bias - Int.ofNat f.mbits)
  else .fin neg (2 ^ f.mbits + fr) (Int.ofNat ex - Int.ofNat f.bias - Int.ofNat f.mbits)

/-- A signed number as an exact dyadic. -/
def numOfInt (i : Int) : Num := .fin (decide (i < 0)) i.natAbs 0

/-- The low w bits of x as a two's-complement number. -/
def signedOf (w x : Nat) : Int :=
  if x % 2 ^ w < 2 ^ (w - 1) then Int.ofNat (x % 2 ^ w) else Int.ofNat (x % 2 ^ w) - Int.ofNat (2 ^ w)

/-- Reads an element of a format code of Table 3.1; the integer formats are two's complement. -/
def decodeElem (code x : Nat) : Num :=
  match ffmt code with
  | some f => decodeF f x
  | none => numOfInt (signedOf (fmtBits code) x)

/-- The flags a conversion sets in CORE_ARITH_STATUS (Table 3.9). -/
structure ConvFlags where
  ovf : Bool := false
  undf : Bool := false
  invalid : Bool := false
  inexact : Bool := false
deriving DecidableEq, Repr

/-- The union of two sets of conversion flags. -/
def ConvFlags.or (a b : ConvFlags) : ConvFlags :=
  ⟨a.ovf || b.ovf, a.undf || b.undf, a.invalid || b.invalid, a.inexact || b.inexact⟩

/-- Rounds the magnitude of ± m × 2^e to a multiple n × 2^q: mode 1 toward zero, mode 2 stochastic with the
bits r on the signed neighbours (R95), any other to nearest with ties to even. Answers n and "rounded". -/
def roundMag (neg : Bool) (m : Nat) (e q : Int) (mode r : Nat) : Nat × Bool :=
  if q ≤ e then (m * 2 ^ (e - q).toNat, false)
  else
    let d := 2 ^ (q - e).toNat
    let lo := m / d
    let rem := m % d
    if rem = 0 then (lo, false)
    else
      let up := match mode with
        | 1 => false
        | 2 => if neg then !decide (r < (d - rem) * 2 ^ 32 / d) else decide (r < rem * 2 ^ 32 / d)
        | _ => decide (d < 2 * rem) || (decide (2 * rem = d) && lo % 2 == 1)
      (if up then lo + 1 else lo, true)

/-- The largest finite value of a format as (significand, exponent) (Table 3.2). -/
def maxFinite (f : FFmt) : Nat × Int :=
  let top := Int.ofNat (2 ^ f.ebits - 1)
  let e := top - Int.ofNat f.bias - Int.ofNat f.mbits
  match f.style with
  | .ieee => (2 ^ (f.mbits + 1) - 1, e - 1)
  | .e4m3 => (2 ^ (f.mbits + 1) - 2, e)
  | .none => (2 ^ (f.mbits + 1) - 1, e)

/-- The encoding of the representable value ± n × 2^q, where n fills the significand or q is the least. -/
def encodeF (f : FFmt) (neg : Bool) (n : Nat) (q : Int) : Nat :=
  let s := if neg then 2 ^ (f.bits - 1) else 0
  if n = 0 then s
  else s + (q - (1 - Int.ofNat f.bias - Int.ofNat f.mbits)).toNat * 2 ^ f.mbits + n

/-- The encoding of ± the largest finite value. -/
def encodeMax (f : FFmt) (neg : Bool) : Nat :=
  let (m, e) := maxFinite f
  encodeF f neg m e

/-- The encoding of ± infinity in a format of IEEE style. -/
def encodeInf (f : FFmt) (neg : Bool) : Nat :=
  (if neg then 2 ^ (f.bits - 1) else 0) + (2 ^ f.ebits - 1) * 2 ^ f.mbits

/-- The NaN result of Table 3.6. -/
def encodeNan (f : FFmt) : Nat :=
  match f.style with
  | .ieee => (2 ^ f.ebits - 1) * 2 ^ f.mbits + 2 ^ (f.mbits - 1)
  | .e4m3 => 0x7F
  | .none => 0

/-- One rounding of a number to a floating-point format (R91, R92, Table 3.6). force is the OVERFLOW status
of the value, mx the element conversion of an MX block (R93), keepZero the sign of an exact zero (R88). -/
def roundF (f : FFmt) (x : Num) (mode r : Nat) (sat force mx keepZero : Bool) : Nat × ConvFlags :=
  match x with
  | .nan => (encodeNan f, {})
  | .inf neg =>
    if f.style = .ieee then (encodeInf f neg, {})
    else if sat then (encodeMax f neg, { ovf := true })
    else (encodeNan f, {})
  | .fin neg m e =>
    let big := if mx || sat || mode == 1 || f.style = .none then encodeMax f neg
      else if f.style = .ieee then encodeInf f neg else encodeNan f
    if force then (big, { ovf := true })
    else if m = 0 then (if neg && keepZero then 2 ^ (f.bits - 1) else 0, {})
    else
      let emin : Int := 1 - Int.ofNat f.bias
      let q := max (expOf m e) emin - Int.ofNat f.mbits
      let (n, inx) := roundMag neg m e q mode r
      if n = 0 then (encodeF f neg 0 q, { undf := true, inexact := inx })
      else
        let (mm, me) := maxFinite f
        if leDy n q mm me then (encodeF f neg n q, { inexact := inx })
        else (big, { ovf := true, inexact := inx })

/-- Two's complement of an integer in w bits. -/
def twos (w : Nat) (i : Int) : Nat := (i % Int.ofNat (2 ^ w)).toNat

/-- One rounding of a number to INT8 or INT4, saturating whatever SAT holds (R94, Table 3.6). -/
def roundInt (w : Nat) (x : Num) (mode r : Nat) (force : Bool) : Nat × ConvFlags :=
  let hi : Nat := 2 ^ (w - 1) - 1
  let limit (neg : Bool) : Nat := if neg then 2 ^ (w - 1) else hi
  match x with
  | .nan => (0, { invalid := true })
  | .inf neg => (limit neg, { ovf := true })
  | .fin neg m e =>
    if force then (limit neg, { ovf := true })
    else if m = 0 then (0, {})
    else
      let (n, inx) := roundMag neg m e 0 mode r
      let overran := decide ((if neg then 2 ^ (w - 1) else hi) < n)
      if overran then (limit neg, { ovf := true, inexact := inx })
      else (twos w (if neg then -(Int.ofNat n) else Int.ofNat n), { undf := n == 0, inexact := inx })

/-- The number an FP32 pattern stands for. -/
def numOfF32 (a : F32) : Num := decodeF fmtF32 a.toNat

/-- One rounding to FP32 to nearest even with IEEE overflow and signed zeros (R88). -/
def f32OfNum (x : Num) : F32 := BitVec.ofNat 32 (roundF fmtF32 x 0 0 false false false true).1

/-- The same number with the other sign. -/
def Num.neg : Num → Num
  | .nan => .nan
  | .inf n => .inf (!n)
  | .fin n m e => .fin (!n) m e

/-- The exact product under the IEEE rules (R88). -/
def Num.mul : Num → Num → Num
  | .nan, _ => .nan
  | _, .nan => .nan
  | .inf a, .inf b => .inf (a != b)
  | .inf a, .fin b m _ => if m = 0 then .nan else .inf (a != b)
  | .fin a m _, .inf b => if m = 0 then .nan else .inf (a != b)
  | .fin a m e, .fin b n k => .fin (a != b) (m * n) (e + k)

/-- The finite value ± m × 2^e as an integer multiple of 2^q, q at most e. -/
def scaledInt (neg : Bool) (m : Nat) (e q : Int) : Int :=
  let v := Int.ofNat (m * 2 ^ (e - q).toNat)
  if neg then -v else v

/-- The exact sum under the IEEE rules (R88). -/
def Num.add : Num → Num → Num
  | .nan, _ => .nan
  | _, .nan => .nan
  | .inf a, .inf b => if a = b then .inf a else .nan
  | .inf a, .fin _ _ _ => .inf a
  | .fin _ _ _, .inf b => .inf b
  | .fin a m e, .fin b n k =>
    if m = 0 ∧ n = 0 then .fin (a && b) 0 0
    else
      let q := min e k
      let s := scaledInt a m e q + scaledInt b n k q
      .fin (decide (s < 0)) s.natAbs q

/-- The integer square root, bits of the root from b - 1 down. -/
def isqrtFrom : Nat → Nat → Nat → Nat
  | 0, _, r => r
  | b + 1, n, r => isqrtFrom b n (if (r + 2 ^ b) * (r + 2 ^ b) ≤ n then r + 2 ^ b else r)

/-- The quotient with a sticky bit below at least 64 significant bits, under the IEEE rules (R125). -/
def Num.div : Num → Num → Num
  | .nan, _ => .nan
  | _, .nan => .nan
  | .inf _, .inf _ => .nan
  | .inf a, .fin b _ _ => .inf (a != b)
  | .fin a _ _, .inf b => .fin (a != b) 0 0
  | .fin a m e, .fin b n k =>
    if n = 0 then (if m = 0 then .nan else .inf (a != b))
    else if m = 0 then .fin (a != b) 0 0
    else
      let sh := 64 + Nat.log2 n
      let x := m * 2 ^ sh
      .fin (a != b) (2 * (x / n) + (if x % n = 0 then 0 else 1)) (e - k - Int.ofNat sh - 1)

/-- The square root with a sticky bit below at least 64 significant bits, under the IEEE rules (R125). -/
def Num.sqrt : Num → Num
  | .nan => .nan
  | .inf a => if a then .nan else .inf false
  | .fin a m e =>
    if m = 0 then .fin a 0 0
    else if a then .nan
    else
      let sh := 130 + (if (e % 2 = 1) then 1 else 0)
      let x := m * 2 ^ sh
      let r := isqrtFrom (Nat.log2 x / 2 + 1) x 0
      .fin false (2 * r + (if r * r = x then 0 else 1)) ((e - Int.ofNat sh) / 2 - 1)

/-- FP32 addition, one rounding (R88). -/
def f32Add (a b : F32) : F32 := f32OfNum ((numOfF32 a).add (numOfF32 b))
/-- FP32 subtraction, one rounding. -/
def f32Sub (a b : F32) : F32 := f32OfNum ((numOfF32 a).add (numOfF32 b).neg)
/-- FP32 multiplication, one rounding. -/
def f32Mul (a b : F32) : F32 := f32OfNum ((numOfF32 a).mul (numOfF32 b))
/-- FP32 fused multiply-add a × b + c, one rounding. -/
def f32Fma (a b c : F32) : F32 := f32OfNum (((numOfF32 a).mul (numOfF32 b)).add (numOfF32 c))
/-- FP32 division, one rounding. -/
def f32Div (a b : F32) : F32 := f32OfNum ((numOfF32 a).div (numOfF32 b))
/-- FP32 square root, one rounding. -/
def f32Sqrt (a : F32) : F32 := f32OfNum (numOfF32 a).sqrt

/-- BF16 of an FP32 pattern, to nearest even, canonical NaN. -/
def bf16OfF32 (a : F32) : BitVec 16 :=
  BitVec.ofNat 16 (roundF fmtBF16 (numOfF32 a) 0 0 false false false true).1
/-- A BF16 pattern is the upper half of its FP32 pattern. -/
def f32OfBf16 (h : BitVec 16) : F32 := BitVec.ofNat 32 (h.toNat * 65536)

/-- The split of an FP32 operand into two BF16 numbers (R90). -/
def split32 (a : F32) : Num × Num :=
  match numOfF32 a with
  | .fin neg m e =>
    let h := bf16OfF32 a
    let hi : BitVec 16 := if h.toNat % 32768 = 0x7F80 then (if neg then 0xFF7F#16 else 0x7F7F#16) else h
    let x := numOfF32 (f32OfBf16 hi)
    let d := (Num.fin neg m e).add x.neg
    (x, decodeF fmtBF16 (roundF fmtBF16 d 0 0 false false false true).1)
  | x => (x, .fin false 0 0)

/-- The bits of stochastic rounding (R95): step, core address word, layer index and element number. -/
def srBits (seed : Word) (step core layer element : Nat) : Nat :=
  let M := 2 ^ 64
  let c0 := (step * 2 ^ 32 + core) % M
  let c1 := (layer * 2 ^ 32 + element) % M
  let h0 := seed.toNat ^^^ (c0 * 0x9E3779B97F4A7C15 % M) ^^^ (c1 * 0xD6E8FEB86659FD93 % M)
  let rnd (h : Nat) : Nat :=
    let h := (h ^^^ (h / 2 ^ 30)) * 0xBF58476D1CE4E5B9 % M
    let h := (h ^^^ (h / 2 ^ 27)) * 0x94D049BB133111EB % M
    h ^^^ (h / 2 ^ 31)
  rnd (rnd h0) / 2 ^ 32

end Sys2Proof.Machine
end

