-- ==== Sys2Proof/Machine/Exact.lean ====
section
/-!
DEFINITION. The exact accumulator and the 16-bit paths of one lane (R76 to R90), the EP128 word (R83 to R86),
and the conversion of a lane to an output format (R91 to R95).
-/

namespace Sys2Proof.Machine

/-- One lane of an accumulator tile with its entry of the tile side store (R76, R106). -/
structure Lane where
  v : BitVec 96 := 0
  e : BitVec 16 := 0
  c : BitVec 32 := 0
  st : Byte := 0
deriving DecidableEq, Repr

/-- Bits of the lane status, as bits [6:0] of the EP128 status (Table 3.5). -/
def stOvf : Byte := 0x01
/-- A NaN term or invalid operation occurred (Table 3.5). -/
def stNan : Byte := 0x02
/-- A positive infinite term occurred (Table 3.5). -/
def stPosInf : Byte := 0x04
/-- A negative infinite term occurred (Table 3.5). -/
def stNegInf : Byte := 0x08
/-- A product or partial was rounded to the window (Table 3.5). -/
def stInexact : Byte := 0x10
/-- Partials of different SCALE were merged (Table 3.5). -/
def stMixed : Byte := 0x20
/-- No term other than zero times finite contributed (Table 3.5). -/
def stEmpty : Byte := 0x40

/-- Sets status bits and clears EMPTY: the effect of a term that is not zero times finite (R81). -/
def Lane.mark (l : Lane) (b : Byte) : Lane := { l with st := (l.st ||| b) &&& ~~~stEmpty }

/-- The anchor of a lane none of whose blocks has a scale, and SCALE of an EMPTY word (R77, R83). -/
def noAnchor : BitVec 16 := 0x8000#16

/-- Rounds the signed value ± m × 2^s to an integer, to nearest with ties to even; also whether it rounded. -/
def roundInteger (neg : Bool) (m : Nat) (s : Int) : Int × Bool :=
  let (n, inx) := roundMag neg m s 0 0 0
  (if neg then -(Int.ofNat n) else Int.ofNat n, inx)

/-- The limit at which a carry count holds (R82). -/
def carryMax : Int := 2147483647

/-- Sets the carry count, which holds at ±(2^31 - 1) with OVERFLOW set (R82). -/
def Lane.setCarry (l : Lane) (c : Int) : Lane :=
  if c ≥ carryMax then { l with c := BitVec.ofInt 32 carryMax, st := l.st ||| stOvf }
  else if c ≤ -carryMax then { l with c := BitVec.ofInt 32 (-carryMax), st := l.st ||| stOvf }
  else { l with c := BitVec.ofInt 32 c }

/-- Adds an integer multiple of the window unit into V and C (R79, R82). -/
def Lane.addInt (l : Lane) (t : Int) : Lane :=
  let sum := l.v.toInt + t
  let v := BitVec.ofInt 96 sum
  let c := l.c.toInt
  let c' := if c = carryMax ∨ c = -carryMax then c else c + (sum - v.toInt) / 2 ^ 96
  ({ l with v := v } : Lane).setCarry c'

/-- Adds one term x × y × 2^eb of a block, also answering whether a product was rounded (R79, R81). -/
def Lane.addTerm (l : Lane) (x y : Num) (eb : Int) : Lane × Bool :=
  match x.mul y with
  | .nan => (l.mark stNan, false)
  | .inf neg => (l.mark (if neg then stNegInf else stPosInf), false)
  | .fin neg m e =>
    if m = 0 then (l, false)
    else
      let (t, inx) := roundInteger neg m (e + eb - (l.e.toInt - 56))
      ((l.mark (if inx then stInexact else 0)).addInt t, inx)

/-- V after the test of R82 and whether OVERFLOW is set: C = 0 keeps V, otherwise V saturates by the sign of C. -/
def Lane.tested (l : Lane) : BitVec 96 × Bool :=
  if l.c = 0 then (l.v, l.st &&& stOvf != 0)
  else if l.c.toInt > 0 then (0x7FFFFFFFFFFFFFFFFFFFFFFF#96, true)
  else (0x800000000000000000000000#96, true)

/-- The EP128 word of a lane (R82, R83). -/
def Lane.word (l : Lane) : BitVec 128 :=
  if l.st &&& stEmpty != 0 then
    BitVec.ofNat 128 ((0x4000 + l.st.toNat % 128) * 2 ^ 112 + 0x8000 * 2 ^ 96)
  else
    let (v, ovf) := l.tested
    let st := (if ovf then l.st ||| stOvf else l.st).toNat % 128
    BitVec.ofNat 128 ((0x4000 + st) * 2 ^ 112 + l.e.toNat * 2 ^ 96 + v.toNat)

/-- The three fields of an EP128 word (Table 3.4). -/
structure EpWord where
  value : BitVec 96
  scale : BitVec 16
  status : BitVec 16
deriving DecidableEq, Repr

/-- Reads the fields of an EP128 word (Table 3.4). -/
def epFields (w : BitVec 128) : EpWord :=
  ⟨BitVec.ofNat 96 (bits w 95 0), BitVec.ofNat 16 (bits w 111 96), BitVec.ofNat 16 (bits w 127 112)⟩

/-- A word that is not merged: version other than 1, a reserved bit, or EMPTY with a value (R84). -/
def epMalformed (w : BitVec 128) : Bool :=
  let f := epFields w
  bits f.status 15 14 != 1 || bits f.status 13 7 != 0 || (bit f.status 6 && f.value != 0)

/-- Re-anchors the exact integer x from scale e to scale e' at least e: rounded to nearest even (R86). -/
def reanchorUp (x : Int) (e e' : Int) : Int × Bool :=
  roundInteger (decide (x < 0)) x.natAbs (e - e')

/-- An exact integer as V and C of a lane, saturating C (R76, R82). -/
def Lane.ofSum (l : Lane) (x : Int) : Lane :=
  let v := BitVec.ofInt 96 x
  ({ l with v := v } : Lane).setCarry ((x - v.toInt) / 2 ^ 96)

/-- Merges an EP128 word into a lane (R85); also whether the merge rounded, and whether it met different scales. -/
def Lane.merge (l : Lane) (w : BitVec 128) : Lane × Bool × Bool :=
  let f := epFields w
  let wst : Byte := BitVec.ofNat 8 (f.status.toNat % 128)
  let sticky := (l.st ||| wst) &&& ~~~stEmpty
  if wst &&& stEmpty != 0 then ({ l with st := sticky ||| (l.st &&& stEmpty) }, false, false)
  else if l.st &&& stEmpty != 0 then
    ({ v := f.value, e := f.scale, c := 0, st := sticky }, false, false)
  else if f.scale = l.e then (({ l with st := sticky }).addInt f.value.toInt, false, false)
  else if f.scale.toInt < l.e.toInt then
    let (t, inx) := reanchorUp f.value.toInt f.scale.toInt l.e.toInt
    let st := sticky ||| stMixed ||| (if inx then stInexact else 0)
    (({ l with st := st }).addInt t, inx, true)
  else
    let (t, inx) := reanchorUp (l.v.toInt + l.c.toInt * 2 ^ 96) l.e.toInt f.scale.toInt
    let st := sticky ||| stMixed ||| (if inx then stInexact else 0)
    ((Lane.ofSum { l with st := st, e := f.scale } t).addInt f.value.toInt, inx, true)

/-- Re-anchors an EP128 word to a new anchor (R86). -/
def reanchorWord (w : BitVec 128) (e' : BitVec 16) : BitVec 128 :=
  let f := epFields w
  let wst := f.status.toNat
  let (v, fl) : Int × Nat :=
    if e'.toInt ≥ f.scale.toInt then
      let (t, inx) := reanchorUp f.value.toInt f.scale.toInt e'.toInt
      (t, if inx then 0x10 else 0)
    else
      let x := f.value.toInt * 2 ^ (f.scale.toInt - e'.toInt).toNat
      if x > 2 ^ 95 - 1 then (2 ^ 95 - 1, 1) else if x < -(2 ^ 95) then (-(2 ^ 95), 1) else (x, 0)
  BitVec.ofNat 128 ((wst ||| fl) * 2 ^ 112 + e'.toNat * 2 ^ 96 + twos 96 v)

/-- The FP32 value a lane of the 16-bit path holds. -/
def Lane.f32 (l : Lane) : F32 := BitVec.ofNat 32 (l.v.toNat % 2 ^ 32)

/-- A lane of the 16-bit path holding an FP32 value (R106). -/
def Lane.withF32 (l : Lane) (x : F32) : Lane := { l with v := BitVec.ofNat 96 x.toNat }

/-- Whether a number is finite. -/
def Num.finite : Num → Bool
  | .fin _ _ _ => true
  | _ => false

/-- Adds an FP32 value to a lane of the 16-bit path; the status keeps an overflow from finite terms (R88, R100). -/
def Lane.addF32 (l : Lane) (x : F32) (fromFinite : Bool) : Lane :=
  let s := f32Add l.f32 x
  let overran := fromFinite && (numOfF32 l.f32).finite && !(numOfF32 s).finite
  let l' := l.withF32 s
  if overran then { l' with st := l'.st ||| stOvf } else l'

/-- Adds one product on the 16-bit path: rounded once to FP32, then added (R88). -/
def Lane.addProd16 (l : Lane) (x y : Num) : Lane :=
  l.addF32 (f32OfNum (x.mul y)) (x.finite && y.finite)

/-- What the conversion unit reads of a lane: the number, and whether OVERFLOW forces the overflow column
(R82, R92). -/
def Lane.value (path16 : Bool) (l : Lane) : Num × Bool :=
  if path16 then (numOfF32 l.f32, false)
  else if l.st &&& stNan != 0 ∨ (l.st &&& stPosInf != 0 ∧ l.st &&& stNegInf != 0) then (.nan, false)
  else if l.st &&& stPosInf != 0 then (.inf false, false)
  else if l.st &&& stNegInf != 0 then (.inf true, false)
  else if l.st &&& stEmpty != 0 then (.fin false 0 0, false)
  else
    let (v, ovf) := l.tested
    (.fin (decide (v.toInt < 0)) v.toInt.natAbs (l.e.toInt - 56), ovf)

/-- A number times 2^k. -/
def Num.scale (k : Int) : Num → Num
  | .fin n m e => .fin n m (e + k)
  | x => x

/-- Converts one number to a format other than EP128 and the MX formats (R91, R92, R94). -/
def convertOne (fmt : Nat) (x : Num) (force : Bool) (mode r : Nat) (sat : Bool) (outShift : Int) :
    Nat × ConvFlags :=
  match ffmt fmt with
  | some f => roundF f x mode r sat force false false
  | none =>
    roundInt (fmtBits fmt) (x.scale outShift) mode r force

/-- emax of an MX element format (R93). -/
def mxEmax (fmt : Nat) : Int :=
  match fmt with
  | 0x5 => 8
  | 0x6 => 15
  | 0x7 => 2
  | 0x8 => 4
  | _ => 2

/-- The larger of two finite magnitudes; none is zero. -/
def maxMag (a : Option (Nat × Int)) (x : Num) : Option (Nat × Int) :=
  match x with
  | .fin _ m e =>
    if m = 0 then a else match a with
      | none => some (m, e)
      | some (n, k) => if leDy n k m e then some (m, e) else a
  | _ => a

/-- Converts one block of 32 numbers to an MX format (R93): the scale byte, the elements and the flags. -/
def convertMx (fmt : Nat) (xs : List (Num × Bool)) (mode : Nat) (r : Nat → Nat) :
    Byte × List Nat × ConvFlags :=
  if xs.any (fun x => !x.1.finite) then (0xFF, xs.map (fun _ => 0), {})
  else match xs.foldl (fun a x => maxMag a x.1) none with
    | none => (0x7F, xs.map (fun _ => 0), {})
    | some (m, e) =>
      let sh := max (-127) (min 127 (expOf m e - mxEmax fmt))
      let f := (ffmt fmt).getD fmtF32
      let ys := xs.zipIdx.map (fun (x, i) =>
        roundF f (x.1.scale (-sh)) mode (r i) true x.2 true false)
      (BitVec.ofNat 8 (sh + 127).toNat, ys.map (·.1), ys.foldl (fun a y => a.or y.2) {})

end Sys2Proof.Machine
end

