-- ==== Sys2Proof/Machine/CoreState.lean ====
section
/-!
DEFINITION. The state of one logical core: its engines, its memory, its endpoints, its router, and its
registers, with the Reset column as the default of each field. A field of a list of pairs is a sparse map:
an unlisted number holds the default.
-/

namespace Sys2Proof.Machine

/-- One half of an operand buffer, 2 KiB, with its half of the scale store, 128 B (R104). -/
structure OpHalf where
  data : BitVec 16384 := 0
  scale : BitVec 1024 := 0
deriving DecidableEq, Repr

/-- One accumulator tile with its entry of the tile side store (R106); no lanes listed means 256 lanes of zeros. -/
structure Tile where
  init : Bool := false
  path16 : Bool := false
  lanes : List Lane := []
  rowMax : List (BitVec 16) := []
  colMax : List (BitVec 16) := []
deriving DecidableEq, Repr

/-- The tensor engine (R104, R106, R120). -/
structure Tensor where
  a : List (Nat × OpHalf) := []
  b : List (Nat × OpHalf) := []
  tiles : List (Nat × Tile) := []
  bypassCol : BitVec 5 := 16
  mmaBeats : BitVec 48 := 0
  mmaSat : Bool := false
  dupTurn : Byte := 0
deriving DecidableEq, Repr

/-- The arithmetic registers and the conversion unit's element counter (R95, R100). -/
structure Arith where
  rmodeDefault : BitVec 2 := 0
  satDefault : Bool := true
  srSeed : Word := 0
  srStep : BitVec 32 := 0
  status : BitVec 9 := 0
  convCount : Nat := 0
  chkCode : BitVec 12 := 0
  chkLane : Byte := 0
  chkTile : BitVec 3 := 0
  chkPath : Bool := false
deriving DecidableEq, Repr

/-- The vector engine (R121, R128). -/
structure VEng where
  regs : List (Nat × BitVec 1024) := []
  pred : BitVec 32 := 0
  beats : BitVec 48 := 0
  sat : Bool := false
deriving DecidableEq, Repr

/-- Core memory: bytes, line-state bits, stored line checks, section states and masks (R160 to R170, R187). -/
structure CoreMem where
  bytes : List Host.Cell := []
  lineSet : BitVec 1536 := 0
  checks : List (Nat × BitVec 16) := []
  on : Byte := 0
  retained : Byte := 0
  footprint : Byte := 0
  entry : Byte := 0
  keep : Byte := 0
  scrubbed : Byte := 0
  releasePend : Byte := 0
  entryBad : Byte := 0
  groupBypass : BitVec 32 := 0xAAAAAAAA
  errCode : BitVec 12 := 0
  errUnit : BitVec 4 := 0
  errAddr : BitVec 17 := 0
deriving DecidableEq, Repr

/-- What a core waits for at a budgeted arrival point or an external wait point (R62, R63): a FIRE, a TOKEN, a TAKE, an AWAIT,
a TWAIT, or a memory-port command whose data has not arrived (R109). -/
inductive WaitFor where
  | fire (ep : Nat)
  | token (ep : Nat) (value : BitVec 32)
  | take (ep ctr : Nat)
  | await (wafer : Bool) (course : Nat)
  | twait (tally count : Nat)
  | engine (cmd : Instr)
deriving DecidableEq, Repr

/-- A packet or message that the core's router has accepted and that has not been delivered, with the ORDER of its route
(R193, R194, R204, R211, R230, R252, R267, R271); a credit packet carries data credits and pairing credits, a read request the beat
of its issue. -/
inductive OutPkt where
  | block (dest ep : Nat) (order : Bool) (data : List Byte)
  | credit (dest ep : Nat) (order : Bool) (data pair : Nat)
  | token (dest : Nat) (order : Bool) (w : BitVec 128)
  | readReq (slot block run blk : Nat) (alloc order : Bool) (beat : Nat)
  | write (slot block : Nat) (order : Bool) (data : BitVec 4096) (tag crc : BitVec 32)
  | course (host course member : Nat) (order : Bool)
  | release (dest course : Nat) (order : Bool)
  | wafer (course : Nat)
  | tally (dest tally count : Nat) (order : Bool)
  | readData (core slot : Nat) (order : Bool) (data : List Byte)
  | writeAck (core slot : Nat) (order : Bool)
deriving DecidableEq, Repr

/-- A send endpoint, data or token (R189, R193, R207); sentBytes are the bytes of its stream that its firings have taken. -/
structure SendEp where
  bound : Bool := false
  token : Bool := false
  governed : Bool := false
  peer : Nat := 0
  peerEp : Nat := 0
  flits : Nat := 0
  perFiring : Nat := 0
  depth : Nat := 0
  firings : Nat := 0
  credits : BitVec 5 := 0
  pair : BitVec 3 := 0
  fired : BitVec 17 := 0
  stream : Option Nat := none
  sentBytes : Nat := 0
deriving DecidableEq, Repr

/-- An entry of a skew buffer: the token half and the data-half marker (R207). -/
structure Skew where
  token : Option (BitVec 32) := none
  data : Bool := false
deriving DecidableEq, Repr

/-- A receive endpoint (R189, R193, R207). -/
structure RecvEp where
  bound : Bool := false
  governed : Bool := false
  peer : Nat := 0
  peerEp : Nat := 0
  tokenPeer : Nat := 0
  flits : Nat := 0
  perFiring : Nat := 0
  depth : Nat := 0
  firings : Nat := 0
  bufAddr : Nat := 0
  level : BitVec 5 := 0
  consumed : BitVec 17 := 0
  taken : BitVec 17 := 0
  arrived : Nat := 0
  skew : List (Nat × Skew) := []
  tokenEp : Nat := 0
deriving DecidableEq, Repr

/-- A wait in progress, with the late beats it has counted (R65). A wait on an endpoint that goes on into the next layer keeps
the endpoint of its own layer, and a FIRE the addresses of its firing's flits (R65, R191; log 44); past
says that a memory-port command waits for data of a layer that is over, which no stream of the present one brings. -/
structure Wait where
  what : WaitFor
  ext : Bool := false
  late : Nat := 0
  send : Option SendEp := none
  recv : Option RecvEp := none
  flits : List Nat := []
  past : Bool := false
deriving DecidableEq, Repr

/-- The flags that a core places for a layer-end sample (R64, R197): late, loops not home, nothing but unpaired halves not
home, and the endpoint concerned, with the direction of Table 7.6. -/
structure LayerFlags where
  late : Bool := false
  away : Bool := false
  unpaired : Bool := false
  dir : Bool := false
  ep : Nat := 0
deriving DecidableEq, Repr

/-- Where a late arrival came from: its sender with the bit of the sender's route-order word that its route follows, or with
the ORDER that its packet shows (R67, R252). -/
inductive LatePath where
  | sent (core bit : Nat)
  | routed (core : Nat) (order : Bool)
deriving DecidableEq, Repr

/-- The sequencer and the pace registers (R45, R69); lateRun is the length of a wait on an arrival that has no command of its
own, idle says that the present beat is one of such a wait, and shift is the number of beats by which waits have moved the
rest of the layer's schedule (R62, R63). lateFrom says where the first late arrival came from
(R67), placed holds the flags by layer (R64), and winBeats and winWaits are the beats begun, and those whose start waited
on a neighbour, in the present pace window (R54, R71). -/
structure Pace where
  beat : Word := 0
  lateCount : BitVec 32 := 0
  lateSat : Bool := false
  stall : Bool := false
  firstBeat : Word := 0
  firstLayer : Byte := 0
  cause : BitVec 3 := 0
  extCount : BitVec 32 := 0
  extSat : Bool := false
  coupleCount : BitVec 30 := 0
  coupleSat : Bool := false
  wait : Option Wait := none
  lateRun : Nat := 0
  idle : Bool := false
  shift : Nat := 0
  lateFrom : Option LatePath := none
  placed : List (Nat × LayerFlags) := []
  winBeats : Nat := 0
  winWaits : Nat := 0
deriving DecidableEq, Repr

/-- The steering unit and the core flow registers (R198, R219); suppress lists the suppressed windows as first
beat and beat after the last (R201), in beats of the schedule (R63). errBeat is the beat of the last SYNC fault, which R203
names and no register shows (log 44). -/
structure Flow where
  counters : List (Nat × BitVec 16) := []
  preds : Byte := 0
  loops : List (Nat × Nat) := []
  suppress : List (Nat × Nat) := []
  send : List (Nat × SendEp) := []
  recv : List (Nat × RecvEp) := []
  epoch : BitVec 2 := 0
  sink : Bool := false
  layer : Byte := 0
  layerStart : Nat := 0
  errCode : BitVec 12 := 0
  errDir : Bool := false
  errEp : BitVec 4 := 0
  errSeq : BitVec 16 := 0
  errBeat : Word := 0
  errDrain : Bool := false
  staleCount : BitVec 32 := 0
  staleSat : Bool := false
  staleEpoch : BitVec 2 := 0
deriving DecidableEq, Repr

/-- A position in the visiting order of a stream: the run and the block within the run (R227, R230). -/
structure Cursor where
  run : Nat := 0
  blk : Nat := 0
deriving DecidableEq, Repr

/-- An outgoing block as the engine forms it (R231, R241): its address as its descriptor names it, its data and tag, and
whether its panel is compressed or falls back, at the panel's first block. -/
structure OutBlock where
  addr : Nat
  data : List Byte
  tag : BitVec 32
  fallback : Option Bool := none
deriving DecidableEq, Repr

/-- A stream slot of the DMA engine (R224, R230, R233, R234). issue and issued are those of the blocks issued, issueB and issuedB
those of the second descriptor of a PRESCAN pair. rd and read are those of the outgoing blocks whose rows have been read, with the
rows read of the next one and what it is so far. got are the blocks delivered, tags the panel tags seen, values the value bits of
the tiles handed over to a VALUES_ONLY write. fetching says that the descriptor is still being fetched; owed are the tiles, not yet
acted on, of the streams before in the slot, each with its descriptor and base sequence. -/
structure DmaSlot where
  desc : Desc := 0
  pairDesc : Desc := 0
  index : Nat := 0
  start : Nat := 0
  fetching : Bool := false
  owed : List (Desc × Nat) := []
  issue : Cursor := {}
  issued : Nat := 0
  issueB : Cursor := {}
  issuedB : Nat := 0
  rd : Cursor := {}
  read : Nat := 0
  row : Nat := 0
  forming : Option OutBlock := none
  done : Nat := 0
  released : List Nat := []
  usable : Nat := 0
  got : List Cursor := []
  asm : List Host.Cell := []
  maxima : List (Nat × Int) := []
  tags : List (Nat × BitVec 32) := []
  values : Nat := 0
  pool : Nat := 0
  poolBits : Nat := 0
  poolTiles : Nat := 0
  granted : Nat := 0
  grantSeen : List Nat := []
  flow : BitVec 24 := 0
  baseSeq : Nat := 0
  extSeen : List Nat := []
deriving DecidableEq, Repr

/-- A descriptor burst fetch in progress: the burst, the turns left, and the start it serves (R225). -/
structure BurstFetch where
  burst : Nat
  turns : Nat
  slot : Nat
  index : Nat
deriving DecidableEq, Repr

/-- A firing whose blocks are being injected (R193, R232): its endpoint, the stream slot that serves it, where it goes, the
addresses of the flits still to be injected, the flits of a block, and the bytes of the block begun. -/
structure Firing where
  ep : Nat
  slot : Nat
  peer : Nat
  peerEp : Nat
  order : Bool
  flits : List Nat
  size : Nat
  part : List Byte := []
deriving DecidableEq, Repr

/-- A staged row that has its place in the order of R221: the beat of its last flit and its rank, stream slots (0 to 7) before
receive endpoints (8 to 23) before bus listeners (24 to 27). -/
structure RowPlace where
  row : Nat
  beat : Nat
  rank : Nat
deriving DecidableEq, Repr

/-- The DMA engine (R221 to R247): stream slots, the two held bursts with the more recently used first, the
staging buffer as bytes at core-memory addresses with its rows, the firings in progress, and the flits that their rows have
given, by endpoint and address. -/
structure Dma where
  slots : List (Nat × DmaSlot) := []
  busy : Byte := 0
  bursts : List (Nat × List Desc) := []
  fetch : List BurstFetch := []
  staged : List Host.Cell := []
  order : List RowPlace := []
  firing : List Firing := []
  sendHeld : List (Nat × Nat × List Byte) := []
  blocksRd : BitVec 31 := 0
  rdSat : Bool := false
  blocksWr : BitVec 31 := 0
  wrSat : Bool := false
  panelsComp : BitVec 31 := 0
  compSat : Bool := false
  panelsFb : BitVec 31 := 0
  fbSat : Bool := false
  errFault : Code := 0
  errSlot : BitVec 3 := 0
  errDesc : BitVec 9 := 0
  errPanel : BitVec 16 := 0
  errKind : BitVec 3 := 0
deriving DecidableEq, Repr

/-- A per-core course at its host, with the release flag of the course number at this core (R266, R267). -/
structure Course where
  participants : BitVec 7 := 0
  arrived : BitVec 64 := 0
  senders : List (Nat × (Nat × Bool)) := []
  gen : Bool := false
  held : Bool := false
  overran : Bool := false
deriving DecidableEq, Repr

/-- A tally pair (R271, R272); own is the program's BUFFERS while an EXT_IN stream sets BUFFERS (R273). -/
structure Tally where
  prod : BitVec 32 := 0
  cons : BitVec 32 := 0
  buffers : BitVec 9 := 0
  own : Option (BitVec 9) := none
  sat : Bool := false
  bound : Bool := false
deriving DecidableEq, Repr

/-- One kind of traffic on a link: the replay buffer with the attempts made, the next sequence numbers, and
the input buffer (R248, R256). -/
structure LinkKind where
  replay : List (BitVec 6 × Pkt × Nat) := []
  next : BitVec 6 := 0
  expect : BitVec 6 := 0
  discard : Bool := false
  inBuf : List Pkt := []
deriving DecidableEq, Repr

/-- A mesh link of a router with its register (R256, R257, R281): both kinds of traffic, the beat until which a scheduled packet
holds the output, the answers that wait for the sideband (bits [19:11] of Table 9.1), and the sidebands that it sent last. -/
structure MeshLink where
  sched : LinkKind := {}
  unsched : LinkKind := {}
  busy : Nat := 0
  answers : List (BitVec 9) := []
  sent : List (BitVec 96) := []
  resends : BitVec 31 := 0
  resendSat : Bool := false
  failed : Bool := false
  lastAttempts : BitVec 4 := 0
deriving DecidableEq, Repr

/-- A bus binding in force with the number of blocks already sent or taken; at a writer whether a block is being placed, the words
placed of it, and the block that it placed last (R261, R262). -/
structure BusBind where
  raw : BitVec 256
  count : Nat := 0
  sending : Bool := false
  part : List Byte := []
  placed : List Byte := []
deriving DecidableEq, Repr

/-- The core router (R248 to R281). busRows are the rows that it has read for its bus blocks, by address (R262). out are the packets
that it has accepted and that have not reached their ends; toSend those of them that wait at the local input, localIn the
unscheduled ones there, and localBusy the beat until which a scheduled packet holds the local port. local_ and memPort are what the
local port and the memory port have been given (R251), lost the unscheduled packets that were discarded (R254). turn and lastFlow are
what each output served last (R258, R275), and flows the beat from which a flow may send again, by destination (R258). -/
structure Router where
  links : List (Nat × MeshLink) := []
  courses : List (Nat × Course) := []
  tallies : List (Nat × Tally) := []
  buses : List (Nat × BusBind) := []
  busRows : List (Nat × List Byte) := []
  out : List OutPkt := []
  toSend : List OutPkt := []
  localIn : List Pkt := []
  localBusy : Nat := 0
  local_ : List Pkt := []
  memPort : List Pkt := []
  lost : List Pkt := []
  turn : List (Nat × Nat) := []
  lastFlow : List (Nat × Nat) := []
  flows : List (Nat × Nat) := []
  waferHeld : BitVec 64 := 0
  order : BitVec 64 := 0
  errCode : BitVec 12 := 0
  errPort : BitVec 3 := 0
  errDest : BitVec 24 := 0
deriving DecidableEq, Repr

/-- A core's synchronisation snapshot (R276). -/
structure Snap where
  courses : List (Nat × Course)
  tallies : List (Nat × Tally)
  eps : List (BitVec 29)
  counters : List (Nat × BitVec 16)
  preds : Byte
  epoch : BitVec 2
  beat : Word
  layer : Byte
deriving DecidableEq, Repr

/-- The limit and mapping-error registers (R293, R296). -/
structure Limit where
  sections : Byte := 0xFF
  tiles : BitVec 4 := 8
  slots : BitVec 4 := 8
  depth : BitVec 5 := 0x10
  sendEp : BitVec 5 := 0x10
  recvEp : BitVec 5 := 0x10
  pend : Option Word := none
  errCode : BitVec 12 := 0
  errResource : BitVec 3 := 0
  errLayer : Byte := 0
  errValue : Byte := 0
deriving DecidableEq, Repr

/-- The health registers of a core and when it was last tested (R389, R400, R409). -/
structure Health where
  observed : Bool := false
  moved : Bool := false
  testDue : Bool := false
  obsLeft : BitVec 32 := 0
  lastEvent : Code := 0
  lastTest : Nat := 0
deriving DecidableEq, Repr

/-- The state of one logical core. control is the SHA-256 digest of the core firmware image in its sequencer control store, which lies
outside core memory, once it has received and checked one (R370). -/
structure Core where
  tensor : Tensor := {}
  arith : Arith := {}
  vec : VEng := {}
  mem : CoreMem := {}
  pace : Pace := {}
  flow : Flow := {}
  dma : Dma := {}
  router : Router := {}
  snap : Option Snap := none
  snapLost : Bool := false
  limit : Limit := {}
  health : Health := {}
  groups : Word := 0
  control : Option (BitVec 256) := none
deriving DecidableEq, Repr

end Sys2Proof.Machine
end

