-- ==== Sys2Proof/Machine/Flags.lean ====
section
/-!
DEFINITION. Saturating counters (R11), fault codes (R15, R16), the faults a core raises and how it records
them in its registers (R99, R159, R187, R219, R246, R281), and the arithmetic status flags (R100).
-/

namespace Sys2Proof.Machine

/-- Adds n to a counter that holds at its maximum and then sets its saturation flag (R11). -/
def satAdd {w : Nat} (c : BitVec w) (sat : Bool) (n : Nat) : BitVec w × Bool :=
  if c.toNat + n ≥ 2 ^ w - 1 then (BitVec.allOnes w, sat || decide (0 < n)) else (BitVec.ofNat w (c.toNat + n), sat)

/-- A fault code of a class (R15). -/
def mkCode (cls code : Nat) : Code := BitVec.ofNat 16 (cls * 4096 + code)

/-- Class LINK (Table 0.4). -/
def linkCode (n : Nat) : Code := mkCode 1 n
/-- Class MEM (Table 0.4). -/
def memCode (n : Nat) : Code := mkCode 2 n
/-- Class CORE (Table 0.4). -/
def coreCode (n : Nat) : Code := mkCode 3 n
/-- Class CHECK (Table 0.4). -/
def checkCode (n : Nat) : Code := mkCode 4 n
/-- Class SYNC (Table 0.4). -/
def syncCode (n : Nat) : Code := mkCode 5 n
/-- Class MAP (Table 0.4). -/
def mapCode (n : Nat) : Code := mkCode 6 n
/-- Class STEP (Table 0.4). -/
def stepCode (n : Nat) : Code := mkCode 7 n
/-- Class PACE (Table 0.4). -/
def paceCode (n : Nat) : Code := mkCode 8 n
/-- Class POWER (Table 0.4). -/
def powerCode (n : Nat) : Code := mkCode 9 n
/-- Class THERMAL (Table 0.4). -/
def thermalCode (n : Nat) : Code := mkCode 10 n
/-- Class FLOW (Table 0.4). -/
def flowCode (n : Nat) : Code := mkCode 11 n
/-- Class SECURITY (Table 0.4). -/
def securityCode (n : Nat) : Code := mkCode 12 n

/-- A fault that a core finds, with what its registers record of it. -/
inductive CoreFault where
  | check (code tile lane : Nat) (path : Bool)
  | mem (code unit addr : Nat)
  | sync (code : Nat) (recv : Bool) (ep seq : Nat)
  | dma (fault : Code) (slot desc panel kind : Nat)
  | link (code port dest : Nat)
  | pace (code : Nat)
  | core (code : Nat)
deriving DecidableEq, Repr

/-- The 16-bit code of a core's fault (R15). -/
def CoreFault.code : CoreFault → Code
  | .check c _ _ _ => checkCode c
  | .mem c _ _ => memCode c
  | .sync c _ _ _ => syncCode c
  | .dma f _ _ _ _ => f
  | .link c _ _ => linkCode c
  | .pace c => paceCode c
  | .core c => coreCode c

/-- An event of class MAP other than MAP:0x001 at a core: CORE_MAP_ERR holds its code alone (R296). -/
def Core.mapEvent (c : Core) (code : Nat) : Core :=
  { c with limit := { c.limit with errCode := BitVec.ofNat 12 code, errResource := 0, errLayer := 0, errValue := 0 } }
/-- Records a fault in the registers of its class: CORE_CHECK (R99), CORE_MEM_ERR (R159), CORE_FLOW_ERR
(R213, R219), CORE_DMA_ERR (R246), CORE_MAP_ERR (R296), CORE_RT_ERR (R281); draining is DURING_DRAIN. The staging buffer's parity is recorded by the
DMA engine too, and a late step whose first late arrival came from bonded memory (Table 8.5); after CORE:0x003 the control store holds no firmware that can be relied on
(R386). -/
def Core.record (c : Core) (draining : Bool) : CoreFault → Core
  | .check code tile lane path =>
    { c with arith := { c.arith with chkCode := BitVec.ofNat 12 code, chkLane := BitVec.ofNat 8 lane,
                                     chkTile := BitVec.ofNat 3 tile, chkPath := path } }
  | .mem code unit addr =>
    let bad := if code = 2 then c.mem.entryBad ||| BitVec.ofNat 8 (2 ^ (addr / 12288)) else c.mem.entryBad
    let d := if code = 8 then { c.dma with errFault := memCode 8, errSlot := 0, errDesc := 0, errPanel := 0, errKind := 3 } else c.dma
    { c with mem := { c.mem with errCode := BitVec.ofNat 12 code, errUnit := BitVec.ofNat 4 unit,
                                 errAddr := BitVec.ofNat 17 addr, entryBad := bad }, dma := d }
  | .sync code recv ep seq =>
    { c with flow := { c.flow with errCode := BitVec.ofNat 12 code, errDir := recv, errEp := BitVec.ofNat 4 ep,
                                   errSeq := BitVec.ofNat 16 seq, errBeat := c.pace.beat, errDrain := draining } }
  | .dma fault slot desc panel kind =>
    let d := if fault.toNat / 4096 = 6 then c.mapEvent fault.toNat else c
    { d with dma := { d.dma with errFault := fault, errSlot := BitVec.ofNat 3 slot, errDesc := BitVec.ofNat 9 desc,
                                 errPanel := BitVec.ofNat 16 panel, errKind := BitVec.ofNat 3 kind } }
  | .link code port dest =>
    { c with router := { c.router with errCode := BitVec.ofNat 12 code, errPort := BitVec.ofNat 3 port,
                                       errDest := BitVec.ofNat 24 dest } }
  | .pace code =>
    if c.pace.cause = 4 ∧ code ≤ 2 then
      { c with dma := { c.dma with errFault := paceCode code, errSlot := 0, errDesc := 0, errPanel := 0, errKind := 0 } }
    else c
  | .core code => if code = 3 then { c with control := none } else c

/-- What a store check's error is reported as (Table 6.1, Table 6.7): code, unit and address; in the core
memory an error in an ENTRY section has a code of its own (R169). -/
def storeFault (c : Core) (h : StoreHit) : CoreFault :=
  let a := h.addr.toNat
  match h.unit with
  | .coreMem => .mem (if bit c.mem.entry (a / 12288) then 2 else 1) 0 a
  | .aBuf => .mem 5 1 a
  | .bBuf => .mem 5 2 a
  | .scaleStore => .mem 5 3 a
  | .accFile => .mem 6 4 a
  | .sideStore => .mem 6 5 a
  | .vrf => .mem 7 6 a
  | .staging => .mem 8 7 a

/-- Sets flags of CORE_ARITH_STATUS (Table 3.9). -/
def Arith.flag (a : Arith) (n : Nat) (on : Bool) : Arith :=
  if on then { a with status := a.status ||| BitVec.ofNat 9 (2 ^ n) } else a

/-- Sets the conversion flags of CORE_ARITH_STATUS (Table 3.9). -/
def Arith.convFlags (a : Arith) (f : ConvFlags) : Arith :=
  (((a.flag 5 f.ovf).flag 6 f.undf).flag 7 f.invalid).flag 8 f.inexact

/-- The flags that a stored accumulation sets: ACC_OVF, ACC_NAN, ACC_INF (R100). -/
def Arith.accFlags (a : Arith) (path16 : Bool) (l : Lane) : Arith :=
  if path16 then
    let (n, i) := match numOfF32 l.f32 with
      | .nan => (true, false)
      | .inf _ => (false, true)
      | _ => (false, false)
    ((a.flag 0 (i && l.st &&& stOvf != 0)).flag 1 n).flag 2 i
  else
    ((a.flag 0 l.tested.2).flag 1 (l.st &&& stNan != 0)).flag 2 (l.st &&& (stPosInf ||| stNegInf) != 0)

end Sys2Proof.Machine
end

