-- ==== Sys2Proof/Machine/Operands.lean ====
section
/-!
DEFINITION. The operand forms of the engines: rows and lines of core memory with their checks (R160 to R164,
R222), packed elements (R74), the forms of an A operand (R105, R238), and the rules of Tables 4.1 to 4.4.
-/

namespace Sys2Proof.Machine

/-- The 64 bytes of a line (R160). -/
def CoreMem.lineBytes (m : CoreMem) (line : Nat) : List Byte := Mem.read m.bytes (64 * line) 64

/-- The section that a byte address lies in (R160). -/
def sectionOf (addr : Nat) : Nat := addr / 12288

/-- Whether a section is on (R166). -/
def CoreMem.isOn (m : CoreMem) (sec : Nat) : Bool := decide (sec < 8) && bit m.on sec

/-- Why a line cannot be read: 3 when its state bit is 0 or its section is not on, 1 or 2 when its stored
check does not match (R163, R164, R169). -/
def CoreMem.lineFault (m : CoreMem) (line : Nat) : Option CoreFault :=
  let sec := sectionOf (64 * line)
  if !(m.isOn sec && m.lineSet.getLsbD line) then some (.mem 3 0 (64 * line))
  else if Map.get 0 m.checks line = lineCheck line (m.lineBytes line) then none
  else some (.mem (if bit m.entry sec then 2 else 1) 0 (64 * line))

/-- Whether a byte of core memory is held in the staging buffer (R222). -/
def Dma.isStaged (d : Dma) (a : Nat) : Bool := d.staged.any (fun e => e.1 == a)

/-- The first fault on the lines whose bytes a .. a + n - 1 are not all served from the staging buffer. -/
def Core.linesFault (c : Core) (a n : Nat) : Option CoreFault :=
  (List.range ((a + n - 1) / 64 + 1 - a / 64)).findSome? (fun i =>
    let line := a / 64 + i
    let lo := max a (64 * line)
    let hi := min (a + n) (64 * line + 64)
    if (List.range (hi - lo)).all (fun j => c.dma.isStaged (lo + j)) then none else c.mem.lineFault line)

/-- A byte as an engine reads it: from the staging buffer when it is held there (R222). -/
def Core.byteAt (c : Core) (a : Nat) : Byte :=
  match c.dma.staged.find? (fun e => e.1 == a) with
  | some e => e.2
  | none => Mem.get c.mem.bytes a

/-- n bytes of core memory as an engine reads them, or the fault of the first bad line (R163, R164). -/
def Core.readMem (c : Core) (a n : Nat) : Except CoreFault (List Byte) :=
  if n = 0 then .ok []
  else match c.linesFault a n with
    | some f => .error f
    | none => .ok ((List.range n).map (fun i => c.byteAt (a + i)))

/-- Writes one whole line with its check and sets its state bit, where its section is on (R162 to R164, R166). -/
def CoreMem.writeLine (m : CoreMem) (line : Nat) (data : List Byte) : CoreMem :=
  if m.isOn (sectionOf (64 * line)) then
    { m with bytes := Mem.write m.bytes (64 * line) data,
             lineSet := m.lineSet ||| BitVec.ofNat 1536 (2 ^ line),
             checks := Map.set m.checks line (lineCheck line data) }
  else m

/-- Writes consecutive whole lines; the data is a multiple of 64 B (R162). -/
def CoreMem.writeLines (m : CoreMem) (line : Nat) (data : List Byte) : Nat → CoreMem
  | 0 => m
  | n + 1 => (m.writeLine line (data.take 64)).writeLines (line + 1) (data.drop 64) n

/-- Leaves out of the staging buffer the bytes of lines that are now written by another owner. -/
def Dma.unstage (d : Dma) (a n : Nat) : Dma :=
  { d with staged := d.staged.filter (fun e => !(decide (a ≤ e.1) && decide (e.1 < a + n))) }

/-- An engine's write of whole lines from a line-aligned address on (R162). -/
def Core.writeMem (c : Core) (a : Nat) (data : List Byte) : Core :=
  let n := data.length / 64
  { c with mem := c.mem.writeLines (a / 64) data n, dma := c.dma.unstage a (64 * n) }

/-- Element i, w bits wide, of a packed area that starts at byte base of a number (R74). -/
def eltAt (x : Nat) (base w i : Nat) : Nat := x / 2 ^ (8 * base + w * i) % 2 ^ w

/-- Packs elements of w bits, the first lowest, as a number (R74). -/
def packNat (w : Nat) : List Nat → Nat
  | [] => 0
  | x :: xs => x + 2 ^ w * packNat w xs

/-- Packs elements of w bits into bytes, the last byte filled with zero bits (R74). -/
def packElems (w : Nat) (xs : List Nat) : List Byte := toBytes ((xs.length * w + 7) / 8) (packNat w xs)

/-- Bytes of n elements of a format, rounded up. -/
def elemBytes (fmt n : Nat) : Nat := (n * fmtBits fmt + 7) / 8

/-- Tile group rows TR (Table 4.1). -/
def cmdTr (c : TCmd) : Nat := 2 ^ c.trLog2.toNat
/-- Tile group columns TC (Table 4.1). -/
def cmdTc (c : TCmd) : Nat := 2 ^ c.tcLog2.toNat
/-- The selected tiles in increasing order (Table 4.1). -/
def cmdSel (c : TCmd) : List Nat := (List.range 8).filter (fun t => bit c.tiles t)
/-- Blocks of 32 along k (R110). -/
def cmdKBlocks (c : TCmd) : Nat := ceilDiv c.kc.toNat 32
/-- The buffer half as a number (Table 4.1). -/
def cmdHalf (c : TCmd) : Nat := if c.half then 1 else 0

/-- The metadata bytes of a compressed panel of r rows, read from its data region x (Table 8.3); n and N of B16
and RUBBLE are read from the bitmaps and row headers. -/
def panelMeta (sparse r kc x : Nat) : Nat :=
  match sparse with
  | 1 => r * kc / 8
  | 2 => r * kc / 16
  | 3 => 8 * (r / 16)
  | 4 => 2 * r + ((List.range r).map (fun i => eltAt x 0 16 i % 1024)).sum
  | _ => 0

/-- The elements that a compressed panel holds: entries in order (Table 8.3). -/
def panelCount (sparse r kc x : Nat) : Nat :=
  match sparse with
  | 1 => r * (kc / 2)
  | 2 => r * (kc / 4)
  | 3 => 256 * ((List.range (r / 16)).map (fun i =>
      ((List.range 64).filter (fun b => eltAt x 0 64 i / 2 ^ b % 2 == 1)).length)).sum
  | 4 => ((List.range r).map (fun i => eltAt x 0 16 i % 1024)).sum
  | _ => r * kc

/-- Bytes of the data region before padding (Table 8.3). -/
def panelDataBytes (sparse fmt r kc x : Nat) : Nat :=
  panelMeta sparse r kc x + elemBytes fmt (panelCount sparse r kc x)

/-- The running columns of RUBBLE deltas, the column before the first being -1 (R238). -/
def runCols : Int → List Nat → List Nat
  | _, [] => []
  | k, d :: ds => (k + Int.ofNat d).toNat :: runCols (k + Int.ofNat d) ds

/-- Row r of an A panel as (column k, element) pairs in increasing k: the elements a form holds (R104, R105, R238). -/
def aRow (sparse fmt rows kc x r : Nat) : List (Nat × Nat) :=
  let w := fmtBits fmt
  let m := panelMeta sparse rows kc x
  match sparse with
  | 0 => (List.range kc).map (fun k => (k, eltAt x 0 w (r * kc + k)))
  | 1 => (List.range (kc / 4)).flatMap (fun g =>
      let nib := eltAt x 0 4 (r * (kc / 4) + g)
      let v := r * (kc / 2) + 2 * g
      [(4 * g + nib % 4, eltAt x m w v), (4 * g + nib / 4, eltAt x m w (v + 1))])
  | 2 => (List.range (kc / 4)).map (fun g =>
      (4 * g + eltAt x 0 2 (r * (kc / 4) + g), eltAt x m w (r * (kc / 4) + g)))
  | 3 =>
    let kept (i : Nat) := (List.range 64).filter (fun b => eltAt x 0 64 i / 2 ^ b % 2 == 1)
    let before := ((List.range (r / 16)).map (fun i => (kept i).length)).sum
    (kept (r / 16)).zipIdx.flatMap (fun (kb, j) =>
      (List.range 16).map (fun e => (16 * kb + e, eltAt x m w (256 * (before + j) + 16 * (r % 16) + e))))
  | 4 =>
    let cnt (i : Nat) := eltAt x 0 16 i % 1024
    let before := ((List.range r).map cnt).sum
    let cols := runCols (-1) ((List.range (cnt r)).map (fun j => eltAt x (2 * rows) 8 (before + j)))
    cols.zipIdx.map (fun (k, j) => (k, eltAt x m w (before + j)))
  | _ => []

/-- Dense k per lane step, q of Table 4.3. -/
def mmaQ (fa fb : Nat) : Nat := if (fa == 0x9 || fa == 0xB) && (fb == 0x9 || fb == 0xB) then 2 else 1
/-- Beats per lane step, b of Table 4.3. -/
def mmaB (fa : Nat) : Nat := if isExactFmt fa then 1 else if fa = 0 then 6 else 2

/-- The beats of an MMA (Table 4.4); x is the data of the A half. -/
def mmaBeats (c : TCmd) (x : Nat) : Nat :=
  let q := mmaQ c.fmt.toNat c.fmtB.toNat
  let b := mmaB c.fmt.toNat
  let kc := c.kc.toNat
  match c.sparse.toNat with
  | 0 => cmdTr c * cmdTc c * (kc / q) * b
  | 1 | 2 => cmdTr c * cmdTc c * (kc / (2 * q)) * b
  | 3 => cmdTc c * b * ((List.range (cmdTr c)).map (fun i =>
      16 * ((List.range 64).filter (fun kb => eltAt x 0 64 i / 2 ^ kb % 2 == 1)).length / q)).sum
  | _ => cmdTc c * b * ((List.range (cmdTr c)).map (fun i =>
      ceilDiv (((List.range 16).map (fun r => eltAt x 0 16 (16 * i + r) % 1024)).foldl max 0) q)).sum

end Sys2Proof.Machine
end

