-- ==== Sys2Proof/Machine/DmaOps.lean ====
section
/-!
DEFINITION. The DMA engine of one core: stream descriptors and their visiting order (R226 to R228), tiles and
ring slots (R229), the staging buffer (R221 to R223), masks and compressed panels (R237 to R242), pre-scans (R233).
-/

namespace Sys2Proof.Machine

/-- A field of a stream descriptor (Table 8.2). -/
def dField (d : Desc) (hi lo : Nat) : Nat := bits d hi lo
/-- KIND (Table 8.2). -/
def dKind (d : Desc) : Nat := dField d 7 4
/-- FMT (Table 8.2). -/
def dFmt (d : Desc) : Nat := dField d 11 8
/-- SPARSE (Table 8.2). -/
def dSparse (d : Desc) : Nat := dField d 14 12
/-- The ring size P: PREFETCH, where 0 means 2 (Table 8.2). -/
def dRing (d : Desc) : Nat := if dField d 19 16 = 0 then 2 else dField d 19 16
/-- ENDPOINT (Table 8.2). -/
def dEndpoint (d : Desc) : Nat := dField d 23 20
/-- TSCALE (Table 8.2). -/
def dTscale (d : Desc) : Nat := dField d 31 24
/-- TILE_DIMS (Table 8.2). -/
def dTileDims (d : Desc) : Nat := dField d 34 32
/-- Slots between successive blocks (Table 8.2). -/
def dIssueSlots (d : Desc) : Nat := dField d 43 40 + 1
/-- Blocks per panel slot (Table 8.2). -/
def dSlotBlocks (d : Desc) : Nat := dField d 46 44 + 1
/-- GATEWAY (Table 8.2). -/
def dGateway (d : Desc) : Nat := dField d 55 48
/-- BASE (Table 8.2). -/
def dBase (d : Desc) : Nat := dField d 111 64
/-- Bytes per run (Table 8.2). -/
def dRun (d : Desc) : Nat := dField d 127 112 + 1
/-- Iterations of dimension i, 1 to 4 (Table 8.2). -/
def dCount (d : Desc) (i : Nat) : Nat := dField d (127 + 16 * i) (112 + 16 * i) + 1
/-- The signed byte stride of dimension i, 1 to 4 (Table 8.2). -/
def dStride (d : Desc) (i : Nat) : Int := signedOf 32 (dField d (191 + 32 * i) (160 + 32 * i))
/-- CORE_ADDR (Table 8.2). -/
def dCoreAddr (d : Desc) : Nat := dField d 336 320
/-- TAG (Table 8.2). -/
def dTag (d : Desc) : BitVec 32 := BitVec.ofNat 32 (dField d 383 352)
/-- MASK_BASE (Table 8.2). -/
def dMaskBase (d : Desc) : Nat := dField d 431 384
/-- Tile group rows of a PRESCAN (Table 8.2). -/
def dPsTr (d : Desc) : Nat := 2 ^ dField d 449 448
/-- Tile group columns of a PRESCAN (Table 8.2). -/
def dPsTc (d : Desc) : Nat := 2 ^ dField d 451 450

/-- Runs of one tile: the product of the counts of dimensions 1 to TILE_DIMS - 1 (R227). -/
def dTileRuns (d : Desc) : Nat :=
  ((List.range 4).map (fun i => if i + 1 < dTileDims d then dCount d (i + 1) else 1)).foldl (· * ·) 1
/-- All runs of the descriptor (R227). -/
def dRuns (d : Desc) : Nat := dCount d 1 * dCount d 2 * dCount d 3 * dCount d 4
/-- Tiles of the descriptor (R227). -/
def dTiles (d : Desc) : Nat := dRuns d / dTileRuns d
/-- Bytes of one tile (R227). -/
def dTileBytes (d : Desc) : Nat := dRun d * dTileRuns d

/-- Whether a stream takes one DTILE for each of its tiles (R224). -/
def takesTiles (d : Desc) : Bool := dKind d == 0 || dKind d == 1 || dKind d == 4 || dKind d == 5

/-- The address of run t relative to BASE, the innermost dimension first (R227). -/
def dOffset (d : Desc) (t : Nat) : Int :=
  let i1 := t % dCount d 1
  let t1 := t / dCount d 1
  let i2 := t1 % dCount d 2
  let t2 := t1 / dCount d 2
  let i3 := t2 % dCount d 3
  let i4 := t2 / dCount d 3
  Int.ofNat i1 * dStride d 1 + Int.ofNat i2 * dStride d 2 + Int.ofNat i3 * dStride d 3 + Int.ofNat i4 * dStride d 4

/-- Whether the descriptor's format keeps its scales inside the blocks (R228). -/
def dMx (d : Desc) : Bool := isMxFmt (dFmt d)
/-- Element bytes of a block (R228). -/
def blockUnit (d : Desc) : Nat := if dMx d then 480 else 512

/-- Where run t begins: an address in units of element bytes counted so that blocks begin at multiples of
blockUnit, and the bonded address of block 0 of that count (R228). -/
def dRunPos (d : Desc) (t : Nat) : Int × Nat :=
  if dMx d then (dOffset d t, dBase d) else (Int.ofNat (dBase d) + dOffset d t, 0)

/-- Blocks that run t touches (R230); a sparse panel's run is its whole slot (R239). -/
def dRunBlocks (d : Desc) (t : Nat) : Nat :=
  if dSparse d ≠ 0 then dSlotBlocks d
  else
    let u := Int.ofNat (blockUnit d)
    let (o, _) := dRunPos d t
    (((o + Int.ofNat (dRun d) - 1) / u) - o / u + 1).toNat

/-- Block i of run t: its bonded byte address, the part of the run it holds as offset and bytes, and where that
part lies in the block (R228, R230). -/
def dBlock (d : Desc) (t i : Nat) : Nat × Nat × Nat × Nat :=
  let u := Int.ofNat (blockUnit d)
  let (o, base) := dRunPos d t
  let b := o / u + Int.ofNat i
  let lo := max o (b * u)
  let hi := min (o + Int.ofNat (dRun d)) ((b + 1) * u)
  ((Int.ofNat base + b * 512).toNat, (lo - o).toNat, (hi - lo).toNat, (lo - b * u).toNat)

/-- Runs per tile as the engine counts them: one for a sparse panel, whose rows share one slot (R239). -/
def dRunsPerTile (d : Desc) : Nat := if dSparse d ≠ 0 then 1 else dTileRuns d
/-- Runs the engine visits. -/
def dVisits (d : Desc) : Nat := dTiles d * dRunsPerTile d
/-- Bonded byte address of block i of visit t (R230, R239). -/
def dBlockAddr (d : Desc) (t i : Nat) : Nat :=
  if dSparse d ≠ 0 then (Int.ofNat (dBase d) + dOffset d (t * dTileRuns d)).toNat + 512 * i else (dBlock d t i).1

/-- The cursor after one block (R230). -/
def Cursor.next (c : Cursor) (d : Desc) : Cursor :=
  if c.blk + 1 < dRunBlocks d c.run then { c with blk := c.blk + 1 } else { run := c.run + 1, blk := 0 }

/-- The tile a cursor stands in (R227). -/
def Cursor.tile (c : Cursor) (d : Desc) : Nat := c.run / dRunsPerTile d

/-- Bytes of the padded element part of a ring slot (R229). -/
def slotData (d : Desc) : Nat := roundUp (dTileBytes d) 128
/-- Elements of n bytes of the format. -/
def elemsOf (d : Desc) (n : Nat) : Nat := n * 8 / fmtBits (dFmt d)
/-- Scale bytes of one tile: one for each group of 32 elements of a scaled format (R229). -/
def slotScales (d : Desc) : Nat := if isExactFmt (dFmt d) then elemsOf d (dTileBytes d) / 32 else 0
/-- Bytes of one ring slot (R229). -/
def slotSize (d : Desc) : Nat :=
  if dSparse d ≠ 0 ∧ dKind d = 0 then dSlotBlocks d * 512 else slotData d + roundUp (slotScales d) 128
/-- Core-memory address of the ring slot of tile j (R229). -/
def slotAddr (d : Desc) (j : Nat) : Nat := dCoreAddr d + j % dRing d * slotSize d

/-- A memory with a byte string written over it, without leaving out zeros: the staging buffer and tiles being
assembled list every byte they hold. -/
def putBytes (m : List Host.Cell) (a : Nat) : List Byte → List Host.Cell
  | [] => m
  | b :: bs => putBytes (Map.set m a b) (a + 1) bs

/-- Whether every byte of a line is staged (R223). -/
def Dma.lineFull (d : Dma) (line : Nat) : Bool := (List.range 64).all (fun i => d.isStaged (64 * line + i))

/-- Gives a row its place in the order of R221: that of its last flit. A row that already holds a whole line keeps its own. -/
def Dma.place (d : Dma) (beat rank row : Nat) : Dma :=
  let due := d.lineFull (2 * row) || d.lineFull (2 * row + 1)
  if due && d.order.any (fun r => r.row == row) then d
  else { d with order := d.order.filter (fun r => r.row != row) ++ [⟨row, beat, rank⟩] }
/-- Bytes that arrive in the staging buffer at a beat, for a stream slot, a receive endpoint or a bus listener (R221, R222). -/
def Dma.stage (d : Dma) (beat rank a : Nat) (bs : List Byte) : Dma :=
  let rows := (List.range ((a + bs.length + 127) / 128 - a / 128)).map (fun i => a / 128 + i)
  let d' := rows.foldl (fun d r => d.place beat rank r) d
  { d' with staged := putBytes d'.staged a bs }

/-- Moves the whole staged lines of a row to core memory (R221, R223). -/
def Core.moveRow (c : Core) (row : Nat) : Core :=
  [2 * row, 2 * row + 1].foldl (fun c line =>
    if c.dma.lineFull line then c.writeMem (64 * line) ((List.range 64).map (fun i => c.byteAt (64 * line + i)))
    else c) c

/-- Whether a staged row goes before another: its last flit arrived earlier, or at the same beat for a lower rank (R221). -/
def RowPlace.before (a b : RowPlace) : Bool := Nat.blt a.beat b.beat || (a.beat == b.beat && Nat.blt a.rank b.rank)
/-- The staged row with a whole line that takes the turn (R221 item 3). -/
def Dma.dueRow (d : Dma) : Option Nat :=
  let due := d.order.filter (fun r => d.lineFull (2 * r.row) || d.lineFull (2 * r.row + 1))
  (due.foldl (fun (m : Option RowPlace) r => match m with
    | none => some r
    | some q => some (if r.before q then r else q)) none).map (·.row)
/-- The turn of the staged row that is due: its whole lines move, and it leaves the order with its last byte. -/
def Core.stagedTurn (c : Core) : Core :=
  match c.dma.dueRow with
  | none => c
  | some r =>
    let c' := c.moveRow r
    { c' with dma := { c'.dma with order := c'.dma.order.filter (fun q => q.row != r ||
        (List.range 128).any (fun i => c'.dma.isStaged (128 * r + i))) } }

/-- At the end of a layer the lines left in the staging buffer are written with zeros in the missing part (R223). -/
def Core.flushStaging (c : Core) : Core :=
  let c' := c.dma.order.foldl (fun c r => [2 * r.row, 2 * r.row + 1].foldl (fun c line =>
    if (List.range 64).any (fun i => c.dma.isStaged (64 * line + i)) then
      c.writeMem (64 * line) ((List.range 64).map (fun i =>
        if c.dma.isStaged (64 * line + i) then c.byteAt (64 * line + i) else 0))
    else c) c) c
  { c' with dma := { c'.dma with staged := [], order := [] } }

/-- The stream slot of a core. -/
def Core.slot (c : Core) (s : Nat) : DmaSlot := Map.get {} c.dma.slots s
/-- Whether a stream slot is busy (R224). -/
def Core.slotBusy (c : Core) (s : Nat) : Bool := c.dma.busy.getLsbD s
/-- Replaces a stream slot. -/
def Core.setSlot (c : Core) (s : Nat) (x : DmaSlot) : Core :=
  { c with dma := { c.dma with slots := Map.set c.dma.slots s x } }
/-- A tally pair that an EXT_IN stream has left has the program's BUFFERS again (R273). -/
def Tally.back (t : Tally) : Tally :=
  match t.own with
  | some b => { t with buffers := b, own := none }
  | none => t
/-- The EXT_IN stream of slot s, if any, leaves tally pair s (R273). -/
def Core.leaveTally (c : Core) (s : Nat) : Core :=
  if (Map.find? c.router.tallies s).isSome then
    { c with router := { c.router with tallies := Map.upd {} c.router.tallies s Tally.back } }
  else c
/-- Frees a stream slot whose stream has finished (R224). -/
def Core.freeSlot (c : Core) (s : Nat) : Core :=
  { c with dma := { c.dma with busy := c.dma.busy &&& ~~~(BitVec.ofNat 8 (2 ^ s)), slots := Map.erase c.dma.slots s } }
/-- Adds to BLOCKS_RD (R247). -/
def Dma.countRd (d : Dma) : Dma := { d with blocksRd := (satAdd d.blocksRd d.rdSat 1).1, rdSat := (satAdd d.blocksRd d.rdSat 1).2 }
/-- Adds to BLOCKS_WR (R247). -/
def Dma.countWr (d : Dma) : Dma := { d with blocksWr := (satAdd d.blocksWr d.wrSat 1).1, wrSat := (satAdd d.blocksWr d.wrSat 1).2 }
/-- Adds to PANELS_COMP or PANELS_FALLBACK (R247). -/
def Dma.countPanel (d : Dma) (fallback : Bool) : Dma :=
  if fallback then { d with panelsFb := (satAdd d.panelsFb d.fbSat 1).1, fbSat := (satAdd d.panelsFb d.fbSat 1).2 }
  else { d with panelsComp := (satAdd d.panelsComp d.compSat 1).1, compSat := (satAdd d.panelsComp d.compSat 1).2 }

/-- The tiles of a slot's streams that no DTILE has acted on yet, oldest first (R224). -/
def DmaSlot.unacted (x : DmaSlot) : List (Desc × Nat) :=
  x.owed ++ (if !x.fetching && x.desc != 0 && takesTiles x.desc then List.replicate (dTiles x.desc - x.released.length) (x.desc, x.baseSeq) else [])
/-- A DSTART takes a slot: it is busy from now on, and the tiles of the streams before are still owed their DTILEs (R224). -/
def Core.takeSlot (c : Core) (s idx beat : Nat) : Core :=
  let c1 := c.setSlot s { index := idx, start := beat, fetching := true, owed := (c.slot s).unacted }
  { c1 with dma := { c1.dma with busy := c1.dma.busy ||| BitVec.ofNat 8 (2 ^ s) } }
/-- Starts the stream of a taken slot at a beat (R224, R232, R233). A SEND stream is attached to its endpoint, and an EXT_IN sets
BUFFERS of the slot's tally pair (R273). -/
def Core.startStream (c : Core) (s beat : Nat) (d pair : Desc) : Core :=
  let c1 := c.setSlot s { c.slot s with desc := d, pairDesc := pair, start := beat, fetching := false }
  let c2 := if dKind d = 2 then
      let e := Map.get {} c1.flow.send (dEndpoint d)
      let e' : SendEp := { e with stream := some s, sentBytes := 0 }
      { c1 with flow := { c1.flow with send := Map.set c1.flow.send (dEndpoint d) e' } }
    else c1
  if dKind d = 4 then
    let t := Map.get {} c2.router.tallies s
    let t' : Tally := { t with buffers := BitVec.ofNat 9 (dRing d), own := some (t.own.getD t.buffers) }
    { c2 with router := { c2.router with tallies := Map.set c2.router.tallies s t' } }
  else c2

/-- A held descriptor of burst b, made the more recently used (R225). -/
def Dma.held (d : Dma) (idx : Nat) : Option (Desc × Desc × Dma) :=
  match d.bursts.find? (fun b => b.1 == idx / 8) with
  | some b => some (b.2.getD (idx % 8) 0, b.2.getD (idx % 8 + 1) 0,
      { d with bursts := b :: d.bursts.filter (fun x => x.1 != idx / 8) })
  | none => none

/-- DSTART: starts at once from a held burst, otherwise after the burst's fetch of 4 turns (R224, R225). -/
def Core.dstart (c : Core) (s idx beat : Nat) : Core :=
  if c.slotBusy s then c
  else
    let c1 := c.takeSlot s idx beat
    match c1.dma.held idx with
    | some (d, p, dma) => ({ c1 with dma := dma }).startStream s beat d p
    | none => { c1 with dma := { c1.dma with fetch := c1.dma.fetch ++ [⟨idx / 8, 4, s, idx⟩] } }

/-- One turn of a burst fetch; at the fourth the burst is read, takes the place of the less recently used one,
and the stream starts at the next beat (R225). A DTILE that has already acted on a tile of an EXT_IN came before the tile
(R273). -/
def Core.fetchTurn (c : Core) (listAddr beat : Nat) (f : BurstFetch) (rest : List BurstFetch) : Core × Option CoreFault :=
  if 1 < f.turns then
    let f' : BurstFetch := { f with turns := f.turns - 1 }
    ({ c with dma := { c.dma with fetch := f' :: rest } }, none)
  else match c.readMem (listAddr + 512 * f.burst) 512 with
    | .error e => ({ c with dma := { c.dma with fetch := rest } }, some e)
    | .ok bs =>
      let ds := (List.range 8).map (fun i => BitVec.ofNat 512 (ofBytes (sliceBytes bs (64 * i) 64)))
      let dma := { c.dma with fetch := rest, bursts := ((f.burst, ds) :: c.dma.bursts).take 2 }
      let d := ds.getD (f.index % 8) 0
      (({ c with dma := dma }).startStream f.slot (beat + 1) d (ds.getD (f.index % 8 + 1) 0),
       if dKind d = 4 ∧ (c.slot f.slot).released ≠ [] then some (.sync 0x11 false 0 0) else none)

/-- The beat from which a block of tile j may issue, or none while the DTILE it needs is missing (R230). -/
def DmaSlot.gate (x : DmaSlot) (j : Nat) : Option Nat :=
  match dKind x.desc with
  | 0 | 4 =>
    if j < dRing x.desc then some x.start
    else if x.released.length ≤ j - dRing x.desc then none
    else some (x.released.getD (j - dRing x.desc) 0)
  | 1 | 5 => if x.released.length ≤ j then none else some (x.released.getD j 0)
  | _ => some x.start

/-- Whether a descriptor is an EXT stream at an optical gateway (R234). -/
def dOptical (d : Desc) : Bool := (dKind d == 4 || dKind d == 5) && Nat.blt (dGateway d) 64
/-- A descriptor with BASE left out: the blocks of an optical EXT stream count from its own start (R234, R317). -/
def dLocal (d : Desc) : Desc := d &&& ~~~(BitVec.ofNat 512 ((2 ^ 48 - 1) * 2 ^ 64))
/-- The descriptor that a half of a slot visits: the B half is the second of a PRESCAN pair, which starts together with the
first (R233). -/
def DmaSlot.cur (x : DmaSlot) (half : Bool) : Desc :=
  if half then x.pairDesc else if dOptical x.desc then dLocal x.desc else x.desc
/-- The next block of a half. -/
def DmaSlot.next (x : DmaSlot) (half : Bool) : Cursor := if half then x.issueB else x.issue
/-- The blocks that a half has issued. -/
def DmaSlot.count (x : DmaSlot) (half : Bool) : Nat := if half then x.issuedB else x.issued
/-- What the runs of a pre-scan's second half are numbered from in the requests of its slot. -/
def secondRun : Nat := 4294967296

/-- Whether a half of a stream has blocks left to issue (R230); a pre-scan of a tensor-scaled format reads none (R233). -/
def DmaSlot.more (x : DmaSlot) (half : Bool) : Bool :=
  decide ((x.next half).run < dVisits (x.cur half)) && (if dKind x.desc = 3 then dMx (x.cur half) else !half)

/-- Whether the next block of a half may issue at a beat (R230). -/
def DmaSlot.mayIssue (x : DmaSlot) (half : Bool) (beat : Nat) : Bool :=
  !x.fetching && x.more half && decide (x.start + 4 * dIssueSlots (x.cur half) * x.count half ≤ beat) &&
  (match x.gate ((x.next half).tile (x.cur half)) with
    | some g => decide (g ≤ beat)
    | none => false)
/-- The half whose block issues at a beat: the first where it may. -/
def DmaSlot.half (x : DmaSlot) (beat : Nat) : Bool := !x.mayIssue false beat && x.mayIssue true beat

/-- Moves the issue cursor of a half past a block (R230, R233). -/
def DmaSlot.advance (x : DmaSlot) (half : Bool) : DmaSlot :=
  let i := (x.next half).next (x.cur half)
  if half then { x with issueB := i, issuedB := x.issuedB + 1 } else { x with issue := i, issued := x.issued + 1 }

/-- The scale bytes of the groups that bytes a to a + n - 1 of a block's elements touch (R228). -/
def blockScales (d : Desc) (block : List Byte) (a n : Nat) : List Byte :=
  let g := 4 * fmtBits (dFmt d)
  (List.range ((a + n + g - 1) / g - a / g)).map (fun i => block.getD (480 + a / g + i) 0)

/-- Elements of a tile transposed: element e of iteration i1 goes to position e × COUNT1 + i1 (R229). -/
def transposeElems (rows cols : Nat) (xs : List Nat) : List Nat :=
  (List.range cols).flatMap (fun e => (List.range rows).map (fun i => xs.getD (i * cols + e) 0))

/-- The elements of w bits that a byte string holds. -/
def unpackElems (w : Nat) (bs : List Byte) : List Nat :=
  let x := ofBytes bs
  (List.range (bs.length * 8 / w)).map (fun i => eltAt x 0 w i)

/-- What an arriving READ block puts into the tile being assembled: its elements at their place in visiting order
and its scales behind them (R228, R229). -/
def readPlace (d : Desc) (cur : Cursor) (block : List Byte) : List (Nat × List Byte) :=
  if dSparse d ≠ 0 then [(512 * cur.blk, block)]
  else
    let (_, off, n, inBlk) := dBlock d cur.run cur.blk
    let at_ := cur.run % dTileRuns d * dRun d + off
    let elems := (at_, sliceBytes block inBlk n)
    if dMx d then
      let g := 4 * fmtBits (dFmt d)
      [elems, (slotData d + at_ / g, blockScales d block inBlk n)]
    else [elems]

/-- The whole content of a ring slot from an assembled tile (R229): padding zeros, tensor scales, transposition. -/
def slotContent (d : Desc) (asm : List Host.Cell) : List Byte :=
  let raw := (List.range (slotSize d)).map (fun i => Map.get 0 asm i)
  if dSparse d ≠ 0 then raw
  else
    let tile := raw.take (dTileBytes d)
    let scales := if dMx d then (raw.drop (slotData d)).take (slotScales d)
      else List.replicate (slotScales d) (BitVec.ofNat 8 (dTscale d))
    let rows := dCount d 1
    let cols := elemsOf d (dRun d)
    let tr := bit d 35
    let tile' := if tr then packElems (fmtBits (dFmt d)) (transposeElems rows cols (unpackElems (fmtBits (dFmt d)) tile)) else tile
    let sc' := if tr then (transposeElems rows (cols / 32) (scales.map (·.toNat))).map (BitVec.ofNat 8) else scales
    padTo (slotData d) tile' ++ padTo (roundUp (slotScales d) 128) sc'

/-- Blocks of one visit group, a tile, that have been delivered make it complete when all its visits are done. -/
def tileBlocks (d : Desc) (j : Nat) : Nat :=
  ((List.range (dRunsPerTile d)).map (fun i => dRunBlocks d (j * dRunsPerTile d + i))).sum

/-- Takes a delivered READ or EXT_IN block: a plain tile is staged block by block, a transposed one when it is
complete; padding and tensor scales follow with the tile's last block (R222, R229). -/
def Core.takeRead (c : Core) (s beat : Nat) (x : DmaSlot) (cur : Cursor) (block : List Byte) : Core :=
  let d := x.desc
  let j := cur.tile d
  let asm := (readPlace d cur block).foldl (fun m p => putBytes m (j % dRing d * slotSize d + p.1) p.2) x.asm
  let base := j % dRing d * slotSize d
  let inTile (e : Host.Cell) : Bool := decide (base ≤ e.1) && decide (e.1 < base + slotSize d)
  let have_ := (asm.filter inTile).map (fun e => (e.1 - base, e.2))
  let need := if dSparse d ≠ 0 then slotSize d else dTileBytes d + (if dMx d then slotScales d else 0)
  let full := decide (need ≤ have_.length)
  let dma1 := if bit d 35 then c.dma else (readPlace d cur block).foldl (fun m p => m.stage beat s (slotAddr d j + p.1) p.2) c.dma
  let dma2 := if full then dma1.stage beat s (slotAddr d j) (slotContent d have_) else dma1
  let asm' := if full then asm.filter (fun e => !inTile e) else asm
  ({ c with dma := dma2 }).setSlot s { x with asm := asm', done := x.done + 1, got := x.got ++ [cur], usable := if full then x.usable + 1 else x.usable }

/-- The blocks of tile j. -/
def tileCursors (d : Desc) (j : Nat) : List Cursor :=
  (List.range (dRunsPerTile d)).flatMap (fun i =>
    (List.range (dRunBlocks d (j * dRunsPerTile d + i))).map (fun b => { run := j * dRunsPerTile d + i, blk := b }))
/-- Where the bytes lie that a ring slot still lacks of tile j: address and bytes (R222, R229). A transposed tile is there when it
is complete, and so are the tensor scales. -/
def DmaSlot.lacks (x : DmaSlot) (j : Nat) : List (Nat × Nat) :=
  let d := x.cur false
  let a := slotAddr d j
  match (tileCursors d j).filter (fun cur => !x.got.contains cur) with
  | [] => []
  | cs =>
    if bit d 35 then [(a, slotSize d)]
    else cs.flatMap (fun cur =>
      if dSparse d ≠ 0 then [(a + 512 * cur.blk, 512)]
      else
        let (_, off, n, inBlk) := dBlock d cur.run cur.blk
        let at_ := cur.run % dTileRuns d * dRun d + off
        (a + at_, n) :: (if dMx d then [(a + slotData d + at_ / (4 * fmtBits (dFmt d)), (blockScales d [] inBlk n).length)] else [])) ++
      (if dMx d || dSparse d ≠ 0 then [] else [(a + slotData d, slotScales d)])

/-- The tag of a panel (Table 8.4). -/
def panelTag (form bytes p : Nat) : BitVec 32 := BitVec.ofNat 32 (form + bytes / 16 * 16 + p % 65536 * 65536)

/-- Whether the tag of a sparse READ's block is the stored-layout fault of R242; seen is the tag of another block of the panel's
slot. -/
def badPanelTag (d : Desc) (p : Nat) (tag : BitVec 32) (seen : Option (BitVec 32)) : Bool :=
  let form := bits tag 3 0
  !(form == dSparse d || form == 0xF) || decide (dSlotBlocks d * 512 < bits tag 15 4 * 16) ||
    bits tag 31 16 != p % 65536 || (match seen with
      | some t => t != tag
      | none => false)

/-- Rows of a sparse panel and its reduction extent (R239). -/
def panelShape (d : Desc) : Nat × Nat := (dCount d 1, elemsOf d (dRun d))

/-- Mask blocks of one panel (R237). -/
def maskBlocks (d : Desc) : Nat :=
  let (r, kc) := panelShape d
  if dSparse d = 3 then 1 else ceilDiv (r * kc) 4096

/-- Whether a mask keeps an element (R237). -/
def maskKeeps (sparse kc mask r k : Nat) : Bool :=
  if sparse = 3 then mask / 2 ^ (r / 16 * 64 + k / 16) % 2 == 1 else mask / 2 ^ (r * kc + k) % 2 == 1

/-- The positions of a group of 4 that S24 or S14 holds: the kept ones, filled up at the lowest not kept (R238). -/
def groupHeld (n : Nat) (kept : List Bool) : List Nat :=
  let idx := [0, 1, 2, 3]
  let ks := idx.filter (fun i => kept.getD i false)
  let fill := idx.filter (fun i => !kept.getD i false)
  let all := ks ++ fill.take (n - ks.length)
  idx.filter (fun i => all.contains i)

/-- The entries of a RUBBLE row: (delta, kept) with fillers of delta 255 (R238); f bounds the fillers. -/
def rubbleRow : Nat → Int → List Nat → List (Nat × Option Nat)
  | 0, _, _ => []
  | _ + 1, _, [] => []
  | f + 1, prev, k :: ks =>
    if Int.ofNat k - prev ≤ 255 then ((Int.ofNat k - prev).toNat, some k) :: rubbleRow f (Int.ofNat k) ks
    else (255, none) :: rubbleRow f (prev + 255) (k :: ks)

/-- The data region of a compressed panel before padding, and its kept values in order (R238); elt gives the
dense element of row r and column k. -/
def compressData (d : Desc) (mask : Nat) (elt : Nat → Nat → Nat) : List Byte × List Nat :=
  let (rows, kc) := panelShape d
  let sp := dSparse d
  let w := fmtBits (dFmt d)
  let keeps (r k : Nat) := maskKeeps sp kc mask r k
  let rs := List.range rows
  match sp with
  | 1 | 2 =>
    let n := if sp = 1 then 2 else 1
    let gs := rs.flatMap (fun r => (List.range (kc / 4)).map (fun g =>
      let kept := (List.range 4).map (fun i => keeps r (4 * g + i))
      (groupHeld n kept).map (fun i => (i, if kept.getD i false then elt r (4 * g + i) else 0))))
    let md := if sp = 1 then packElems 4 (gs.map (fun g => (g.getD 0 (0, 0)).1 + 4 * (g.getD 1 (0, 0)).1))
      else packElems 2 (gs.map (fun g => (g.getD 0 (0, 0)).1))
    let vals := gs.flatMap (fun g => g.map (·.2))
    (md ++ packElems w vals, vals)
  | 3 =>
    let kept (i : Nat) := (List.range 64).filter (fun kb => mask / 2 ^ (64 * i + kb) % 2 == 1)
    let tr := rows / 16
    let md := (List.range tr).flatMap (fun i => toBytes 8 ((kept i).map (fun kb => 2 ^ kb)).sum)
    let vals := (List.range tr).flatMap (fun i => (kept i).flatMap (fun kb =>
      (List.range 16).flatMap (fun r => (List.range 16).map (fun e => elt (16 * i + r) (16 * kb + e)))))
    (md ++ packElems w vals, vals)
  | _ =>
    let es := rs.map (fun r => rubbleRow (2 * kc + 2) (-1) ((List.range kc).filter (keeps r)))
    let md := es.flatMap (fun e => toBytes 2 e.length) ++ es.flatten.map (fun e => BitVec.ofNat 8 e.1)
    let vals := rs.flatMap (fun r => (es.getD r []).map (fun e => match e.2 with
      | some k => elt r k
      | none => 0))
    (md ++ packElems w vals, vals)

/-- The kept elements of a panel in the order of Table 8.3, without fillers: what VALUES_ONLY writes (R241). -/
def keptValues (d : Desc) (mask : Nat) (elt : Nat → Nat → Nat) : List Nat :=
  let (rows, kc) := panelShape d
  if dSparse d = 3 then (compressData d mask elt).2
  else (List.range rows).flatMap (fun r => ((List.range kc).filter (maskKeeps (dSparse d) kc mask r)).map (elt r))

/-- The stored panel of a compressing WRITE: its bytes, its FORM and whether it is the dense fallback (R241).
tile is the dense tile's ring slot (R229). -/
def storedPanel (d : Desc) (mask : Nat) (tile : List Byte) : List Byte × Nat × Bool :=
  let (rows, kc) := panelShape d
  let w := fmtBits (dFmt d)
  let x := ofBytes (tile.take (dTileBytes d))
  let data := (compressData d mask (fun r k => eltAt x 0 w (r * kc + k))).1
  let sc := (tile.drop (slotData d)).take (slotScales d)
  let sc' := if dMx d then sc else List.replicate (slotScales d) (BitVec.ofNat 8 (dTscale d))
  let panel := padTo (roundUp data.length 128) data ++ padTo (roundUp sc'.length 128) sc'
  let fb := match dSparse d with
    | 3 => (List.range (rows / 16)).all (fun i => (List.range (kc / 16)).all (fun kb => mask / 2 ^ (64 * i + kb) % 2 == 1))
    | 4 => decide (dTileBytes d < data.length)
    | _ => false
  if fb then (padTo (slotData d) (tile.take (dTileBytes d)) ++ padTo (roundUp sc'.length 128) sc', 0xF, true)
  else (panel, dSparse d, false)

/-- A dense WRITE's block: its elements from the tile and, for block-scaled formats, its scales (R228, R231). -/
def writeBlock (d : Desc) (cur : Cursor) (tile : List Byte) : List Byte :=
  let (_, off, n, inBlk) := dBlock d cur.run cur.blk
  let at_ := cur.run % dTileRuns d * dRun d + off
  let data := List.replicate inBlk 0 ++ sliceBytes tile at_ n
  if dMx d then
    let g := 4 * fmtBits (dFmt d)
    padTo 512 (padTo 480 data ++ sliceBytes tile (slotData d + at_ / g) (n / g))
  else padTo 512 data

/-- Byte q of the visiting order of a SEND stream: its core-memory address (R227, R232). -/
def sendAddr (d : Desc) (q : Nat) : Nat := (Int.ofNat (dCoreAddr d) + dOffset d (q / dRun d)).toNat + q % dRun d

/-- Folds a pre-scan's scale bytes into the maximum of row i; 0xFF is left out (R233). -/
def foldMax (m : List (Nat × Int)) (i : Nat) (bs : List Byte) : List (Nat × Int) :=
  bs.foldl (fun m b => if b = 0xFF then m else Map.set m i (max (Map.get (-32768) m i) (Int.ofNat b.toNat - 127))) m

/-- Records in CORE_DMA_ERR a line check that failed on a row the engine reads for a slot; panel is that of a sparse stream
(Table 8.5, R246). -/
def Core.noteLine (c : Core) (slot panel : Nat) (f : CoreFault) : Core :=
  { c with dma := { c.dma with errFault := f.code, errSlot := BitVec.ofNat 3 slot, errPanel := BitVec.ofNat 16 panel,
                               errDesc := BitVec.ofNat 9 (c.slot slot).index, errKind := 6 } }

/-- Takes a block that a PRESCAN reads; a run belongs to iteration i1 of its descriptor, the B half's iterations
being numbered from 256 (R233). -/
def DmaSlot.takeScan (x : DmaSlot) (second : Bool) (cur : Cursor) (block : List Byte) : DmaSlot :=
  let d := if second then x.pairDesc else x.desc
  let (_, _, n, inBlk) := dBlock d cur.run cur.blk
  let i := cur.run % dCount d 1 + (if second then 256 else 0)
  { x with maxima := foldMax x.maxima i (blockScales d block inBlk n), done := x.done + 1 }

/-- The result of iteration i of half second of a pre-scan (R233). -/
def DmaSlot.scanResult (x : DmaSlot) (second : Bool) (i : Nat) : Int :=
  let d := if second then x.pairDesc else x.desc
  if dMx d then Map.get (-32768) x.maxima (i + (if second then 256 else 0))
  else if dTscale d = 0xFF then -32768 else Int.ofNat (dTscale d) - 127

/-- The lines that a pre-scan writes: line (i, j) holds 16 row and 16 column results (R233). -/
def DmaSlot.scanLines (x : DmaSlot) : List Byte :=
  let tc := dPsTc x.desc
  (List.range (dPsTr x.desc * tc)).flatMap (fun l =>
    (List.range 16).flatMap (fun r => toBytes 2 (twos 16 (x.scanResult false (16 * (l / tc) + r)))) ++
    (List.range 16).flatMap (fun r => toBytes 2 (twos 16 (x.scanResult true (16 * (l % tc) + r)))))

/-! ### Outgoing blocks (R231, R241) -/

/-- The bytes of the ring slot of tile j, as the engine reads them. -/
def Core.ringTile (c : Core) (d : Desc) (j : Nat) : List Byte :=
  (List.range (slotSize d)).map (fun i => c.byteAt (slotAddr d j + i))

/-- The first bad line that the engine reads for row r of a block of a dense tile: its part of the elements, and with the last row
of a block-scaled format the scales (R163, R228, R231). -/
def Core.rowFault (c : Core) (d : Desc) (cur : Cursor) (r : Nat) : Option CoreFault :=
  let a := slotAddr d (cur.tile d)
  let (_, off, n, inBlk) := dBlock d cur.run cur.blk
  let at_ := cur.run % dTileRuns d * dRun d + off
  let lo := max inBlk (128 * r)
  let hi := min (inBlk + n) (128 * r + 128)
  let g := 4 * fmtBits (dFmt d)
  (if lo < hi then c.linesFault (a + at_ + lo - inBlk) (hi - lo) else none).or
    (if dMx d && r == 3 && n / g != 0 then c.linesFault (a + slotData d + at_ / g) (n / g) else none)

/-- The first bad line that the engine reads for a whole tile (R163, R241). -/
def Core.panelFault (c : Core) (d : Desc) (j : Nat) : Option CoreFault :=
  let a := slotAddr d j
  (c.linesFault a (dTileBytes d)).or
    (if dMx d && slotScales d != 0 then c.linesFault (a + slotData d) (slotScales d) else none)

/-- The block of a dense WRITE or EXT_OUT whose rows are being read (R231). -/
def DmaSlot.denseOut (x : DmaSlot) (d : Desc) (c : Core) : OutBlock :=
  { addr := dBlockAddr d x.rd.run x.rd.blk, data := writeBlock d x.rd (c.ringTile d (x.rd.tile d)), tag := dTag d }

/-- The block of a panel that a compressing WRITE stores (R240, R241). -/
def DmaSlot.panelOut (x : DmaSlot) (mask : Nat) (c : Core) : OutBlock :=
  let d := x.desc
  let j := x.rd.tile d
  let (panel, form, fb) := storedPanel d mask (c.ringTile d j)
  { addr := dBlockAddr d x.rd.run x.rd.blk, data := sliceBytes panel (512 * x.rd.blk) 512,
    tag := panelTag form panel.length j, fallback := if x.rd.blk = 0 then some fb else none }

/-- The value bits that a mask keeps of a panel (R241). -/
def keptBits (d : Desc) (mask : Nat) : Nat := (keptValues d mask (fun _ _ => 0)).length * fmtBits (dFmt d)
/-- Adds the kept values of the next tile to the pool of a VALUES_ONLY write (R241). -/
def DmaSlot.fillPool (x : DmaSlot) (mask : Nat) (c : Core) : DmaSlot :=
  let d := x.desc
  let w := fmtBits (dFmt d)
  let (_, kc) := panelShape d
  let tile := ofBytes ((c.ringTile d x.poolTiles).take (dTileBytes d))
  let vs := keptValues d mask (fun r k => eltAt tile 0 w (r * kc + k))
  { x with pool := x.pool + packNat w vs * 2 ^ x.poolBits, poolBits := x.poolBits + vs.length * w, poolTiles := x.poolTiles + 1 }

/-- The block of a VALUES_ONLY write whose rows are being read (R241). -/
def DmaSlot.valuesOut (x : DmaSlot) : OutBlock :=
  { addr := dBase x.desc + 512 * x.read, data := toBytes 512 (x.pool % 2 ^ 4096), tag := dTag x.desc }

/-- Whether a descriptor is a VALUES_ONLY write (R241). -/
def dValuesOnly (d : Desc) : Bool := dKind d == 1 && dSparse d != 0 && bit d 36
/-- One row of an outgoing block is read: the rows read before stay as they were; with the fourth row the block is whole (R230). -/
def DmaSlot.takeRow (x : DmaSlot) (o : OutBlock) : DmaSlot × Option OutBlock :=
  let past := match x.forming with
    | some p => p.data.take (128 * x.row)
    | none => []
  let o' : OutBlock := { o with data := past ++ (padTo 512 o.data).drop (128 * x.row) }
  if x.row < 3 then ({ x with row := x.row + 1, forming := some o' }, none)
  else
    let y : DmaSlot := { x with row := 0, forming := none, read := x.read + 1 }
    (if dValuesOnly x.desc then { y with pool := x.pool / 2 ^ 4096, poolBits := x.poolBits - 4096 }
     else { y with rd := x.rd.next (x.cur false) }, some o')
/-- Whether a slot has a block issued whose rows have not all been read. -/
def DmaSlot.rowsDue (x : DmaSlot) : Bool := (dKind x.desc == 1 || dKind x.desc == 5) && Nat.blt x.read x.issued
/-- Whether a slot has blocks still to issue; those of a VALUES_ONLY write are known once every tile is handed over. -/
def DmaSlot.pendingBlocks (x : DmaSlot) : Bool :=
  x.fetching || (if dValuesOnly x.desc then Nat.blt x.released.length (dTiles x.desc) || Nat.blt (4096 * x.issued) x.values
    else x.more false || x.more true)
/-- Whether a stream has finished: nothing left to issue, and every block delivered or acknowledged (R224). -/
def DmaSlot.finished (x : DmaSlot) : Bool := !x.pendingBlocks && x.done == x.issued + x.issuedB
/-- Clears the busy bit of a slot whose stream has finished; the slot's contents stay for later DTILEs. -/
def Core.settleSlot (c : Core) (s : Nat) : Core :=
  if (c.slot s).finished then { c with dma := { c.dma with busy := c.dma.busy &&& ~~~(BitVec.ofNat 8 (2 ^ s)) } } else c

end Sys2Proof.Machine
end

