-- ==== Sys2Proof/Machine/FlowOps.lean ====
section
/-!
DEFINITION. Streams, tokens, credits, the steering unit, courses and tally pairs of one core (R189 to R211,
R265 to R273), and the waits of a core (R62, R63).
-/

namespace Sys2Proof.Machine

/-- A send endpoint of a core. -/
def Core.sendEp (c : Core) (e : Nat) : SendEp := Map.get {} c.flow.send e
/-- A receive endpoint of a core. -/
def Core.recvEp (c : Core) (e : Nat) : RecvEp := Map.get {} c.flow.recv e
/-- Replaces a send endpoint. -/
def Core.setSend (c : Core) (e : Nat) (x : SendEp) : Core := { c with flow := { c.flow with send := Map.set c.flow.send e x } }
/-- Replaces a receive endpoint. -/
def Core.setRecv (c : Core) (e : Nat) (x : RecvEp) : Core := { c with flow := { c.flow with recv := Map.set c.flow.recv e x } }
/-- A steering counter (R198). -/
def Core.ctr (c : Core) (n : Nat) : BitVec 16 := Map.get 0 c.flow.counters n
/-- Writes a steering counter. -/
def Core.setCtr (c : Core) (n : Nat) (v : BitVec 16) : Core :=
  { c with flow := { c.flow with counters := Map.set c.flow.counters n v } }
/-- The current beat number. -/
def Core.now (c : Core) : Nat := c.pace.beat.toNat
/-- The present beat of the core's schedule: the beat number less the beats by which waits have shifted the rest of the layer
(R62, R63). -/
def Core.time (c : Core) : Nat := c.now - c.pace.shift
/-- ORDER of send endpoint n's packets (0 to 15), of receive endpoint n's credits (16 + n) and of stream slot s's requests
(32 + s): a bit of the layer's route-order word (Table 9.2). -/
def Core.orderBit (c : Core) (n : Nat) : Bool := c.router.order.getLsbD n
/-- The send endpoint that a credit meets: that of a FIRE or TOKEN which still waits from the layer before, otherwise that of
the present layer (R65). -/
def Core.sendFor (c : Core) (e : Nat) : SendEp :=
  match c.pace.wait with
  | some { what := .fire k, send := some x, .. } => if k = e then x else c.sendEp e
  | some { what := .token k _, send := some x, .. } => if k = e then x else c.sendEp e
  | _ => c.sendEp e
/-- Replaces the send endpoint that a credit meets. -/
def Core.setSendFor (c : Core) (e : Nat) (x : SendEp) : Core :=
  match c.pace.wait with
  | some w => match w.what, w.send with
    | .fire k, some _ => if k = e then { c with pace := { c.pace with wait := some { w with send := some x } } } else c.setSend e x
    | .token k _, some _ => if k = e then { c with pace := { c.pace with wait := some { w with send := some x } } } else c.setSend e x
    | _, _ => c.setSend e x
  | none => c.setSend e x
/-- The receive endpoint that an arrival meets: that of a TAKE which still waits from the layer before, otherwise that of the
present layer (R65). -/
def Core.recvFor (c : Core) (e : Nat) : RecvEp :=
  match c.pace.wait with
  | some { what := .take k _, recv := some x, .. } => if k = e then x else c.recvEp e
  | _ => c.recvEp e
/-- Replaces the receive endpoint that an arrival meets. -/
def Core.setRecvFor (c : Core) (e : Nat) (x : RecvEp) : Core :=
  match c.pace.wait with
  | some w => match w.what, w.recv with
    | .take k _, some _ => if k = e then { c with pace := { c.pace with wait := some { w with recv := some x } } } else c.setRecv e x
    | _, _ => c.setRecv e x
  | none => c.setRecv e x
/-- Whether a packet goes by the mesh: a wafer course's message goes up the course tree (R248, R268). -/
def OutPkt.onMesh : OutPkt → Bool
  | .wafer _ => false
  | _ => true
/-- Hands packets to the router, which accepts them at its local input. -/
def Core.emit (c : Core) (ps : List OutPkt) : Core :=
  { c with router := { c.router with out := c.router.out ++ ps, toSend := c.router.toSend ++ ps.filter OutPkt.onMesh } }

/-- Whether a beat of the schedule lies in a suppressed window (R201). -/
def Core.suppressedAt (c : Core) (t : Nat) : Bool := c.flow.suppress.any (fun w => decide (w.1 ≤ t) && decide (t < w.2))
/-- Whether the present beat lies in a suppressed window (R201). -/
def Core.suppressed (c : Core) : Bool := c.suppressedAt c.time

/-- Whether the core waits in this beat: for what a command needs, or for another arrival (R62, R63). -/
def Core.waiting (c : Core) : Bool := c.pace.wait.isSome || c.pace.idle
/-- Whether a command of the schedule acts at this beat: the core does not wait (R63), has had no drain notice
(R210), and the beat is not suppressed (R201). -/
def Core.acts (c : Core) : Bool := !c.waiting && !c.flow.sink && !c.suppressed

/-- Adds one late beat, recording the first of the step with the sender of what is late, if it is known (R63, R67, Table
2.5). -/
def Core.late (c : Core) (cause : BitVec 3) (sender : Option LatePath) : Core :=
  let p := c.pace
  let (n, s) := satAdd p.lateCount p.lateSat 1
  let p1 := { p with lateCount := n, lateSat := s, shift := p.shift + 1 }
  { c with pace := if p.lateCount = 0 ∧ p.cause = 0 then
      { p1 with firstBeat := p.beat, firstLayer := c.flow.layer, cause := cause, lateFrom := sender } else p1 }

/-- Adds one beat at an external wait point (R62, Table 2.5). -/
def Core.extBeat (c : Core) : Core :=
  let (n, s) := satAdd c.pace.extCount c.pace.extSat 1
  { c with pace := { c.pace with extCount := n, extSat := s, shift := c.pace.shift + 1 } }

/-- Adds one beat whose start waited on a neighbour (R51, Table 2.5). -/
def Core.coupleBeat (c : Core) : Core :=
  let (n, s) := satAdd c.pace.coupleCount c.pace.coupleSat 1
  { c with pace := { c.pace with coupleCount := n, coupleSat := s } }

/-- Who sends what a wait is for, with the bit of its route-order word: the receiver of a FIRE's credits, the token sender or
the data sender of a TAKE; none for a course or a tally (R67, R194, R207). -/
def Core.waitSender (c : Core) (what : WaitFor) (token : Bool) : Option LatePath :=
  match what with
  | .fire ep => some (.sent (c.sendFor ep).peer (16 + (c.sendFor ep).peerEp))
  | .token ep _ => some (.sent (c.sendFor ep).peer (16 + (c.sendFor ep).peerEp))
  | .take ep _ => if token then some (.sent (c.recvFor ep).tokenPeer (c.recvFor ep).tokenEp)
    else some (.sent (c.recvFor ep).peer (c.recvFor ep).peerEp)
  | .await _ _ => none
  | .twait _ _ => none
  | .engine _ => none

/-- Adds the present beat to a wait in progress: external, or late with its cause and where the arrival comes from (R62, R63,
R65). -/
def Core.waitOn (c : Core) (w : Wait) (cause : BitVec 3) (sender : Option LatePath) : Core :=
  let c1 := if w.ext then c.extBeat else c.late cause sender
  { c1 with pace := { c1.pace with wait := some { w with late := if w.ext then w.late else w.late + 1 } } }
/-- Adds the present beat to a wait for what another core sends. -/
def Core.waitBeat (c : Core) (w : Wait) (cause : BitVec 3) : Core := c.waitOn w cause (c.waitSender w.what (cause == 5))

/-- SET (Table 7.3). -/
def stSet (c : Core) (ctr : Nat) (imm : BitVec 16) : Core × Option CoreFault := (c.setCtr ctr imm, none)

/-- ADD: IMM is signed; a result outside 16 bits is not written (R203). -/
def stAdd (c : Core) (ctr : Nat) (imm : BitVec 16) : Core × Option CoreFault :=
  let v := Int.ofNat (c.ctr ctr).toNat + imm.toInt
  if v < 0 ∨ 0xFFFF < v then (c, some (.sync 0xA false 0 0)) else (c.setCtr ctr (BitVec.ofInt 16 v), none)

/-- The comparisons of TEST (Table 7.2). -/
def condHolds (k : Cond) (a b : BitVec 16) : Bool :=
  match k with
  | .eq => a == b
  | .lt => decide (a.toNat < b.toNat)
  | .le => decide (a.toNat ≤ b.toNat)
  | .ne => a != b

/-- TEST (Table 7.3). -/
def stTest (c : Core) (p ctr : Nat) (k : Cond) (imm : BitVec 16) : Core × Option CoreFault :=
  let m := BitVec.ofNat 8 (2 ^ p)
  let v := if condHolds k (c.ctr ctr) imm then c.flow.preds ||| m else c.flow.preds &&& ~~~m
  ({ c with flow := { c.flow with preds := v } }, none)

/-- LOOP: opens the window of LEN × IMM beats from the command's beat; with SRC = 1 the iterations beyond C[CTR] are
suppressed, and a count above IMM suppresses them all and ends the step (R201, R203). -/
def stLoop (c : Core) (src : Bool) (ctr : Nat) (imm len : BitVec 16) : Core × Option CoreFault :=
  let k := if src then (c.ctr ctr).toNat else imm.toNat
  let n := if imm.toNat < k then 0 else k
  let s := c.time
  let e := s + len.toNat * imm.toNat
  let open_ := c.flow.loops.filter (fun w => decide (s < w.2))
  let sup := c.flow.suppress.filter (fun w => decide (s < w.2))
  let sup' := if src ∧ n < imm.toNat then (s + len.toNat * n, e) :: sup else sup
  ({ c with flow := { c.flow with loops := (s, e) :: open_, suppress := sup' } },
   if imm.toNat < k then some (.sync 0xA false 0 0) else none)

/-- GATE: suppresses the next LEN beats when the predicate differs from SENSE (R201). -/
def stGate (c : Core) (p : Nat) (sense : Bool) (len : BitVec 16) : Core × Option CoreFault :=
  if c.flow.preds.getLsbD p = sense then (c, none)
  else
    let s := c.time + 1
    ({ c with flow := { c.flow with suppress := (s, s + len.toNat) :: c.flow.suppress.filter (fun w => decide (c.time < w.2)) } },
     none)

/-- Why a FIRE or TOKEN must wait: 6 for data credits, 5 for a pairing credit (R193, R207). -/
def SendEp.short (e : SendEp) : Option (BitVec 3) :=
  if !e.token && decide (e.credits.toNat < e.perFiring) then some 6
  else if (e.token || e.governed) && e.pair == 0 then some 5
  else none

/-- The core-memory addresses of the flits of an endpoint's next firing, in the visiting order of the SEND stream that serves it
(R193, R232). -/
def Core.nextFlits (c : Core) (e : SendEp) : List Nat :=
  match e.stream with
  | none => []
  | some s => (List.range (e.flits * e.perFiring)).map (fun j => sendAddr (c.slot s).desc (e.sentBytes + 32 * j))
/-- The flits that a FIRE injects: those kept by a wait that began in the layer before, or the next of its stream (R65, R193). -/
def Core.flitsFor (c : Core) (ep : Nat) : List Nat :=
  match c.pace.wait with
  | some { what := .fire _, send := some _, flits := as, .. } => as
  | _ => c.nextFlits (c.sendEp ep)
/-- A FIRE that has its credits: it spends them, and its blocks are injected from its beat on (R193). -/
def Core.doFire (c : Core) (ep : Nat) : Core × Option CoreFault :=
  let e := c.sendFor ep
  let g : Firing := { ep := ep, slot := e.stream.getD 0, peer := e.peer, peerEp := e.peerEp, order := c.orderBit ep,
                      flits := c.flitsFor ep, size := e.flits }
  let e' := { e with credits := e.credits - BitVec.ofNat 5 e.perFiring, pair := if e.governed then e.pair - 1 else e.pair,
                     fired := e.fired + 1, sentBytes := e.sentBytes + 32 * e.flits * e.perFiring }
  let c1 := c.setSendFor ep e'
  ({ c1 with dma := { c1.dma with firing := c1.dma.firing ++ (if g.flits.isEmpty then [] else [g]) } }, none)

/-- The flit that a row has given for an endpoint, if it is held (R232). -/
def Dma.heldFlit (d : Dma) (ep a : Nat) : Option (List Byte) := (d.sendHeld.find? (fun h => h.1 == ep && h.2.1 == a)).map (·.2.2)
/-- Holds a flit that a row gives for an endpoint. -/
def Dma.holdFlit (d : Dma) (ep a : Nat) (bs : List Byte) : Dma :=
  { d with sendHeld := d.sendHeld.filter (fun h => !(h.1 == ep && h.2.1 == a)) ++ [(ep, a, bs)] }
/-- Leaves out a held flit. -/
def Dma.dropFlit (d : Dma) (ep a : Nat) : Dma := { d with sendHeld := d.sendHeld.filter (fun h => !(h.1 == ep && h.2.1 == a)) }
/-- The row of a SEND firing takes the turn: the flits that it gives are held; an error of a line is the engine's (R232, R246). -/
def Core.sendRow (c : Core) (ep slot : Nat) : List Nat → Core × Option CoreFault
  | [] => (c, none)
  | a :: as => match c.readMem a 32 with
    | .error f => (c.noteLine slot 0 f, some f)
    | .ok bs => ({ c with dma := c.dma.holdFlit ep a bs } : Core).sendRow ep slot as
/-- The row of a firing in progress that is due in this turn: its flit is injected 1 to 4 beats later (R232). -/
def Core.firingDue (c : Core) : Option (Nat × Nat × List Nat) :=
  c.dma.firing.findSome? (fun g =>
    (((g.flits.drop 1).take 4).find? (fun a => (c.dma.heldFlit g.ep a).isNone)).map (fun a =>
      (g.ep, g.slot, g.flits.filter (fun b => b / 128 == a / 128 && (c.dma.heldFlit g.ep b).isNone))))
/-- The present flit of a firing is injected; with the last flit of a block the block is on its way (R193). A flit whose row took no
turn is read here, under its checks while checked. -/
def Core.inject (c : Core) (checked : Bool) (g : Firing) : Core × Option CoreFault × Option Firing :=
  match g.flits with
  | [] => (c, none, none)
  | a :: as =>
    let got : Except CoreFault (List Byte) := match c.dma.heldFlit g.ep a with
      | some bs => .ok bs
      | none => if checked then c.readMem a 32 else .ok ((List.range 32).map (fun i => c.byteAt (a + i)))
    match got with
    | .error f => (c.noteLine g.slot 0 f, some f, none)
    | .ok bs =>
      let c1 : Core := { c with dma := c.dma.dropFlit g.ep a }
      let part := g.part ++ bs
      if 32 * g.size ≤ part.length then
        (c1.emit [.block g.peer g.peerEp g.order part], none, if as.isEmpty then none else some { g with flits := as, part := [] })
      else (c1, none, some { g with flits := as, part := part })
/-- Every firing in progress injects its flit of the beat. -/
def Core.injectAll (c : Core) (checked : Bool) : Core × Option CoreFault :=
  c.dma.firing.foldl (fun r g =>
    let (c', f, g') := r.1.inject checked g
    ({ c' with dma := { c'.dma with firing := c'.dma.firing ++ g'.toList } }, r.2.or f))
    ({ c with dma := { c.dma with firing := [] } }, none)

/-- The control token of a token-send endpoint's next firing (Table 7.4). -/
def tokenWord (c : Core) (e : SendEp) (value : BitVec 32) : BitVec 128 :=
  BitVec.ofNat 128 (1 + 2 ^ 4 * c.flow.epoch.toNat + 2 ^ 6 * e.peerEp + 2 ^ 10 * (e.fired.toNat % 65536)
    + 2 ^ 32 * value.toNat)

/-- A TOKEN that has its pairing credit (R204, R205, R207). -/
def Core.doToken (c : Core) (ep : Nat) (value : BitVec 32) : Core × Option CoreFault :=
  let e := c.sendFor ep
  ((c.setSendFor ep { e with pair := e.pair - 1, fired := e.fired + 1 }).emit
    [.token e.peer (c.orderBit ep) (tokenWord c e value)], none)

/-- Starts a wait at the command's own beat, which is its first late or external beat (R62, R63). -/
def Core.startWait (c : Core) (what : WaitFor) (ext : Bool) (cause : BitVec 3) : Core :=
  c.waitBeat { what := what, ext := ext } cause

/-- FIRE (R193). -/
def stFire (c : Core) (ep : Nat) : Core × Option CoreFault :=
  let e := c.sendEp ep
  if !e.bound || e.token then (c, none)
  else match e.short with
    | some cause => (c.startWait (.fire ep) false cause, none)
    | none => c.doFire ep

/-- TOKEN (R204, R207). -/
def stToken (c : Core) (ep : Nat) (value : BitVec 32) : Core × Option CoreFault :=
  let e := c.sendEp ep
  if !e.bound || !e.token then (c, none)
  else match e.short with
    | some cause => (c.startWait (.token ep value) false cause, none)
    | none => c.doToken ep value

/-- CONSUME: frees the next firing's slots and returns its credits (R193, R208). -/
def stConsume (c : Core) (ep : Nat) : Core × Option CoreFault :=
  let e := c.recvEp ep
  if !e.bound || decide (e.level.toNat < e.perFiring) || (e.governed && decide (e.taken.toNat ≤ e.consumed.toNat))
  then (c, none)
  else
    ((c.setRecv ep { e with level := e.level - BitVec.ofNat 5 e.perFiring, consumed := e.consumed + 1 }).emit
      [.credit e.peer e.peerEp (c.orderBit (16 + ep)) e.perFiring 0], none)

/-- A skew entry of a governed endpoint (R207). -/
def RecvEp.entry (e : RecvEp) (seq : Nat) : Skew := Map.get {} e.skew (seq % 4)

/-- A TAKE whose halves are both present (R203, R208). -/
def Core.doTake (c : Core) (ep ctr : Nat) (value : BitVec 32) : Core × Option CoreFault :=
  let e := c.recvFor ep
  if 0xFFFF < value.toNat then (c, some (.sync 0xA true ep e.taken.toNat))
  else
    let e' := { e with taken := e.taken + 1, skew := Map.erase e.skew (e.taken.toNat % 4) }
    (((c.setRecvFor ep e').setCtr ctr (BitVec.ofNat 16 value.toNat)).emit
      [.credit e.peer e.peerEp (c.orderBit (16 + ep)) 0 1, .credit e.tokenPeer e.tokenEp (c.orderBit (16 + ep)) 0 1], none)

/-- TAKE: waits until both halves of the next firing are present; the cause of a wait is 5 while the token half is
missing, otherwise that of the last data hop (R208). -/
def stTake (c : Core) (ep ctr : Nat) (dataCause : BitVec 3) : Core × Option CoreFault :=
  let e := c.recvEp ep
  if !e.bound || !e.governed then (c, none)
  else
    let k := e.entry e.taken.toNat
    match k.token, k.data with
    | some v, true => c.doTake ep ctr v
    | some _, false => (c.startWait (.take ep ctr) false dataCause, none)
    | none, _ => (c.startWait (.take ep ctr) false 5, none)

/-- A data block arrives at a receive endpoint outside sink mode (R193, R196, R205, R206, R222). -/
def Core.takeBlock (c : Core) (ep : Nat) (data : List Byte) : Core × Option CoreFault :=
  let e := c.recvFor ep
  if !e.bound then (c, some (.sync 0xB true ep 0))
  else if e.depth ≤ e.level.toNat then (c, some (.sync 1 true ep (e.arrived / e.perFiring)))
  else
    let addr := e.bufAddr + e.arrived % e.depth * (32 * e.flits)
    let n := e.arrived + 1
    let firing := e.arrived / e.perFiring
    let complete := e.governed && n % e.perFiring == 0
    let inWindow := decide (e.taken.toNat ≤ firing) && decide (firing < e.taken.toNat + 4)
    if complete && !inWindow then (c, some (.sync 5 true ep firing))
    else
      let sk := if complete then Map.set e.skew (firing % 4) { e.entry firing with data := true } else e.skew
      let c1 := c.setRecvFor ep { e with level := e.level + 1, arrived := n, skew := sk }
      ({ c1 with dma := c1.dma.stage c.now (8 + ep) addr (padTo (32 * e.flits) data) }, none)

/-- A data block arrives in sink mode: discarded, its credit returned, in one packet with a pairing credit when it completes a
governed firing's data half (R211). -/
def Core.sinkBlock (c : Core) (ep : Nat) : Core × Option CoreFault :=
  let e := c.recvEp ep
  if !e.bound then (c, some (.sync 0xB true ep 0))
  else
    let n := e.arrived + 1
    ((c.setRecv ep { e with arrived := n }).emit
      [.credit e.peer e.peerEp (c.orderBit (16 + ep)) 1 (if e.governed && n % e.perFiring == 0 then 1 else 0)], none)

/-- A credit packet arrives, with data credits and pairing credits: what would exceed DEPTH or 4 is not applied (R194, R196,
R211). -/
def Core.takeCredit (c : Core) (ep data pair : Nat) : Core × Option CoreFault :=
  let e := c.sendFor ep
  if !e.bound then (c, some (.sync 0xB false ep 0))
  else if e.depth < e.credits.toNat + data ∨ 4 < e.pair.toNat + pair then (c, some (.sync 2 false ep 0))
  else (c.setSendFor ep { e with credits := e.credits + BitVec.ofNat 5 data, pair := e.pair + BitVec.ofNat 3 pair }, none)

/-- A stale token: dropped and counted, with SYNC:0x007 recorded (R216). -/
def Core.staleToken (c : Core) (w : BitVec 128) (draining : Bool) : Core :=
  let (n, s) := satAdd c.flow.staleCount c.flow.staleSat 1
  let c1 := { c with flow := { c.flow with staleCount := n, staleSat := s, staleEpoch := BitVec.ofNat 2 (bits w 5 4) } }
  c1.record draining (.sync 7 true (bits w 9 6) (bits w 25 10))

/-- A control token of the current epoch arrives outside sink mode (R196, R206 steps 2 to 5). A SEQ below the window has been
taken and is a duplicate (DEDUCED from R217, log 20). -/
def Core.takeToken (c : Core) (w : BitVec 128) : Core × Option CoreFault :=
  let ep := bits w 9 6
  let seq := bits w 25 10
  let e := c.recvFor ep
  if bits w 3 0 ≠ 1 ∨ bits w 31 26 ≠ 0 ∨ bits w 127 64 ≠ 0 then (c, some (.sync 6 true ep seq))
  else if e.bound = false then (c, some (.sync 0xB true ep seq))
  else if e.governed = false then (c, some (.sync 6 true ep seq))
  else if e.taken.toNat + 4 ≤ seq then (c, some (.sync 5 true ep seq))
  else if seq < e.taken.toNat then (c, some (.sync 4 true ep seq))
  else if (e.entry seq).token.isSome then (c, some (.sync 4 true ep seq))
  else
    let k := { e.entry seq with token := some (BitVec.ofNat 32 (bits w 63 32)) }
    (c.setRecvFor ep { e with skew := Map.set e.skew (seq % 4) k }, none)

/-- A control token arrives in sink mode: discarded, its pairing credit returned (R211). -/
def Core.sinkToken (c : Core) (w : BitVec 128) : Core :=
  let e := c.recvEp (bits w 9 6)
  if e.bound && e.governed then c.emit [.credit e.tokenPeer e.tokenEp (c.orderBit (16 + bits w 9 6)) 0 1] else c

/-- A control token arrives (R206, R211, R216). -/
def Core.controlToken (c : Core) (w : BitVec 128) (draining : Bool) : Core × Option CoreFault :=
  if bits w 5 4 ≠ c.flow.epoch.toNat then (c.staleToken w draining, none)
  else if c.flow.sink then (c.sinkToken w, none)
  else c.takeToken w

/-- A per-core course of a core. -/
def Core.course (c : Core) (k : Nat) : Course := Map.get {} c.router.courses k
/-- Replaces a course. -/
def Core.setCourse (c : Core) (k : Nat) (x : Course) : Core :=
  { c with router := { c.router with courses := Map.set c.router.courses k x } }

/-- Whether every member has arrived (R267). -/
def Course.full (x : Course) : Bool :=
  (List.range x.participants.toNat).all (fun i => x.arrived.getLsbD i)

/-- A course message arrives at its host: recorded, or SYNC:0x010; when every member has arrived the releases go
out in member order and the next generation starts (R267). -/
def Core.courseArrival (c : Core) (k member sender : Nat) (order : Bool) : Core × Option CoreFault :=
  let x := c.course k
  if x.participants.toNat ≤ member ∨ x.arrived.getLsbD member = true then
    (c.setCourse k { x with overran := true }, some (.sync 0x10 false 0 0))
  else
    let x' := { x with arrived := x.arrived ||| BitVec.ofNat 64 (2 ^ member),
                       senders := Map.set x.senders member (sender, order) }
    if x'.full then
      ((c.setCourse k { x' with arrived := 0, senders := [], gen := !x'.gen }).emit
        (x'.senders.map (fun m => .release m.2.1 k m.2.2)), none)
    else (c.setCourse k x', none)

/-- A release arrives at a member and is held in the flag of its course number (R267). -/
def Core.holdRelease (c : Core) (k : Nat) : Core := c.setCourse k { c.course k with held := true }

/-- Whether the release an AWAIT waits for is held (R267, R268). -/
def Core.isHeld (c : Core) (wafer : Bool) (k : Nat) : Bool :=
  if wafer then c.router.waferHeld.getLsbD k else (c.course k).held

/-- An AWAIT takes the release (R267). -/
def Core.takeRelease (c : Core) (wafer : Bool) (k : Nat) : Core :=
  if wafer then { c with router := { c.router with waferHeld := c.router.waferHeld &&& ~~~(BitVec.ofNat 64 (2 ^ k)) } }
  else c.setCourse k { c.course k with held := false }

/-- AWAIT (Table 9.6). -/
def rtAwait (c : Core) (wafer : Bool) (k : Nat) (ext : Bool) : Core × Option CoreFault :=
  if c.isHeld wafer k then (c.takeRelease wafer k, none) else (c.startWait (.await wafer k) ext 7, none)

/-- ARRIVE: a message to the course's host, or up the course tree (R267, R268). -/
def rtArrive (c : Core) (wafer : Bool) (k member host : Nat) (order : Bool) : Core × Option CoreFault :=
  (c.emit [if wafer then .wafer k else .course host k member order], none)

/-- A tally pair of a core. -/
def Core.tally (c : Core) (t : Nat) : Tally := Map.get {} c.router.tallies t
/-- Replaces a tally pair. -/
def Core.setTally (c : Core) (t : Nat) (x : Tally) : Core :=
  { c with router := { c.router with tallies := Map.set c.router.tallies t x } }

/-- The largest value of a tally count (R272). -/
def tallyMax : Nat := 0xFFFFFFFF

/-- Adds n to PROD, or ends the step with SYNC:0x011 (R272). -/
def Core.addProd (c : Core) (t n : Nat) : Core × Option CoreFault :=
  let x := c.tally t
  let p := x.prod.toNat + n
  if x.buffers = 0 ∨ x.buffers.toNat + x.cons.toNat < p then
    (c.setTally t { x with bound := true }, some (.sync 0x11 false 0 0))
  else if tallyMax < p then
    (c.setTally t { x with prod := BitVec.allOnes 32, sat := true, bound := true }, some (.sync 0x11 false 0 0))
  else (c.setTally t { x with prod := BitVec.ofNat 32 p }, none)

/-- Adds n to CONS, or ends the step with SYNC:0x011 (R272). -/
def Core.addCons (c : Core) (t n : Nat) : Core × Option CoreFault :=
  let x := c.tally t
  let k := x.cons.toNat + n
  if x.buffers = 0 ∨ x.prod.toNat < k then
    (c.setTally t { x with bound := true }, some (.sync 0x11 false 0 0))
  else (c.setTally t { x with cons := BitVec.ofNat 32 k }, none)

/-- TPROD: to a local pair at once, to a remote one by a tally message, whose ORDER is the command's (R252, R271). -/
def rtTprod (c : Core) (t n : Nat) (remote : Bool) (target : Nat) (order : Bool) : Core × Option CoreFault :=
  if remote then (c.emit [.tally target t n order], none) else c.addProd t n

/-- Whether a TWAIT is complete (R271). -/
def Core.tallyReady (c : Core) (t n : Nat) : Bool :=
  decide (n + (c.tally t).cons.toNat ≤ (c.tally t).prod.toNat)

/-- TWAIT (Table 9.6). -/
def rtTwait (c : Core) (t n : Nat) (ext : Bool) : Core × Option CoreFault :=
  if c.tallyReady t n then (c, none) else (c.startWait (.twait t n) ext 7, none)

/-- Ends the wait in progress. -/
def Core.endWait (c : Core) : Core := { c with pace := { c.pace with wait := none } }

/-- The end of a wait: what it waited for is there, and its command takes effect (R63). -/
def Core.finishWait (r : Core × Option CoreFault) : Core × Option CoreFault := (r.1.endWait, r.2)
/-- One beat of a wait: it ends when what it waits for is there, and otherwise counts the beat (R63, R65). -/
def Core.tryWait (c : Core) (w : Wait) (dataCause : BitVec 3) : Core × Option CoreFault :=
  match w.what with
  | .fire ep => match (c.sendFor ep).short with
    | some cause => (c.waitBeat w cause, none)
    | none => Core.finishWait (c.doFire ep)
  | .token ep v => match (c.sendFor ep).short with
    | some cause => (c.waitBeat w cause, none)
    | none => Core.finishWait (c.doToken ep v)
  | .take ep ctr =>
    let k := (c.recvFor ep).entry (c.recvFor ep).taken.toNat
    match k.token, k.data with
    | some v, true => Core.finishWait (c.doTake ep ctr v)
    | some _, false => (c.waitBeat w dataCause, none)
    | none, _ => (c.waitBeat w 5, none)
  | .await wafer k =>
    if c.isHeld wafer k then (c.endWait.takeRelease wafer k, none) else (c.waitBeat w 7, none)
  | .twait t n => if c.tallyReady t n then (c.endWait, none) else (c.waitBeat w 7, none)
  | .engine _ => (c.waitBeat w dataCause, none)

/-- A wait that goes on into the next layer keeps its endpoint and the flits of its firing (R65). -/
def Core.keepWait (c : Core) : Core :=
  match c.pace.wait with
  | none => c
  | some w =>
    let w' : Wait := match w.what with
      | .fire ep => { w with send := some (c.sendFor ep), flits := c.flitsFor ep }
      | .token ep _ => { w with send := some (c.sendFor ep) }
      | .take ep _ => { w with recv := some (c.recvFor ep) }
      | .await _ _ => w
      | .twait _ _ => w
      | .engine _ => { w with past := true }
    { c with pace := { c.pace with wait := some w' } }

/-- Whether the data credits of a send endpoint are at DEPTH (R197). -/
def SendEp.creditsHome (e : SendEp) : Bool := !e.bound || e.token || e.credits.toNat == e.depth
/-- Whether a send endpoint is home: all credits and pairing credits (R210). -/
def SendEp.home (e : SendEp) : Bool := e.creditsHome && (!e.bound || !(e.token || e.governed) || e.pair == 4)

/-- Whether a core reports empty (R210). -/
def Core.empty (c : Core) : Bool :=
  c.flow.send.all (fun e => e.2.home) && c.flow.recv.all (fun e => e.2.level == 0 && e.2.skew.isEmpty) &&
  c.router.out.isEmpty && c.router.toSend.isEmpty && c.router.localIn.isEmpty && c.router.local_.isEmpty && c.router.memPort.isEmpty &&
  c.dma.firing.isEmpty &&
  c.router.links.all (fun l => l.2.sched.inBuf.isEmpty && l.2.unsched.inBuf.isEmpty)

/-- Whether a send endpoint is home at the layer-end sample: its credits, and its count of commands (R197). -/
def SendEp.atHome (e : SendEp) : Bool := e.creditsHome && (!e.bound || e.fired.toNat == e.firings)
/-- Whether a receive endpoint is home at the layer-end sample: buffer, skew entries, and counts of commands (R197). -/
def RecvEp.atHome (e : RecvEp) : Bool :=
  e.level == 0 && e.skew.isEmpty &&
  (!e.bound || (e.consumed.toNat == e.firings && (!e.governed || e.taken.toNat == e.firings)))
/-- The skew entries of a receive endpoint that hold one half alone (R197). -/
def RecvEp.halves (e : RecvEp) : List (Nat × Skew) := e.skew.filter (fun k => k.2.token.isSome != k.2.data)
/-- Whether nothing is amiss with a receive endpoint but unpaired halves: the firings not taken are theirs, and the buffer
holds the blocks of the data halves among them (R197; log 44). -/
def RecvEp.onlyHalves (e : RecvEp) : Bool :=
  e.governed && !e.skew.isEmpty && e.halves.length == e.skew.length && e.consumed == e.taken &&
  e.taken.toNat + e.skew.length == e.firings && e.level.toNat == e.perFiring * (e.skew.filter (fun k => k.2.data)).length

/-- Whether a core reports its loops as not home at the layer-end sample (R197). -/
def Core.loopsAway (c : Core) : Bool := c.flow.send.any (fun e => !e.2.atHome) || c.flow.recv.any (fun e => !e.2.atHome)
/-- Whether what is not home at a core is nothing but unpaired halves: peer answers the receive endpoint at the other end of
a send endpoint, whose unconsumed data halves hold the credits that are missing (R197; log 44). -/
def Core.onlyUnpaired (c : Core) (peer : SendEp → RecvEp) : Bool :=
  c.flow.recv.all (fun e => e.2.atHome || e.2.onlyHalves) &&
  c.flow.send.all (fun e => e.2.atHome || (e.2.fired.toNat == e.2.firings && (peer e.2).onlyHalves &&
    e.2.credits.toNat + (peer e.2).level.toNat == e.2.depth))
/-- The endpoint that a report of loops not home concerns: the first send endpoint that is not home, otherwise the first
receive endpoint (R197, R219; log 44). -/
def Core.awayEp (c : Core) : Bool × Nat :=
  match c.flow.send.find? (fun e => !e.2.atHome) with
  | some e => (false, e.1)
  | none => match c.flow.recv.find? (fun e => !e.2.atHome) with
    | some e => (true, e.1)
    | none => (true, 0)

/-- The blocks of a firing whose injection has not begun (R210). -/
def Firing.notBegun (g : Firing) : Nat := (32 * g.flits.length + g.part.length) / (32 * g.size) - (if g.part.isEmpty then 0 else 1)
/-- The core at the notice beat completes the block that a firing has begun, drops the blocks not begun, and restores their credits
to their send endpoint and, where a governed firing lost one, its pairing credit (R210). The rest of a begun block is injected
here at once, from the memory as it stands: its receiver discards it (R211; log 21). -/
def Core.stopFiring (c : Core) (g : Firing) : Core :=
  let k := g.notBegun
  let c1 := if g.part.isEmpty then c
    else
      let rest := (g.flits.take (g.size - g.part.length / 32)).flatMap (fun a =>
        (c.dma.heldFlit g.ep a).getD ((List.range 32).map (fun i => c.byteAt (a + i))))
      c.emit [.block g.peer g.peerEp g.order (g.part ++ rest)]
  let e := c1.sendFor g.ep
  if k = 0 then c1
  else c1.setSendFor g.ep { e with credits := e.credits + BitVec.ofNat 5 k, pair := if e.governed then e.pair + 1 else e.pair }

/-- The value of CORE_FLOW_EP_n bits [28:0] (Table 7.6). -/
def Core.epWord (c : Core) (n : Nat) : BitVec 29 :=
  if n < 16 then
    let e := c.sendEp n
    BitVec.ofNat 29 (e.credits.toNat + 2 ^ 5 * e.fired.toNat + 2 ^ 25 * e.pair.toNat + (if e.bound then 2 ^ 28 else 0))
  else
    let e := c.recvEp (n - 16)
    BitVec.ofNat 29 (e.level.toNat + 2 ^ 5 * e.consumed.toNat + 2 ^ 22 * e.skew.length + (if e.bound then 2 ^ 28 else 0))

/-- A core's snapshot of its synchronisation state (R276). -/
def Core.takeSnap (c : Core) : Snap :=
  { courses := c.router.courses, tallies := c.router.tallies, eps := (List.range 32).map c.epWord,
    counters := c.flow.counters, preds := c.flow.preds, epoch := c.flow.epoch, beat := c.pace.beat,
    layer := c.flow.layer }

/-- One pairing credit back for each half that a skew entry of receive endpoint n held (R211). -/
def RecvEp.clearSkew (e : RecvEp) (order : Bool) : List OutPkt :=
  e.skew.flatMap (fun k =>
    (if k.2.data then [OutPkt.credit e.peer e.peerEp order 0 1] else []) ++
    (if k.2.token.isSome then [OutPkt.credit e.tokenPeer e.tokenEp order 0 1] else []))

/-- The drain notice at a core (R210, R211, R276): the snapshot first where the drain takes one, then blocks not
begun are dropped, the staging buffer and the streams stop, skew entries cleared, the received blocks discarded and their credits
returned, and sink mode entered; every packet that the router has accepted goes on, and every wait ends (R65). -/
def Core.notice (c : Core) (snapshot : Bool) : Core :=
  let c0 := if snapshot then { c with snap := some c.takeSnap, snapLost := false } else c
  let c1 := c0.dma.firing.foldl (fun x g => x.stopFiring g) c0
  let backs := c1.flow.recv.flatMap (fun r => (RecvEp.clearSkew r.2 (c1.orderBit (16 + r.1))) ++
    (if r.2.level = 0 then [] else [OutPkt.credit r.2.peer r.2.peerEp (c1.orderBit (16 + r.1)) r.2.level.toNat 0]))
  let recv' := c1.flow.recv.map (fun r => (r.1, ({ r.2 with skew := [], level := 0 } : RecvEp)))
  let c2 := { c1 with flow := { c1.flow with recv := recv', sink := true },
                      dma := { c1.dma with staged := [], order := [], firing := [], sendHeld := [], fetch := [] } }
  (c2.emit backs).endWait

end Sys2Proof.Machine
end

