-- ==== Sys2Proof/Machine/FabricState.lean ====
section
/-!
DEFINITION. The state of the physical optical ports (R304 to R316, Table 11.10), and of the flows and collectives of
one device (R317 to R326), with the Reset column as the default of each field.
-/

namespace Sys2Proof.Machine

/-- STATE of PORT_STATE (Table 11.10). -/
inductive PortStat where
  | down | training | up | failed | retired | idleSpare
deriving DecidableEq, Repr

/-- A physical port: its registers (Table 11.10), its training phase (R312), and its link layer (R307, R308, R310, R311): the
replay buffer with the failed attempts of each frame, the sequence numbers, the credits held for each class, the
credits owed to the partner, the answer to be sent, the frames that wait for a credit or for room, the place in the superframe of
the slot that it sent last, that data slot, and the link-status word that it sent last. -/
structure Port where
  stat : PortStat := .down
  logical : BitVec 6 := 0
  bound : Bool := false
  degraded : Bool := false
  laserOk : Bool := false
  partnerDev : BitVec 20 := 0
  partnerPort : BitVec 7 := 0
  partnerSwitch : Bool := false
  linkVersion : Byte := 0
  framesTx : BitVec 31 := 0
  txSat : Bool := false
  resends : BitVec 31 := 0
  resendSat : Bool := false
  framesRx : BitVec 31 := 0
  rxSat : Bool := false
  drops : BitVec 31 := 0
  dropSat : Bool := false
  stale : BitVec 31 := 0
  staleSat : Bool := false
  badFrames : BitVec 31 := 0
  badSat : Bool := false
  errCode : BitVec 12 := 0
  errFlow : BitVec 24 := 0
  groups : Word := 0
  phase : Nat := 0
  lastPartner : Option (BitVec 20) := none
  replay : List (BitVec 16 × Frame × Nat) := []
  next : BitVec 16 := 0
  expect : BitVec 16 := 0
  discard : Bool := false
  credits : List (Nat × Nat) := []
  owed : List (Nat × Nat) := []
  answer : Option (Bool × BitVec 16) := none
  waiting : List Frame := []
  pos : BitVec 7 := 0
  slotOut : Slot := 0
  statusOut : BitVec 128 := 0
  turn : Nat := 0
  winFrames : Nat := 0
  winResends : Nat := 0
  usedBy : List (Nat × Nat) := []
deriving DecidableEq, Repr

/-- A contribution to a unit of a reduction: its element values, exact integers or BF16 patterns, and its STATUS bits
(R322, R323). -/
abbrev Contrib := List Int × Nat

/-- A collective in progress at this device (R320 to R326): its descriptor's fields, the group in rank order, the peers
whose START has come, whether its exchange has begun, the sequence numbers seen from each rank, the data frames sent to each
rank, the needs by block (the largest found so far, and at the end the anchors agreed), the contributions held for each unit
of its own shard by rank, the units whose reduction frame has come, whether a result was inexact, the point that it follows,
and whether its peers have been told of a fall of pace. -/
structure Coll where
  ring : Nat
  seq : BitVec 32
  collId : Nat
  op : Nat
  bf16 : Bool
  direct : Bool
  follow : Bool
  root : Nat
  src : Nat
  dst : Nat
  count : Nat
  group : List Nat
  rank : Nat
  listCrc : BitVec 32
  paceAtStart : Nat
  started : List Nat := []
  exchanging : Bool := false
  moving : Bool := false
  seen : List (Nat × List Nat) := []
  sent : List (Nat × Nat) := []
  needs : List (Nat × Int) := []
  held : List (Nat × List (Nat × Contrib)) := []
  passed : List Nat := []
  inexact : Bool := false
  following : Option Nat := none
  noticed : Bool := false
deriving DecidableEq, Repr

/-- A mirror pass arriving from an owner (R146, R298): the frames seen by sequence number, the number of frames before its
end once known, the count of skew blocks, whether it was refused, whether it was abandoned, and whether its return is
sent. -/
structure MirrorIn where
  owner : BitVec 20
  serial : BitVec 24
  seen : List Nat := []
  total : Option Nat := none
  skew : Nat := 0
  refused : Bool := false
  closed : Bool := false
  returned : Bool := false
deriving DecidableEq, Repr

/-- The fabric state of one device (R314, R315): its identity, its route table, its collectives, the COLL_IDs of those that ended
before their commit points (R318), the mirror passes it receives, the grants it has sent for each flow (R317), and the frames received whose effect is still to come, with the
physical port they came on; none stands for the keystone seam (R477). -/
structure Fabric where
  id : BitVec 20 := 0
  idSet : Bool := false
  route : List (Nat × Word) := []
  colls : List Coll := []
  ended : List Nat := []
  mirrors : List MirrorIn := []
  grants : List (Nat × Nat) := []
  inbox : List (Option Nat × Frame) := []
deriving DecidableEq, Repr

end Sys2Proof.Machine
end

