-- ==== Sys2Proof/Machine/HostState.lean ====
section
/-!
DEFINITION. The state of the Tirrik link, the rings and the descriptors in flight (R331 to R362), with the Reset
column of Tables 12.14 and 12.15 as the default of each field.
-/

namespace Sys2Proof.Machine

/-- A submission ring (Table 12.14); tail is the index of its doorbell line as last read (R341, R342), marks are the
free-running indices that ABORTs marked, each with the ring and SEQ of its ABORT (R357). -/
structure SubRing where
  base : BitVec 58 := 0
  size : BitVec 17 := 0
  cq : BitVec 7 := 0
  weight : BitVec 4 := 1
  enable : Bool := false
  db : BitVec 58 := 0
  head : BitVec 32 := 0
  expect : BitVec 32 := 0
  tail : BitVec 32 := 0
  halted : Bool := false
  haltFault : Code := 0
  marks : List (BitVec 32 × Nat × BitVec 32) := []
deriving DecidableEq, Repr

/-- A decided outcome: what its record will hold (Table 12.10) but for PHASE and TIME_US. reserved is false for a halt
record, which has no slot reserved (R344). order is the place of its descriptor in the order of fetching; array names
the wing of an array descriptor; after names the record that must be posted before this one (R357). -/
structure OutRec where
  ring : Nat
  seq : BitVec 32
  family : Nat
  disp : Nat
  status : Nat := 0
  fault : Code := 0
  whereKind : Nat := 0
  where_ : Nat := 0
  user : Word := 0
  reserved : Bool := true
  order : Nat := 0
  array : Option Nat := none
  after : Option (Nat × BitVec 32) := none
deriving DecidableEq, Repr

/-- A completion ring (Table 12.14): slots reserved, and the decided outcomes not yet posted, in the order of the
outcomes (R343, R354); held is the record being posted, until the companion has acknowledged it, and retry is set while
a posting that the companion refused waits for its retry (R344). -/
structure CompRing where
  base : BitVec 59 := 0
  size : BitVec 17 := 0
  enable : Bool := false
  db : BitVec 58 := 0
  posted : BitVec 32 := 0
  headSeen : BitVec 32 := 0
  reserved : Nat := 0
  waiting : List OutRec := []
  held : Option (OutRec × List Byte) := none
  retry : Bool := false
deriving DecidableEq, Repr

/-- A bonded-memory window (Table 12.15). -/
structure LinkWin where
  sizeLog2 : BitVec 6 := 0
  readOnly : Bool := false
  wing : Bool := false
  base : BitVec 18 := 0
deriving DecidableEq, Repr

/-- A core aperture's selection (Table 12.15). -/
structure Aperture where
  target : BitVec 32 := 0
  mode : BitVec 2 := 0
  group : BitVec 6 := 0
deriving DecidableEq, Repr

/-- Why the W1 reads or writes companion memory: which answer belongs to what. -/
inductive CompUse where
  | doorbell (cq : Bool) (ring : Nat)
  | descriptor (ring : Nat)
  | record (cq : Nat)
  | flight (ring : Nat) (seq : BitVec 32)
  | stream (core slot blk : Nat)
  | report
deriving DecidableEq, Repr

/-- A message from the W1 to the companion that has not been answered or delivered (Table 12.1). -/
inductive CompMsg where
  | rdShared (addr : Nat) (use : CompUse)
  | rdNc (addr lines : Nat) (use : CompUse)
  | wrNc (addr : Nat) (data : List Byte) (use : CompUse)
  | invAck (addr : Nat)
  | setupResp (status : Nat) (data : Desc)
deriving DecidableEq, Repr

/-- A line of the link cache (R335). -/
structure CacheLine where
  addr : Nat
  data : Desc
  pinned : Bool
deriving DecidableEq, Repr

/-- The Tirrik link (R331 to R337) with its registers (Table 12.15): the flit sequence numbers, the flits sent and not
acknowledged with their attempts, the link cache with the most recently used line first, the messages to the
companion, oldest first, the lines of EXT_IN blocks received so far (core, slot, block, line, data), and whether a training
attempt runs. -/
structure Link where
  version : Byte := 0
  width : BitVec 6 := 0
  up : Bool := false
  resends : BitVec 31 := 0
  resendSat : Bool := false
  badFlits : BitVec 31 := 0
  badSat : Bool := false
  errCode : BitVec 12 := 0
  setupFault : Code := 0
  setupTarget : BitVec 32 := 0
  wins : List (Nat × LinkWin) := []
  opMap0 : Word := 0x3333333333333333
  opMap1 : Word := 0x3333333333333333
  apsel : List (Nat × Aperture) := []
  rxExpect : BitVec 12 := 0
  rxNak : Bool := false
  txNext : BitVec 12 := 0
  replay : List (BitVec 12 × Nat) := []
  cache : List CacheLine := []
  toComp : List CompMsg := []
  lines : List (Nat × Nat × Nat × Nat × Desc) := []
  training : Bool := false
deriving DecidableEq, Repr

/-- How far a descriptor in flight has come. -/
inductive Stage where
  | queued
  | running
  | decided
deriving DecidableEq, Repr

/-- A descriptor in flight (R345): fetched and without a posted outcome decided. order is its place in the order of
fetching; writes are its writes not yet acknowledged; ready is set when nothing but the commit point remains; status
is its completion status. -/
structure Flight where
  ring : Nat
  seq : BitVec 32
  words : Desc
  wing : Nat
  order : Nat
  stage : Stage := .queued
  writes : Nat := 0
  ready : Bool := false
  status : Nat := 0
  aux : List (Nat × Nat) := []
  after : Option (Nat × BitVec 32) := none
deriving DecidableEq, Repr

end Sys2Proof.Machine
end

