-- ==== Sys2Proof/Machine/PlinthState.lean ====
section
/-!
DEFINITION. The state of the channels and clusters, of the two wings and their plinth controllers, and of the module:
health, power, security, sideband and test access port, with the Reset column as the default of each field.
-/

namespace Sys2Proof.Machine

/-- A block with its side field (Table 6.3). -/
structure Block where
  data : List Byte
  crc : BitVec 32
  tag : BitVec 32
deriving DecidableEq, Repr

/-- A read that a channel has accepted and not delivered: who asked, the block as it stands at acceptance, and whether
it missed the reuse cache (R176, R178). -/
structure ChanRead where
  core : Nat
  slot : Nat
  run : Nat
  blk : Nat
  block : Nat
  content : Block
  miss : Bool
  slotNo : Nat
deriving DecidableEq, Repr

/-- An answer of a channel that has not left its attach router: the core and the slot it goes to, its ORDER, the attach core's beat
at which it leaves, and for read data the block (R176, R251). -/
structure ChanAnswer where
  core : Nat
  slot : Nat
  order : Bool
  due : Nat
  data : Option (Nat × Nat × Nat)
deriving DecidableEq, Repr

/-- A logical memory channel (R176 to R183, Table 6.8): its reads and its writes not yet answered, oldest first, its answers not yet on the mesh, the slots of its
last read, of its last write and of its last DRAM operations, newest first (Table 6.4), its reuse cache with the most recently used
line first, and its counters. -/
structure Chan where
  reads : List ChanRead := []
  writes : List (Option (Nat × Nat)) := []
  answers : List ChanAnswer := []
  readSlot : Option Nat := none
  writeSlot : Option Nat := none
  dram : List Nat := []
  cache : List (Nat × Block) := []
  hits : BitVec 31 := 0
  hitSat : Bool := false
  misses : BitVec 31 := 0
  missSat : Bool := false
  nWrites : BitVec 31 := 0
  writeSat : Bool := false
  extOps : BitVec 31 := 0
  extSat : Bool := false
deriving DecidableEq, Repr

/-- A cluster: its registers (Tables 2.7, 6.8, 15.4), its voltage offsets in steps of 5 mV, its junction sensors and
what holds its compute rail at retention (R411, R420 to R425); retRows and retPos are the retired rows and positions
(PROW × 256 + PCOL) of the repair state in force (R24). -/
structure Cluster where
  chanMap : List (Nat × Nat) := []
  memErrAddr : BitVec 48 := 0
  memErrKind : BitVec 4 := 0
  memErrCode : BitVec 12 := 0
  waitPermille : BitVec 10 := 0
  lagging : Bool := false
  groups : Word := 0
  balance : Int := 0
  throttle : Nat := 0
  railUp : Bool := false
  regionOff : Bool := false
  railFault : Bool := false
  offReads : Nat := 0
  coolReads : Nat := 0
  coolTicks : Nat := 0
  tmax : Int := 0
  invalid : BitVec 16 := 0
  powerW : BitVec 16 := 0
  ballastW : BitVec 16 := 0
  retRows : List Nat := []
  retPos : List Nat := []
  reserveLow : Bool := false
  geomLost : Bool := false
  selfTested : Bool := false
deriving DecidableEq, Repr

/-- An entry of the spall map (Table 14.5). Two facts that its bits do not tell apart are the model's own fields (log 43):
spared says that a wire unit runs on its spare group, and worn which spares of a core position have failed: bit 0 the spare
MAC column, bit 1 + b the spare column group of bank b. -/
structure SpallEntry where
  kind : BitVec 4
  loc : BitVec 24
  state : BitVec 2 := 0
  detail : Word := 0
  cause : Code := 0
  transients : BitVec 7 := 0
  transSat : Bool := false
  spared : Bool := false
  worn : BitVec 9 := 0
deriving DecidableEq, Repr

/-- A unit in the plinth controllers' memory: boundaries of observation left, and when its last transient verdict
came, in powered seconds (R387 to R389); packFailed says whether it failed the last run of the pack (R407), and code is the event
that put a unit which the spall map never holds under observation (log 40). -/
structure UnitHealth where
  obsLeft : Nat := 0
  lastTransient : Option Nat := none
  packFailed : Bool := false
  code : Code := 0
deriving DecidableEq, Repr

/-- An entry of the health log (Table 14.8). -/
structure LogEntry where
  code : Code
  kind : BitVec 4
  loc : BitVec 24
  verdict : BitVec 3
  pack : Bool
  result : Code
  seconds : BitVec 32
  boundary : BitVec 32
deriving DecidableEq, Repr

/-- The registers of Table 14.8 that are not per wing, the spall map and the health log. -/
structure Health0 where
  autoTest : Bool := true
  period : Byte := 0x18
  obsSteps : BitVec 32 := 0x2710
  repeatWindow : Byte := 0x18
  lastEvent : Code := 0
  spall : List SpallEntry := []
  units : List (Nat × UnitHealth) := []
  log : List (Nat × LogEntry) := []
  written : BitVec 32 := 0
  writtenSat : Bool := false
  newest : BitVec 10 := 0
  spallIndex : BitVec 20 := 0
  logIndex : BitVec 10 := 0
deriving DecidableEq, Repr

/-- The test packs (Table 14.8, R406, R407). -/
structure Pack where
  activeId : BitVec 16 := 0
  pendingId : BitVec 16 := 0
  suspect : Bool := false
  state : BitVec 3 := 0
  fault : Code := 0
  src : BitVec 48 := 0
  len : BitVec 25 := 0
  activeDigest : BitVec 256 := 0
  pendingDigest : BitVec 256 := 0
deriving DecidableEq, Repr

/-- A loaded program (R349): its image, its seed, the wing that it was loaded on, and whether a CORE_LIMIT was written since
it was loaded (R294). -/
structure Prog where
  image : Image
  seed : Word
  wing : Nat
  limitWritten : Bool := false
deriving DecidableEq, Repr

/-- The step, update or refresh schedule that runs on a wing: its descriptor, its program and step, the layer it is in,
that layer's start beat, and how many layers have been sampled without a flag (R53, R64). -/
structure Run where
  ring : Nat
  seq : BitVec 32
  handle : Nat
  sel : Nat
  layer : Nat := 0
  start : Nat := 0
  began : Bool := false
  sampled : Nat := 0
deriving DecidableEq, Repr

/-- How a named group was decided in the prologue of a pass (R143), with the roots in force when it started (R149). -/
inductive Fate where
  | bad | stale | frozen | replay | advance
deriving DecidableEq, Repr

/-- A group named by a running pass, with the base rate that the pass takes for it (R130, R133, R135); bad says that R129 makes the
group of a refresh bad. -/
structure GroupRun where
  group : Nat
  fate : Fate
  target : Nat
  entry : Desc
  rate : F32 := 0
  bad : Bool := false
deriving DecidableEq, Repr

/-- The counts of a result record (Table 5.8). -/
structure PassCounts where
  updated : Nat := 0
  replayed : Nat := 0
  skew : Nat := 0
  frozen : Nat := 0
  nonfinite : Nat := 0
  stale : Nat := 0
  bad : Nat := 0
  firstSkew : Option (Nat × Nat × Nat) := none
  mirrorSkew : Nat := 0
  nonconv : Nat := 0
deriving DecidableEq, Repr

/-- An UPDATE or ROOT_REFRESH pass that runs on a wing (R143 to R157): the table registers sampled at its first beat,
the groups, the work units disposed of so far, the frames sent to the mirror, and its counts. -/
structure Pass where
  ring : Nat
  seq : BitVec 32
  groupBase : Nat
  curveBase : Nat
  curveLimit : Nat
  groups : List GroupRun := []
  prologue : Bool := false
  done : Nat := 0
  sent : Nat := 0
  ended : Bool := false
  returned : Bool := false
  resultSent : Bool := false
  counts : PassCounts := {}
deriving DecidableEq, Repr

/-- A wafer course at a root (R268), as Table 9.8 dumps it. -/
structure WaferCourse where
  arrived : Nat := 0
  participants : Nat := 0
  gen : Bool := false
  overran : Bool := false
deriving DecidableEq, Repr

/-- What a re-form in progress holds (R376 to R379): its phase, the REFORM that started it, the mode it forms, its
cause, and what it found. -/
structure ReformRun where
  phase : Nat := 1
  byRing : Nat := 0
  bySeq : BitVec 32 := 0
  byDesc : Bool := false
  toSplit : Bool := false
  asked : Bool := false
  cause : Code := 0
  repaired : Bool := false
  forced : Bool := false
  units : List (TestUnit × Code) := []
deriving DecidableEq, Repr

/-- A drain that runs or has been asked for (R209 to R215): its cause, whether it takes snapshots, the code that led
to it, the index of the step that it follows, its beat d and its bound. -/
structure DrainRun where
  cause : BitVec 2
  code : Code
  step : BitVec 32 := 0
  active : Bool := false
  startBeat : Nat := 0
  bound : Nat := 0
deriving DecidableEq, Repr

/-- A TEST_WINDOW that runs (R403 to R405): what it selects, whether its budget has run out, and what it found. -/
structure WindowRun where
  ring : Nat
  seq : BitVec 32
  due : Bool
  full : Bool
  observed : Bool
  pack : Bool
  mask : Nat
  budgetMs : Nat
  expired : Bool := false
  found : Bool := false
  left : Bool := false
  repaired : Bool := false
deriving DecidableEq, Repr

/-- The power controller of a wing (Tables 15.3, R411 to R419): V_common in mV, the preferred and followed points, LIMIT
and GATING, the ballast floor F and the expected power E of the step in mW with the highest 1 ms power of its run so far,
the last highest powers by program, step selector and point, and the wing's 1 ms powers of the last 2 s, newest first. -/
structure WingPower where
  vCommon : Nat := 0
  prefOp : BitVec 3 := 3
  following : Bool := false
  followOp : BitVec 3 := 0
  limit : BitVec 3 := 0
  gating : Bool := false
  ballast : Nat := 0
  e : Nat := 0
  expected : List (Nat × Nat) := []
  peakRun : Nat := 0
  startWaits : Bool := false
  ms : List Nat := []
deriving DecidableEq, Repr

/-- One wing with its plinth controller. base is the state of every core of the wing that cores does not list; paceDirty says
that the reference was out of its limits in the present pace window (R56, R70), queuesLost that a drain or the coupling has timed
out and the next re-form clears the queues in place of a drain (R66, R212). -/
structure WingState where
  base : Core := {}
  cores : List (Nat × Core) := []
  phase : BitVec 4 := 0
  lastKind : BitVec 3 := 1
  failCode : Code := 0
  elapsed : BitVec 14 := 0
  attn : Bool := false
  times : List (Nat × Nat) := []
  warmPhase : Nat := 0
  fwVerified : Option (List Nat) := none
  capDue : Bool := false
  turnRing : Nat := 0
  turnLeft : Nat := 0
  paceCount : BitVec 32 := 0
  paceValid : Bool := false
  refFault : Bool := false
  paceDirty : Bool := false
  refWait : Nat := 0
  windowTag : Byte := 0
  coupled : Bool := false
  epoch : BitVec 2 := 0
  draining : Bool := false
  drainCause : BitVec 3 := 0
  allEmpty : Bool := true
  drainTimeout : Bool := false
  lastDrain : BitVec 24 := 0
  drain : Option DrainRun := none
  queuesLost : Bool := false
  level : Bool := true
  snapValid : Bool := false
  snapFault : Code := 0
  snapStep : BitVec 32 := 0
  overCourse : BitVec 6 := 0
  overValid : Bool := false
  wafer : List (Nat × WaferCourse) := []
  waferSnap : List (Nat × WaferCourse) := []
  progs : List (Nat × Prog) := []
  loading : Option (Nat × Prog) := none
  run : Option Run := none
  pass : Option Pass := none
  window : Option WindowRun := none
  reform : Option ReformRun := none
  reformDue : Option Code := none
  repairDue : Bool := false
  lastCommitted : Bool := false
  bTests : List (TestUnit × Code) := []
  fTests : List (TestUnit × Code) := []
  boundaryDue : Bool := false
  boundaryRun : Bool := false
  boundaries : BitVec 32 := 0
  lastSlice : Option Nat := none
  overdue : Bool := false
  changed : BitVec 48 := 0
  moved : BitVec 15 := 0
  movedSat : Bool := false
  power : WingPower := {}
  fab : Fabric := {}
  haltPending : Bool := false
  halted : Bool := false
deriving DecidableEq, Repr

/-- A mirror-source entry (Table 10.5). -/
structure MirrorSrc where
  owner : BitVec 20 := 0
  valid : Bool := false
  offsetGib : BitVec 10 := 0
deriving DecidableEq, Repr

/-- The module's power registers (Table 15.3) and measurement: samples of the last millisecond and the 1 ms powers of
the last 2 s, newest first, in mW; energy in units of 10 nJ. -/
structure Power where
  cap : BitVec 16 := 0x1A4
  slope : BitVec 12 := 0xFA
  westShare : BitVec 7 := 0x32
  vin : BitVec 16 := 0
  iin : BitVec 16 := 0
  samples : List Nat := []
  ms : List Nat := []
  count : Nat := 0
  energy : Nat := 0
  lastFault : Code := 0
  errCluster : BitVec 6 := 0
  tripped : Bool := false
  flowStop : Bool := false
  inputFault : Bool := false
deriving DecidableEq, Repr

/-- A firmware slot (R434): its state, its SVN and build number, and the digests of its plinth and core firmware. -/
structure FwSlot where
  state : BitVec 2 := 0
  svn : Byte := 0
  id : BitVec 16 := 0
  digest : BitVec 256 := 0
deriving DecidableEq, Repr

/-- A security operation that runs (R444). -/
inductive SecOp where
  | fwInstall (svn : Byte) (id : BitVec 16) (digest : BitVec 256) (slot : Nat)
  | packInstall (id : BitVec 16) (digest : BitVec 256)
  | change (setting old new : Nat)
  | attest (companion : Bool) (addr : Word)
deriving DecidableEq, Repr

/-- An entry of the setting ledger (Table 16.5). -/
structure LedgerEntry where
  setting : BitVec 4
  old : Byte
  new : Byte
  rebuilt : Bool
  lifeH : BitVec 32
deriving DecidableEq, Repr

/-- The security state (R434 to R448, Table 16.7): fuse counts, firmware slots, ledger, link records, registers; inForce
is the firmware slot in force, lifeSamples the power samples of the bring-ups before this one (R445). -/
structure Security where
  identGen : Nat := 0
  floor : Nat := 0
  debugTrans : Nat := 0
  unlockPending : Bool := false
  slot0 : FwSlot := { state := 1 }
  slot1 : FwSlot := {}
  active : Bool := false
  trialMark : Option Bool := none
  inForce : Bool := false
  onTrial : Bool := false
  fellBack : Bool := false
  fwSrc : BitVec 48 := 0
  fwLen : BitVec 24 := 0
  fwState : BitVec 3 := 0
  fwFault : Code := 0
  cmdState : BitVec 3 := 0
  cmdFault : Code := 0
  op : Byte := 0
  arg : Byte := 0
  addr : Word := 0
  nonce : List (Nat × Word) := []
  ledger : List LedgerEntry := []
  ledgerIndex : BitVec 9 := 0
  measIndex : BitVec 2 := 0
  running : Option SecOp := none
  links : List (List Byte) := []
  lifeSamples : Nat := 0
  trialFailed : Bool := false
deriving DecidableEq, Repr

/-- The sideband target and the housekeeping block (R454 to R459), with the sideband's copies of the index fields, the
copy of the power registers taken at a trip (R457), the last in-band interrupt's byte and whether it waits for its retry
(R458), and what the last transfer and command code returned. -/
structure Sideband where
  dynAddr : Option (BitVec 7) := none
  ibiOn : Bool := false
  ibiDue : Bool := false
  ibiRefused : Bool := false
  ibi : Byte := 0
  offset : BitVec 16 := 0
  plinthReady : Bool := false
  errOffset : BitVec 16 := 0
  errKind : BitVec 2 := 0
  refused : BitVec 31 := 0
  refusedSat : Bool := false
  spallIndex : BitVec 20 := 0
  logIndex : BitVec 10 := 0
  ledgerIndex : BitVec 9 := 0
  measIndex : BitVec 2 := 0
  snapTherm : Word := 0
  snapErr : Word := 0
  snapInput : Word := 0
  reply : List Byte := []
  ccc : List Byte := []
deriving DecidableEq, Repr

/-- The instructions of the test access port that every debug state offers (R446). -/
inductive TapInstr where
  | bypass | idcode | samplePreload | extest
deriving DecidableEq, Repr

/-- The test access port (R446, R460): the instruction in force, the values held for the boundary register's cells and
the last capture, the levels that an EXTEST drives, and what the data register shifts out. -/
structure Tap where
  ir : TapInstr := .idcode
  preload : List Bool := []
  capture : List Bool := []
  driven : Option (List Bool) := none
  dr : BitVec 32 := 0
deriving DecidableEq, Repr

/-- The pins (Table 17.2), the address straps MADDR (R454) and the supply state. -/
structure Pins where
  maddr : BitVec 2 := 0
  housekeeping : Bool := true
  pwrOk : Bool := false
  coldRst : Bool := false
  flowOk : Bool := false
  thermTrip : Bool := false
  attn : Bool := false
deriving DecidableEq, Repr

end Sys2Proof.Machine
end

