-- ==== Sys2Proof/Machine/State.lean ====
section
/-!
DEFINITION. The state of the module as plain data, the reasons a command can stop, and the state after reset: the
housekeeping supply just up, nothing powered, every register at its Reset column (log 1 to 3).
-/

namespace Sys2Proof.Machine

/-- The reasons for which the machine stops with a fault. There is none: every fault that the spec names is an effect on
State (a code recorded, a step ended, a wing FAILED), after which the part takes its next command. -/
inductive Fault where
deriving DecidableEq, Repr

/-- The reasons for which a command is refused. -/
inductive Refusal where
  /-- Raised by an arm of Dispatch whose command has no meaning yet. Safe: nothing is claimed of it. -/
  | notModelled (mnemonic : String)
  /-- Raised by a meaning whose operand names a core, wing, cluster, channel, port, ring, laser input or link that the
  module does not have (R18 to R22, R31, R34, R340): no such event can occur. Safe: nothing is claimed of it. -/
  | noSuchUnit
deriving DecidableEq, Repr

/-- The state of the module. Registers of the plinth block that both wings share stand here; a set-up write that takes
effect after the running step's outcome waits in deferred (R361). -/
structure State where
  split : Bool := false
  bonded : List Host.Cell := []
  side : List (Nat × (BitVec 32 × BitVec 32)) := []
  west : WingState := {}
  east : WingState := {}
  clusters : List (Nat × Cluster) := []
  chans : List (Nat × Chan) := []
  ports : List (Nat × Port) := []
  link : Link := {}
  sq : List (Nat × SubRing) := []
  cq : List (Nat × CompRing) := []
  flights : List Flight := []
  fetched : Nat := 0
  domainId : BitVec 16 := 0
  domainSet : Bool := false
  mirrorSrc : List (Nat × MirrorSrc) := []
  mapFault : Code := 0
  mapEntry : BitVec 13 := 0
  mapDevice : BitVec 20 := 0
  mapWing : Bool := false
  hopLimit : BitVec 5 := 8
  extTimeout : BitVec 16 := 10
  groupBase : BitVec 39 := 0
  groupLimit : BitVec 13 := 0
  curveBase : BitVec 39 := 0
  curveLimit : BitVec 13 := 0
  seamKnown : Bool := false
  capstoned : Bool := false
  deferred : List (Nat × Word) := []
  health : Health0 := {}
  pack : Pack := {}
  power : Power := {}
  sec : Security := {}
  sb : Sideband := {}
  tap : Tap := {}
  pins : Pins := {}
  freeCtr : Nat := 0
  pending : List Instr := []
deriving DecidableEq, Repr

/-- The ports as the empty spall map binds them: the first 16 physical ports of each side to its 16 gateways in order
(R34, R313; log 3). -/
def resetPorts : List (Nat × Port) :=
  (List.range 64).map (fun l => (20 * (l / 16) + l % 16, { bound := true, logical := BitVec.ofNat 6 l }))

/-- The module right after its housekeeping supply has come up (R451, R459): every register at its Reset column. -/
def State.reset : State := { ports := resetPorts }

end Sys2Proof.Machine
end

