-- ==== Sys2Proof/Machine/Ops.lean ====
section
/-!
DEFINITION. The named operations over the module's state: units and their places (R18 to R24, R31), bonded memory
(R171 to R182), registers that several families write, and the fate of descriptors (R356).
-/

namespace Sys2Proof.Machine

/-- What a command answers. -/
abbrev Res := Host.Outcome State Fault Refusal

/-! ### Units -/

/-- Global column of a core word (R19). -/
def coreX (c : Nat) : Nat := c % 4096
/-- Global row of a core word (R19). -/
def coreY (c : Nat) : Nat := c / 4096
/-- Whether a global word names a core (R22). -/
def validCore (c : Nat) : Bool := decide (coreX c < 832) && decide (coreY c < 816)
/-- The core at a column and row. -/
def mkCore (x y : Nat) : Nat := y * 4096 + x
/-- The wing of a core: 0 west, 1 east (R20). -/
def wingOf (c : Nat) : Nat := if coreX c < 416 then 0 else 1
/-- The cluster of a core (R20). -/
def clusterOf (c : Nat) : Nat := coreY c / 136 * 8 + coreX c / 104
/-- The wing of a cluster (R20). -/
def wingOfCluster (n : Nat) : Nat := if n % 8 < 4 then 0 else 1
/-- The wing of a global channel (R31). -/
def wingOfChan (c : Nat) : Nat := wingOfCluster (c / 32)
/-- The attach core of a global channel (R31). -/
def attachCore (ch : Nat) : Nat :=
  let n := ch / 32
  let k := ch % 32
  mkCore (n % 8 * 104 + 13 + 26 * (k % 4)) (n / 8 * 136 + 8 + 17 * (k / 4))
/-- A wing-relative core word as a global one (R21, R22); none when it names no core. -/
def globalCore (split : Bool) (w c : Nat) : Option Nat :=
  if split then (if coreX c < 416 ∧ coreY c < 816 then some (mkCore (coreX c + 416 * w) (coreY c)) else none)
  else if validCore c then some c else none
/-- A global core word as a program of a wing names it (R21). -/
def localCore (split : Bool) (w c : Nat) : Nat := if split then mkCore (coreX c - 416 * w) (coreY c) else c

/-- The wing whose plinth controller leads: in whole-wafer mode the west one (R38). -/
def State.lead (s : State) (w : Nat) : Nat := if s.split then w else 0
/-- A wing. -/
def State.wing (s : State) (w : Nat) : WingState := if w = 0 then s.west else s.east
/-- Replaces a wing. -/
def State.setWing (s : State) (w : Nat) (x : WingState) : State := if w = 0 then { s with west := x } else { s with east := x }
/-- Changes a wing. -/
def State.onWing (s : State) (w : Nat) (f : WingState → WingState) : State := s.setWing w (f (s.wing w))
/-- The wings that a wing's plinth controller directs (R38). -/
def State.wings (s : State) (w : Nat) : List Nat := if s.split then [w] else [0, 1]
/-- Changes the state of every wing that the controller of w directs. -/
def State.onWings (s : State) (w : Nat) (f : WingState → WingState) : State := (s.wings w).foldl (fun t v => t.onWing v f) s

/-- A core of a wing. -/
def WingState.core (x : WingState) (c : Nat) : Core := Map.get x.base x.cores c
/-- Applies f to every core of a wing. -/
def WingState.mapCores (x : WingState) (f : Core → Core) : WingState :=
  { x with base := f x.base, cores := x.cores.map (fun e => (e.1, f e.2)) }
/-- Whether every core of a wing satisfies p; the state of the unlisted ones counts while there are any of the 339,456 (R18). -/
def WingState.allCores (x : WingState) (p : Core → Bool) : Bool :=
  (p x.base || Nat.ble 339456 x.cores.length) && x.cores.all (fun e => p e.2)
/-- The first listed core, in order of Y and then X, that satisfies p (R167, R212). -/
def WingState.firstCore (x : WingState) (p : Core → Bool) : Option Nat := (x.cores.find? (fun e => p e.2)).map (·.1)
/-- Lists the cores of a set, so that each can change on its own. -/
def WingState.listCores (x : WingState) (cs : List Nat) : WingState :=
  { x with cores := cs.foldl (fun m c => Map.set m c (Map.get x.base m c)) x.cores }

/-- A core of the module. -/
def State.core (s : State) (c : Nat) : Core := (s.wing (wingOf c)).core c
/-- Replaces a core. -/
def State.setCore (s : State) (c : Nat) (x : Core) : State :=
  s.onWing (wingOf c) (fun w => { w with cores := Map.set w.cores c x })
/-- Changes a core. -/
def State.onCore (s : State) (c : Nat) (f : Core → Core) : State := s.setCore c (f (s.core c))
/-- Applies f to every core of the wings that w's controller directs. -/
def State.mapCores (s : State) (w : Nat) (f : Core → Core) : State :=
  (s.wings w).foldl (fun s v => s.onWing v (fun x => x.mapCores f)) s
/-- Whether every core of the wings that w's controller directs satisfies p. -/
def State.allCores (s : State) (w : Nat) (p : Core → Bool) : Bool := (s.wings w).all (fun v => (s.wing v).allCores p)
/-- The first core in order of Y and then X that satisfies p, over the wings that w's controller directs. -/
def State.firstCore (s : State) (w : Nat) (p : Core → Bool) : Option Nat :=
  match (s.wings w).filterMap (fun v => (s.wing v).firstCore p) with
  | [] => none
  | a :: as => some (as.foldl min a)

/-- A cluster. -/
def State.cluster (s : State) (n : Nat) : Cluster := Map.get {} s.clusters n
/-- Changes a cluster. -/
def State.onCluster (s : State) (n : Nat) (f : Cluster → Cluster) : State :=
  { s with clusters := Map.upd {} s.clusters n f }
/-- A logical channel. -/
def State.chan (s : State) (n : Nat) : Chan := Map.get {} s.chans n
/-- Changes a logical channel. -/
def State.onChan (s : State) (n : Nat) (f : Chan → Chan) : State := { s with chans := Map.upd {} s.chans n f }
/-- A physical port. -/
def State.port (s : State) (p : Nat) : Port := Map.get {} s.ports p
/-- Changes a physical port. -/
def State.onPort (s : State) (p : Nat) (f : Port → Port) : State := { s with ports := Map.upd {} s.ports p f }

/-- Guards a command that names a core. -/
def atCore (c : Nat) (r : Res) : Res := if validCore c then r else .refused .noSuchUnit
/-- Guards a command that names a unit numbered below n. -/
def below (n i : Nat) (r : Res) : Res := if i < n then r else .refused .noSuchUnit
/-- Guards a command that names a wing. -/
def atWing (w : Nat) (r : Res) : Res := below 2 w r

/-! ### Physical positions (R23, R24) -/

/-- The n-th number from lo on that is not in a list; f bounds the search. -/
def nthFree (xs : List Nat) : Nat → Nat → Nat → Nat
  | 0, lo, _ => lo
  | f + 1, lo, n =>
    if xs.contains lo then nthFree xs f (lo + 1) n
    else if n = 0 then lo else nthFree xs f (lo + 1) (n - 1)

/-- The physical row of a logical row of a cluster (R24). -/
def Cluster.physRow (x : Cluster) (yl : Nat) : Nat := nthFree x.retRows 160 0 yl
/-- The retired columns of a physical row. -/
def Cluster.retCols (x : Cluster) (prow : Nat) : List Nat := (x.retPos.filter (fun p => p / 256 == prow)).map (· % 256)
/-- The physical position word of a logical core (R23, R24). -/
def State.position (s : State) (c : Nat) : Nat :=
  let n := clusterOf c
  let x := s.cluster n
  let prow := x.physRow (coreY c % 136)
  n * 65536 + prow * 256 + nthFree (x.retCols prow) 160 0 (coreX c % 104)

/-- The logical core that stands on a physical position, if one does. -/
def State.coreAt (s : State) (pos : Nat) : Option Nat :=
  let n := pos / 65536 % 64
  let x := s.cluster n
  let prow := pos / 256 % 256
  let pcol := pos % 256
  if x.retRows.contains prow || (x.retCols prow).contains pcol then none
  else
    let yl := prow - (x.retRows.filter (· < prow)).length
    let xl := pcol - ((x.retCols prow).filter (· < pcol)).length
    if yl < 136 ∧ xl < 104 ∧ n < 48 then some (mkCore (n % 8 * 104 + xl) (n / 8 * 136 + yl)) else none

/-! ### Bonded memory -/

/-- Bytes of bonded memory that a mode gives (R171, R172). -/
def bondedTop (split : Bool) : Nat := if split then 0x6000000000 else 0xC000000000
/-- The global address of a bonded address that a wing names (R171, R172). -/
def globalAddr (split : Bool) (w a : Nat) : Nat :=
  if split then
    let q := a / 2 ^ 29 / 32
    (32 * (8 * (q / 4) + q % 4 + 4 * w) + a / 2 ^ 29 % 32) * 2 ^ 29 + a % 2 ^ 29
  else a
/-- The bonded address by which a wing names a global one (R172). -/
def wingAddr (split : Bool) (g : Nat) : Nat :=
  if split then
    let ch := g / 2 ^ 29
    let n := ch / 32
    ((n / 8 * 4 + n % 4) * 32 + ch % 32) * 2 ^ 29 + g % 2 ^ 29
  else g

/-- The physical channel that serves a global channel (R32, Table 6.8). -/
def State.physChan (s : State) (ch : Nat) : Nat := Map.get (ch % 32) (s.cluster (ch / 32)).chanMap (ch % 32)
/-- The stored block with a global block number (R173, R175). -/
def State.block (s : State) (n : Nat) : Block :=
  let f := Map.get (zeroBlockCrc, 0#32) s.side n
  { data := Mem.read s.bonded (512 * n) 512, crc := f.1, tag := f.2 }
/-- Whether a block passes its CRC check (R173). -/
def Block.good (b : Block) : Bool := b.crc == blockCrc b.data b.tag
/-- A block formed from data and a tag (R174). -/
def mkBlock (data : List Byte) (tag : BitVec 32) : Block :=
  { data := padTo 512 data, crc := blockCrc (padTo 512 data) tag, tag := tag }
/-- The channel of a global block (R171). -/
def blockChan (n : Nat) : Nat := n / 2 ^ 20
/-- Whether a scheduled read finds its block in the reuse cache (R181). -/
def Chan.lookup (x : Chan) (n : Nat) : Option Block := (x.cache.find? (fun l => l.1 == n)).map (·.2)
/-- Makes a line the most recently used of its set (R181). -/
def Chan.touch (x : Chan) (n : Nat) (b : Block) : Chan := { x with cache := (n, b) :: x.cache.filter (fun l => l.1 != n) }
/-- Places a block in its set of 16 ways, in place of the least recently used one where the set is full (R181). -/
def Chan.place (x : Chan) (n : Nat) (b : Block) : Chan :=
  let set (l : Nat × Block) : Bool := l.1 % 128 == n % 128
  let same := x.cache.filter set
  let kept := if 16 ≤ same.length then
      match same.getLast? with
      | some v => x.cache.filter (fun l => l.1 != v.1)
      | none => x.cache
    else x.cache
  { x with cache := (n, b) :: kept }

/-- The slot of a channel: that of its attach core's beat (R176). -/
def State.chanSlot (s : State) (ch : Nat) : Nat := (s.core (attachCore ch)).pace.beat.toNat / 4
/-- A read accepted in a slot takes the block as a write of the same slot leaves it (R178). -/
def ChanRead.refresh (r : ChanRead) (slot n : Nat) (b : Block) : ChanRead :=
  if r.slotNo = slot ∧ r.block = n then { r with content := b } else r
/-- Writes a whole block with its side field; the matching line of the reuse cache is invalidated, and a read of the same slot
returns the block as written (R174, R178, R182). -/
def State.putBlock (s : State) (n : Nat) (b : Block) : State :=
  let s' := { s with bonded := Mem.write s.bonded (512 * n) b.data, side := Map.set s.side n (b.crc, b.tag) }
  let x := s'.chan (blockChan n)
  if x.cache.any (fun l => l.1 == n) || x.reads.any (fun r => r.block == n) then
    s'.onChan (blockChan n) (fun c => { c with
      cache := c.cache.filter (fun l => l.1 != n),
      reads := c.reads.map (fun r => r.refresh (s'.chanSlot (blockChan n)) n b) })
  else s'
/-- Whether a channel has room for a DRAM operation in a slot: at most 3 in any 4 consecutive slots (Table 6.4). -/
def Chan.room (x : Chan) (slot : Nat) : Bool := Nat.blt (x.dram.filter (fun t => Nat.blt slot (t + 4) && Nat.ble t slot)).length 3
/-- A scheduled DRAM operation of a slot (Table 6.4). -/
def Chan.useDram (x : Chan) (slot : Nat) : Chan := { x with dram := (slot :: x.dram).take 3 }
/-- A scheduled read looks its block up at acceptance: the block, whether it missed, and the channel with its counts, a hit the
most recently used of its set, a miss placed where the stream asks for it (R181, R183, R188). -/
def State.lookRead (s : State) (n : Nat) (alloc : Bool) : State × Block × Bool :=
  let ch := blockChan n
  let x := s.chan ch
  match x.lookup n with
  | some b =>
    let y := if b.good then x.touch n b else x
    (s.onChan ch (fun _ => { y with hits := (satAdd x.hits x.hitSat 1).1, hitSat := (satAdd x.hits x.hitSat 1).2 }), b, false)
  | none =>
    let b := s.block n
    let y := if alloc then x.place n b else x
    (s.onChan ch (fun _ => { y with
      misses := (satAdd x.misses x.missSat 1).1, missSat := (satAdd x.misses x.missSat 1).2 }), b, true)
/-- The kind of CLUS_MEM_ERR and the code of a scheduled read whose block fails its check: a read CRC, or a cache line (Table 6.8,
R174, R181). -/
def badRead (miss : Bool) : Nat × Nat := if miss then (0, 9) else (1, 0xA)
/-- The data of n whole blocks from a global block on, if all are good. -/
def State.readBlocks (s : State) (n : Nat) : Nat → Option (List Byte)
  | 0 => some []
  | k + 1 =>
    if (s.block n).good then (s.readBlocks (n + 1) k).map (fun r => (s.block n).data ++ r) else none
/-- Counts n unscheduled DRAM operations of a channel (R179). -/
def State.countExt (s : State) (ch n : Nat) : State :=
  s.onChan ch (fun c =>
    let (v, f) := satAdd c.extOps c.extSat n
    { c with extOps := v, extSat := f })
/-- An unscheduled whole-block write (R174, R179). -/
def State.extWrite (s : State) (n : Nat) (b : Block) : State := (s.putBlock n b).countExt (blockChan n) 1
/-- Merges bytes into a block, keeping its tag (R180); none when the block's CRC fails. -/
def State.mergeBlock (s : State) (g : Nat) (bs : List Byte) : Option State :=
  let n := g / 512
  let b := s.block n
  if b.good then
    let d := b.data.take (g % 512) ++ bs ++ b.data.drop (g % 512 + bs.length)
    some ((s.extWrite n (mkBlock d b.tag)).countExt (blockChan n) 1)
  else none
/-- Counts the blocks that hold n bytes from a global address on as reads under R179 of their channels (Table 6.8). -/
def State.countExtBytes (s : State) (g n : Nat) : State :=
  (List.range (ceilDiv (g + n) 512 - g / 512)).foldl (fun t i => t.countExt (blockChan (g / 512 + i)) 1) s
/-- The global block at a bonded address of a wing. -/
def State.blockAt (s : State) (w a : Nat) : Nat := globalAddr s.split w a / 512
/-- Counts the blocks that hold n bytes from a bonded address of a wing on as reads under R179 (Table 6.8). -/
def State.countExtRead (s : State) (w a n : Nat) : State :=
  (List.range (ceilDiv (a + n) 512 - a / 512)).foldl (fun t i => t.countExt (blockChan (t.blockAt w (512 * (a / 512 + i)))) 1) s
/-- Records an event of a channel in CLUS_MEM_ERR, at the address of the block concerned (Table 6.8). -/
def State.recordChan (s : State) (g kind code : Nat) : State :=
  s.onCluster (g / 2 ^ 34) (fun x => { x with
    memErrAddr := BitVec.ofNat 48 (g / 512 * 512), memErrKind := BitVec.ofNat 4 kind, memErrCode := BitVec.ofNat 12 code })
/-- Invalidates every reuse cache line of the wings that w's controller directs (R182). -/
def State.clearCaches (s : State) (w : Nat) : State :=
  { s with chans := Map.mapIf (fun ch => (s.wings w).contains (wingOfChan ch)) (fun c => { c with cache := [] }) s.chans }

/-! ### Attention and records -/

/-- Sets ATTN of a wing; ATTN_N follows, and an in-band interrupt becomes due when it becomes asserted (R373, R458). -/
def State.attend (s : State) (w : Nat) : State :=
  let s' := s.onWing w (fun x => { x with attn := true })
  { s' with pins := { s'.pins with attn := true },
            sb := { s'.sb with ibiDue := s'.sb.ibiDue || (s'.sb.ibiOn && !s'.pins.attn) } }
/-- Powered seconds since cold reset (R408). -/
def State.seconds (s : State) : Nat := s.power.count / 100000
/-- Appends an entry to the health log (R408). -/
def State.logEntry (s : State) (w : Nat) (code : Code) (kind loc verdict : Nat) (pack : Bool) (result : Code) : State :=
  let h := s.health
  let slot := if h.writtenSat then (h.newest.toNat + 1) % 1024 else h.written.toNat % 1024
  let (n, f) := satAdd h.written h.writtenSat 1
  let e : LogEntry := { code := code, kind := BitVec.ofNat 4 kind, loc := BitVec.ofNat 24 loc,
                        verdict := BitVec.ofNat 3 verdict, pack := pack, result := result,
                        seconds := BitVec.ofNat 32 (min s.seconds 0xFFFFFFFF), boundary := (s.wing (s.lead w)).boundaries }
  { s with health := { h with log := Map.set h.log slot e, written := n, writtenSat := f,
                              newest := BitVec.ofNat 10 slot, lastEvent := if result = 0 then code else result } }
/-- Records an event of class MAP in PLINTH_MAP_ERR (R303). -/
def State.recordMap (s : State) (w : Nat) (code : Code) (entry dev : Nat) : State :=
  { s with mapFault := code, mapEntry := BitVec.ofNat 13 entry, mapDevice := BitVec.ofNat 20 dev,
           mapWing := s.split && decide (w = 1) }
/-- Records a POWER, THERMAL or FLOW event (Table 15.3). -/
def State.recordPower (s : State) (code : Code) (cluster : Nat) : State :=
  { s with power := { s.power with lastFault := code, errCluster := BitVec.ofNat 6 cluster } }

/-! ### Descriptors in flight -/

/-- FAMILY of a descriptor (Table 12.4). -/
def famOf (d : Desc) : Nat := bits d 11 4
/-- The classes of families (Table 12.5). -/
inductive FamClass where
  | array | gateway | control
deriving DecidableEq, Repr
/-- The class of a family (Table 12.5). -/
def classOf (fam : Nat) : FamClass :=
  if fam = 5 ∨ fam = 6 then .gateway else if fam = 7 ∨ fam = 8 ∨ fam = 10 then .control else .array
/-- The class of a descriptor in flight. -/
def Flight.cls (f : Flight) : FamClass := classOf (famOf f.words)
/-- Whether a descriptor in flight is the one named. -/
def Flight.named (f : Flight) (ring : Nat) (seq : BitVec 32) : Bool := f.ring == ring && f.seq == seq
/-- The descriptor in flight of a ring with a SEQ. -/
def State.flight (s : State) (ring : Nat) (seq : BitVec 32) : Option Flight := s.flights.find? (fun f => f.named ring seq)
/-- Changes a descriptor in flight. -/
def State.onFlight (s : State) (ring : Nat) (seq : BitVec 32) (f : Flight → Flight) : State :=
  { s with flights := s.flights.map (fun x => if x.named ring seq then f x else x) }
/-- The wing that a ring serves (R340). -/
def State.ringWing (s : State) (ring : Nat) : Nat := if s.split then (if ring < 64 then 0 else 1) else 0
/-- A submission ring. -/
def State.sring (s : State) (i : Nat) : SubRing := Map.get {} s.sq i
/-- Changes a submission ring. -/
def State.onSring (s : State) (i : Nat) (f : SubRing → SubRing) : State := { s with sq := Map.upd {} s.sq i f }
/-- A completion ring. -/
def State.cring (s : State) (j : Nat) : CompRing := Map.get {} s.cq j
/-- Changes a completion ring. -/
def State.onCring (s : State) (j : Nat) (f : CompRing → CompRing) : State := { s with cq := Map.upd {} s.cq j f }
/-- The array descriptor that runs on a wing (R347). -/
def State.runningArray (s : State) (w : Nat) : Option Flight :=
  s.flights.find? (fun f => f.cls == .array && f.stage == .running && f.wing == w)

/-- Enters the event that decides a descriptor: it leaves the descriptors in flight, and its record joins the outcomes
of its completion ring (R354, R356). -/
def State.settleFlight (s : State) (f : Flight) (disp : Nat) (fault : Code) (kind loc : Nat) : State :=
  let r : OutRec := { ring := f.ring, seq := f.seq, family := famOf f.words, disp := disp, status := f.status,
                      fault := fault, whereKind := kind, where_ := loc, user := BitVec.ofNat 64 (bits f.words 127 64),
                      order := f.order, array := if f.cls = .array then some f.wing else none, after := f.after }
  let s' := { s with flights := s.flights.filter (fun x => !x.named f.ring f.seq) }
  s'.onCring (s.sring f.ring).cq.toNat (fun c => { c with waiting := c.waiting ++ [r] })

/-- Decides a descriptor as COMMITTED (Table 12.11). -/
def State.commitFlight (s : State) (f : Flight) : State := s.settleFlight f 0 0 0 0
/-- Records a code of class MAP that refuses or ends a descriptor in PLINTH_MAP_ERR, with the entry and the device that it
concerns (R303). -/
def State.noteMap (s : State) (w : Nat) (code : Code) (entry dev : Nat) : State :=
  if code.toNat / 4096 = 6 then s.recordMap w code entry dev else s
/-- Decides a descriptor as REFUSED with a code (Table 12.11), naming a unit. -/
def State.refuseAt (s : State) (f : Flight) (code : Code) (kind loc : Nat) : State :=
  (s.noteMap f.wing code 0 0).settleFlight { f with status := 0 } 1 code kind loc
/-- Decides a descriptor as REFUSED with a code (Table 12.11). -/
def State.refuse (s : State) (f : Flight) (code : Code) : State := s.refuseAt f code 0 0
/-- Decides as DISCARDED every descriptor in flight that satisfies p (R356). -/
def State.discard (s : State) (p : Flight → Bool) (code : Code) : State :=
  (s.flights.filter p).foldl (fun s f => s.settleFlight { f with status := 0 } 4 code 0 0) s

end Sys2Proof.Machine
end

