-- ==== Sys2Proof/Machine/FabricOps.lean ====
section
/-!
DEFINITION. Frames (R308), the link layer of a port (R310, R311), ports and wings (R33, R484), the choice of a port
(R315), and sending (R314, R317, R477).
-/

namespace Sys2Proof.Machine

/-! ### Frames (Tables 11.2 to 11.4) -/

/-- CLASS (Table 11.2). -/
def frCls (f : Frame) : Nat := bits f.header 7 4
/-- KIND (Table 11.2). -/
def frKind (f : Frame) : Nat := bits f.header 15 8
/-- DEST_DEV (Table 11.2). -/
def frDest (f : Frame) : Nat := bits f.header 35 16
/-- SRC_DEV (Table 11.2). -/
def frSrc (f : Frame) : Nat := bits f.header 55 36
/-- HOPS (Table 11.2). -/
def frHops (f : Frame) : Nat := bits f.header 60 56
/-- FLOW (Table 11.2). -/
def frFlow (f : Frame) : Nat := bits f.header 87 64
/-- E2E_SEQ (Table 11.2). -/
def frSeq (f : Frame) : Nat := bits f.header 119 88
/-- ADDR (Table 11.2). -/
def frAddr (f : Frame) : Nat := bits f.header 167 120
/-- AUX0 (Table 11.2). -/
def frAux0 (f : Frame) : Nat := bits f.header 199 168
/-- AUX1 (Table 11.2). -/
def frAux1 (f : Frame) : Nat := bits f.header 215 200
/-- LEN8 (Table 11.2). -/
def frLen8 (f : Frame) : Nat := bits f.header 222 216
/-- E2E_CRC (Table 11.2). -/
def frCrc (f : Frame) : Nat := bits f.header 255 224
/-- The payload bytes in use (Table 11.2). -/
def frBytes (f : Frame) : List Byte := toBytes (8 * (frLen8 f)) f.payload.toNat

/-- E2E_CRC of a header and its payload: header bytes 0 to 27 with HOPS as zero, then LEN8 × 8 payload bytes (R308). -/
def e2eCrc (header : Nat) (bs : List Byte) : BitVec 32 :=
  let h := header - bits (BitVec.ofNat 256 header) 60 56 * 2 ^ 56
  crc32c (toBytes 28 h ++ bs)
/-- Whether a frame passes its end-to-end check (R318). -/
def frE2eOk (f : Frame) : Bool := (frCrc f) == (e2eCrc f.header.toNat (frBytes f)).toNat

/-- Forms a frame at its origin (R308). -/
def mkFrame (cls kind dest src hops flow seq addr aux0 aux1 : Nat) (bs : List Byte) : Frame :=
  let h := 1 + cls * 2 ^ 4 + kind * 2 ^ 8 + dest * 2 ^ 16 + src * 2 ^ 36 + hops * 2 ^ 56 + flow % 2 ^ 24 * 2 ^ 64
    + seq % 2 ^ 32 * 2 ^ 88 + addr % 2 ^ 48 * 2 ^ 120 + aux0 % 2 ^ 32 * 2 ^ 168 + aux1 % 2 ^ 16 * 2 ^ 200
    + ceilDiv bs.length 8 * 2 ^ 216
  let data := padTo (8 * ceilDiv bs.length 8) bs
  { header := BitVec.ofNat 256 (h + (e2eCrc h data).toNat * 2 ^ 224), payload := BitVec.ofNat 4096 (ofBytes data) }

/-- Whether CLASS and KIND are a pair of Table 11.4. -/
def knownKind (cls kind : Nat) : Bool :=
  match cls with
  | 0 => decide (kind ≤ 1)
  | 1 => kind == 0
  | 2 => decide (kind ≤ 2)
  | 3 => decide (1 ≤ kind ∧ kind ≤ 5)
  | _ => false
/-- Whether a frame has bad fields (R309, R314). -/
def frMalformed (f : Frame) : Bool :=
  bits f.header 3 0 != 1 || bits f.header 63 61 != 0 || bits f.header 223 223 != 0 || !knownKind (frCls f) (frKind f) ||
  decide (64 < (frLen8 f)) || (decide (16383 < (frDest f)) && !((frDest f) == 0xFFFFF && (frCls f) == 3 && (frKind f) == 5))

/-- The frame of a data slot (R308). -/
def slotFrame (x : Slot) : Frame := { header := BitVec.ofNat 256 x.toNat, payload := BitVec.ofNat 4096 (x.toNat / 2 ^ 256) }
/-- The link field of a data slot (R308). -/
def slotLink (x : Slot) : BitVec 96 := BitVec.ofNat 96 (x.toNat / 2 ^ 4352)
/-- Whether a data slot passes its link CRC, taken over bytes 0 to 555 (R308). -/
def slotCrcOk (x : Slot) : Bool := crc32c (toBytes 556 x.toNat) == BitVec.ofNat 32 (x.toNat / 2 ^ 4448)

/-! ### The link layer of a port (R310, R311) -/

/-- Credits held for a class. -/
def Port.credit (p : Port) (c : Nat) : Nat := Map.get 0 p.credits c
/-- The classes in the order in which they are served: class 3 first, then classes 0 to 2 in turn (R311). -/
def Port.order (p : Port) : List Nat := 3 :: (List.range 3).map (fun i => (p.turn + i) % 3)

/-- The link field of a slot that a port sends: LSEQ, IDLE, the answer that waits, and the credits owed, at most 255 of each class
(Table 11.3). -/
def Port.linkField (p : Port) (lseq : BitVec 16) (idle : Bool) : BitVec 96 :=
  let ans := match p.answer with
    | none => 0
    | some (nak, q) => 2 ^ 17 + (if nak then 2 ^ 18 else 0) + 2 ^ 20 * q.toNat
  BitVec.ofNat 96 (lseq.toNat + (if idle then 2 ^ 16 else 0) + ans +
    ((List.range 4).map (fun c => min 255 (Map.get 0 p.owed c) * 2 ^ (36 + 8 * c))).sum)
/-- What a link field has carried waits no more (R310, R311). -/
def Port.said (p : Port) : Port := { p with answer := none, owed := p.owed.map (fun e => (e.1, e.2 - 255)) }
/-- A data slot from a frame and a link field, with its link CRC (R308). -/
def mkSlot (f : Frame) (l : BitVec 96) : Slot :=
  let n := f.header.toNat + f.payload.toNat * 2 ^ 256 + l.toNat * 2 ^ 4352
  BitVec.ofNat 4480 (n + (crc32c (toBytes 556 n)).toNat * 2 ^ 4448)
/-- Sends one data slot: a frame with its LSEQ, or an idle frame. Slot 0 of the superframe carries the alignment marker, and slots 43
and 86 carry link-status words, a link field with its CRC (R307; log 60). -/
def Port.putSlot (p : Port) (b : Option (BitVec 16 × Frame)) : Port :=
  let n := p.pos + 1
  let q : Port := if n = 43 ∨ n = 86 then
      let l := p.linkField p.next true
      { p.said with pos := n + 1, statusOut := BitVec.ofNat 128 (l.toNat + (crc32c (toBytes 12 l.toNat)).toNat * 2 ^ 96) }
    else { p with pos := if n = 0 then 1 else n }
  { q.said with slotOut := match b with
      | some (k, f) => mkSlot f (q.linkField k false)
      | none => mkSlot ⟨0, 0⟩ (q.linkField p.next true) }
/-- A port with an answer or credits to return and no frame to send sends them in an idle frame (R307, R310, R311). -/
def Port.reply (p : Port) : Port := if p.answer.isSome || p.owed.any (fun e => e.2 != 0) then p.putSlot none else p

/-- Sends one frame: it takes a credit of its class, the next LSEQ, a place in the replay buffer and a data slot (R308, R310,
R311). -/
def Port.transmit (p : Port) (f : Frame) : Port :=
  let (n, sat) := satAdd p.framesTx p.txSat 1
  { p.putSlot (some (p.next, f)) with
           framesTx := n, txSat := sat, credits := Map.set p.credits (frCls f) (p.credit (frCls f) - 1),
           replay := p.replay ++ [(p.next, f, 0)], next := p.next + 1, winFrames := p.winFrames + 1,
           turn := if (frCls f) < 3 then ((frCls f) + 1) % 3 else p.turn }

/-- The waiting frame that goes next, if one may go: the oldest of the first class in order that holds a credit. -/
def Port.nextFrame (p : Port) : Option Frame :=
  if p.stat = .up ∧ p.replay.length < 2048 then
    p.order.findSome? (fun c => if 0 < p.credit c then p.waiting.find? (fun f => (frCls f) == c) else none)
  else none

/-- Sends waiting frames while credits and the replay buffer allow; the count bounds the frames sent. -/
def Port.pump : Nat → Port → Port
  | 0, p => p
  | n + 1, p =>
    match p.nextFrame with
    | none => p
    | some f => Port.pump n ({ p with waiting := p.waiting.erase f }.transmit f)

/-- Gives a frame to a port: it goes at once, or waits for a credit or for room (R310, R311). -/
def Port.give (p : Port) (f : Frame) : Port :=
  let p' := { p with waiting := p.waiting ++ [f] }
  p'.pump p'.waiting.length

/-! ### Ports, gateways and wings (R33, R34, R313, R484) -/

/-- The wing of a logical port's gateway (R33). -/
def wingOfGateway (l : Nat) : Nat :=
  match l / 16 with
  | 1 => 1
  | 3 => 0
  | _ => if l % 16 < 8 then 0 else 1
/-- The wing that owns a physical port (R484). -/
def portWing (p : Nat) (x : Port) : Nat :=
  if x.bound then wingOfGateway x.logical.toNat
  else match p / 20 with
    | 1 => 1
    | 3 => 0
    | _ => if p % 20 < 10 then 0 else 1
/-- The physical port bound to a logical port. -/
def State.physPort (s : State) (l : Nat) : Option Nat :=
  (List.range 80).find? (fun p => (s.port p).bound && (s.port p).logical.toNat == l)
/-- Whether a logical port is up. -/
def State.portUp (s : State) (l : Nat) : Bool :=
  match s.physPort l with
  | some p => (s.port p).stat == .up
  | none => false
/-- Whether every bound logical port of a wing is up (R368). -/
def State.allPortsUp (s : State) (w : Nat) : Bool :=
  (List.range 64).all (fun l => wingOfGateway l != w || (s.physPort l).isNone || s.portUp l)
/-- The bound logical ports of a wing's gateways that are up: PORTS_UP (Table 13.8). -/
def State.portsUp (s : State) (w : Nat) : Nat :=
  ((List.range 64).filter (fun l => (!s.split || wingOfGateway l == w) && s.portUp l)).length

/-- The ports of a wing that are down start to train (R312, R368). -/
def State.startPorts (s : State) (w : Nat) : State :=
  (List.range 80).foldl (fun (t : State) p =>
    if (t.port p).stat == .down && portWing p (t.port p) == w then t.onPort p (fun x => { x with stat := .training, phase := 1 })
    else t) s

/-- The fabric state of the device that a wing belongs to (R314). -/
def State.fab (s : State) (w : Nat) : Fabric := (s.wing (s.lead w)).fab
/-- Changes the fabric state of a device. -/
def State.onFab (s : State) (w : Nat) (f : Fabric → Fabric) : State :=
  s.onWing (s.lead w) (fun x => { x with fab := f x.fab })
/-- Whether a device has an identifier (R314). -/
def Fabric.hasId (f : Fabric) : Bool := f.idSet && decide (f.id.toNat ≤ 16383)
/-- HOPS of an origin frame (Table 11.9). -/
def State.hops (s : State) : Nat := if s.hopLimit = 0 then 1 else s.hopLimit.toNat

/-- The logical ports of a route entry that are up, in increasing order (R315, Table 11.9). -/
def State.routePorts (s : State) (w dev : Nat) : List Nat :=
  let mask := Map.get 0 (s.fab w).route dev
  (List.range 64).filter (fun l => bit mask l && (!s.split || wingOfGateway l == w) && s.portUp l)
/-- The port that a frame of a flow takes (R315). -/
def State.pickPort (s : State) (w : Nat) (f : Frame) : Option Nat :=
  let ps := s.routePorts w (frDest f)
  if ps.isEmpty then none else (ps[((frFlow f) + (frSeq f)) % ps.length]?).bind s.physPort

/-- Gives a frame to a physical port, on behalf of an operation (R319). -/
def State.giveFrame (s : State) (p : Nat) (op : Option (Nat × Nat)) (f : Frame) : State :=
  s.onPort p (fun x =>
    let x' := x.give f
    match op with
    | some o => { x' with usedBy := if x'.usedBy.contains o then x'.usedBy else o :: x'.usedBy }
    | none => x')

/-- The operation of the step or pass that runs on a wing, by which its ports know it (R319). -/
def State.stepOp (s : State) (w : Nat) : Option (Nat × Nat) := (s.wing (s.lead w)).run.map (fun r => (r.ring, r.seq.toNat))

/-- Sends an origin frame of a device: across the seam when it names the other wing (R477), otherwise by its route (R315); none when
no port toward the destination is up. A device with no identifier sends nothing of the kind (R314). -/
def State.sendFrame (s : State) (w : Nat) (op : Option (Nat × Nat)) (f : Frame) : Option State :=
  let o := 1 - w
  if (s.fab w).hasId = false then some s
  else if s.split ∧ (s.fab o).hasId = true ∧ (s.fab o).id.toNat = (frDest f) then
    some (s.onFab o (fun x => { x with inbox := x.inbox ++ [(none, f)] }))
  else (s.pickPort w f).map (fun p => s.giveFrame p op f)

/-- Sends frames in order; none as soon as one finds no port. -/
def State.sendFrames (s : State) (w : Nat) (op : Option (Nat × Nat)) : List Frame → Option State
  | [] => some s
  | f :: fs => match s.sendFrame w op f with
    | none => none
    | some s' => s'.sendFrames w op fs

/-- Sends frames, leaving out those that find no port. -/
def State.trySend (s : State) (w : Nat) (fs : List Frame) : State :=
  fs.foldl (fun s f => (s.sendFrame w none f).getD s) s

/-- A management frame of a device (Table 11.4). -/
def State.mgmt (s : State) (w kind dest flow seq : Nat) (bs : List Byte) : Frame :=
  mkFrame 3 kind dest (s.fab w).id.toNat s.hops flow seq 0 0 0 bs

/-! ### Registers whose writes wait for a running step (R297, R329) -/

/-- A write of a fabric or domain register of the plinth block takes effect (Tables 10.5 and 11.9). -/
def State.applyFab (s : State) (off : Nat) (v : Word) : State :=
  let route (f : Fabric) (n : Nat) : Fabric := { f with route := Map.set f.route n v }
  if off = 0xA00 then { s with west := { s.west with fab := { s.west.fab with id := BitVec.ofNat 20 (bits v 19 0), idSet := bit v 20 } } }
  else if off = 0xA08 then { s with east := { s.east with fab := { s.east.fab with id := BitVec.ofNat 20 (bits v 19 0), idSet := bit v 20 } } }
  else if off = 0xA10 then { s with hopLimit := BitVec.ofNat 5 (bits v 4 0), extTimeout := BitVec.ofNat 16 (bits v 31 16) }
  else if 0x20000 ≤ off ∧ off < 0x40000 then
    { s with west := { s.west with fab := route s.west.fab ((off - 0x20000) / 8) } }
  else if 0x40000 ≤ off ∧ off < 0x60000 then
    { s with east := { s.east with fab := route s.east.fab ((off - 0x40000) / 8) } }
  else if off = 0x900 then { s with domainId := BitVec.ofNat 16 (bits v 15 0), domainSet := bit v 16 }
  else if 0x908 ≤ off ∧ off < 0x948 then
    let e : MirrorSrc := { owner := BitVec.ofNat 20 (bits v 19 0), valid := bit v 20, offsetGib := BitVec.ofNat 10 (bits v 33 24) }
    { s with mirrorSrc := Map.set s.mirrorSrc ((off - 0x908) / 8) e }
  else s
/-- The writes that waited for the outcome of a step take effect once none runs (R297, R329, R361). -/
def State.flushDeferred (s : State) : State :=
  if s.west.run.isSome || s.west.pass.isSome || s.east.run.isSome || s.east.pass.isSome then s
  else { (s.deferred.foldl (fun t e => t.applyFab e.1 e.2) s) with deferred := [] }

/-! ### EXT streams and mirror passes as flows (R317, R319) -/

/-- The peer device and FLOW of an EXT descriptor at an optical gateway (R317). -/
def dPeer (d : Desc) : Nat := dBase d % 2 ^ 20
/-- FLOW of an EXT descriptor (R317). -/
def dFlow (d : Desc) : Nat := dBase d / 2 ^ 20 % 2 ^ 24
/-- The peers and flows that a wing's running step has open: the busy EXT slots of its cores (R319). -/
def WingState.extFlows (x : WingState) : List (Nat × Nat) :=
  x.cores.flatMap (fun c => (c.2.dma.slots.filter (fun s => c.2.dma.busy.getLsbD s.1 && dOptical s.2.desc)).map
    (fun s => (dPeer s.2.desc, dFlow s.2.desc)))

/-- The frames that wait for an operation which has ended are left over: they are discarded and counted, and their buffers are free
again (R311, R318). -/
def State.dropWaiting (s : State) (w : Nat) (flows : List (Nat × Nat)) : State :=
  let old (e : Option Nat × Frame) : Bool := flows.contains (frSrc e.2, frFlow e.2) &&
    (Nat.ble (frCls e.2) 1 || (frCls e.2 == 3 && (frKind e.2 == 1 || frKind e.2 == 4)))
  ((s.fab w).inbox.filter old).foldl (fun t e => match e.1 with
    | some p => t.onPort p (fun x =>
        let (v, k) := satAdd x.stale x.staleSat 1
        { x with stale := v, staleSat := k, owed := Map.set x.owed (frCls e.2) (Map.get 0 x.owed (frCls e.2) + 1) })
    | none => t) (s.onFab w (fun x => { x with inbox := x.inbox.filter (fun e => !old e) }))
/-- ABANDON to every peer of an operation's open flows, of which no frame is awaited any more (R318, R319). -/
def State.abandonFlows (s : State) (w : Nat) (flows : List (Nat × Nat)) : State :=
  (s.trySend w (flows.map (fun f => s.mgmt w 2 f.1 f.2 0 []))).dropWaiting w flows

/-- ABANDON for the step or pass that runs on a wing (R319). -/
def State.abandonStep (s : State) (w : Nat) : State :=
  let flows := (s.wings w).flatMap (fun v => (s.wing v).extFlows)
  let mirror := match (s.wing (s.lead w)).pass with
    | none => []
    | some p => match s.flight p.ring p.seq with
      | some f => if bit f.words 256 then [(bits f.words 279 260, bits f.words 159 128 % 2 ^ 24)] else []
      | none => []
  s.abandonFlows w (flows ++ mirror)

end Sys2Proof.Machine
end

