-- ==== Sys2Proof/Machine/FaultOps.lean ====
section
/-!
DEFINITION. Sections after a step (R168), the follow-up of a fault (Table 14.1), and how a fault on the array ends a
step (R209, R319, R356, R383).
-/

namespace Sys2Proof.Machine

/-! ### The program that runs on a wing -/

/-- A loaded program of a wing (R349). -/
def State.prog (s : State) (w handle : Nat) : Option Prog :=
  ((s.wing (s.lead w)).progs.find? (fun p => p.1 == handle)).map (·.2)
/-- A step schedule of a loaded program (R351). -/
def State.schedOf (s : State) (w handle sel : Nat) : Option StepSched :=
  (s.prog w handle).bind (fun p => p.image.steps[sel]?)
/-- The step that runs on a wing with its schedule. -/
def State.sched (s : State) (w : Nat) : Option (Run × StepSched) :=
  (s.wing (s.lead w)).run.bind (fun r => (s.schedOf w r.handle r.sel).map (fun x => (r, x)))
/-- L(i) of a step schedule (R53). -/
def layerBeats (x : StepSched) (i : Nat) : Nat := (x.layers.getD i ⟨0, 64⟩).beats
/-- The drain bound of a layer, never below 64 (R212). -/
def layerBound (x : StepSched) (i : Nat) : Nat := max 64 (x.layers.getD i ⟨0, 64⟩).drainBound
/-- STEP of a STEP_RUN (Table 12.7). -/
def dStep (d : Desc) : BitVec 32 := BitVec.ofNat 32 (bits d 223 192)

/-! ### Sections after a step (R168) -/

/-- Table 6.2: the states of FOOTPRINT sections after a step, and releases that waited for its outcome (R170). -/
def CoreMem.afterStep (m : CoreMem) (committed : Bool) : CoreMem :=
  let keep := if committed then m.keep &&& m.footprint else m.entry &&& m.footprint
  let keep' := keep &&& ~~~m.releasePend
  let off := (m.footprint &&& ~~~keep) ||| m.releasePend
  let lines := (List.range 8).foldl (fun (v : BitVec 1536) j =>
    if bit off j then v &&& ~~~(BitVec.ofNat 1536 ((2 ^ 192 - 1) * 2 ^ (192 * j))) else v) m.lineSet
  { m with on := m.on &&& ~~~(m.footprint ||| m.releasePend),
           retained := (m.retained &&& ~~~off) ||| keep', lineSet := lines, releasePend := 0 }

/-- Turns sections off (R170). -/
def CoreMem.turnOff (m : CoreMem) (mask : Byte) : CoreMem :=
  let lines := (List.range 8).foldl (fun (v : BitVec 1536) j =>
    if bit mask j then v &&& ~~~(BitVec.ofNat 1536 ((2 ^ 192 - 1) * 2 ^ (192 * j))) else v) m.lineSet
  { m with on := m.on &&& ~~~mask, retained := m.retained &&& ~~~mask, lineSet := lines }

/-- Applies a CORE_LIMIT write that waited for the step's outcome (R294). -/
def Limit.settle (l : Limit) : Limit :=
  match l.pend with
  | none => l
  | some v => { l with sections := BitVec.ofNat 8 (bits v 7 0), tiles := BitVec.ofNat 4 (bits v 11 8),
                       slots := BitVec.ofNat 4 (bits v 15 12), depth := BitVec.ofNat 5 (bits v 20 16),
                       sendEp := BitVec.ofNat 5 (bits v 25 21), recvEp := BitVec.ofNat 5 (bits v 30 26), pend := none }

/-- A core after the outcome of a step of its wing (R168, R170, R294). -/
def Core.afterStep (c : Core) (committed : Bool) : Core :=
  { c with mem := c.mem.afterStep committed, limit := c.limit.settle }

/-- Whether a STEP_RUN, UPDATE or ROOT_REFRESH runs on a wing. -/
def State.stepRuns (s : State) (w : Nat) : Bool := (s.wing (s.lead w)).run.isSome || (s.wing (s.lead w)).pass.isSome

/-- The number under which the controller keeps the highest power of a step: its program, step selector and preferred
point (R416). -/
def runKey (r : Run) (op : BitVec 3) : Nat := (r.handle * 65536 + r.sel) * 8 + op.toNat
/-- At the end of a run the controller keeps the highest 1 ms power that it measured (R416). -/
def WingState.keepPeak (x : WingState) : WingState :=
  match x.run with
  | some r => if x.power.peakRun = 0 then x else { x with power := { x.power with
      expected := Map.set x.power.expected (runKey r x.power.prefOp) x.power.peakRun, peakRun := 0 } }
  | none => x
/-- What every end of a step does besides its record: sections (R168), pending limit writes (R294), and the boundary
that its posting opens counts observation (R389). -/
def State.closeStep (s : State) (w : Nat) (committed : Bool) : State :=
  let l := s.lead w
  if s.stepRuns w then
    let s1 := s.mapCores w (fun c => c.afterStep committed)
    let s2 := s1.onWings w (fun x => { x with lastCommitted := committed })
    (s2.onWing l (fun x => { x.keepPeak with run := none, pass := none, boundaryRun := true })).flushDeferred
  else s

/-! ### The follow-up of a fault (Table 14.1) -/

/-- The Follow-up column of Table 14.1. -/
inductive FollowUp where
  | boundary | reform | none_
deriving DecidableEq, Repr

/-- Whether a targeted test at the boundary (B), tests in a re-form (F), or none follows a code (Table 14.1). -/
def followUp (code : Code) : FollowUp :=
  let c := code.toNat % 4096
  match code.toNat / 4096 with
  | 1 => if c = 1 ∨ c = 4 then .reform
    else if c = 2 ∨ c = 3 ∨ c = 5 ∨ c = 6 ∨ c = 0x401 ∨ c = 0x402 ∨ c = 0x405 ∨ c = 0x406 ∨ c = 0x40B ∨ c = 0x801 ∨ c = 0x807
    then .boundary else .none_
  | 2 => if c = 2 then .reform else if c = 4 ∨ c = 0xD ∨ c = 0xE then .none_ else .boundary
  | 3 => if 1 ≤ c ∧ c ≤ 4 then .boundary else .none_
  | 4 => if c = 1 ∨ c = 2 ∨ c = 3 then .reform else .boundary
  | 5 => if c = 8 then .reform else .boundary
  | 8 => if c = 4 then .reform else if c = 3 then .none_ else .boundary
  | 9 => if c = 3 then .boundary else .none_
  | _ => .none_

/-- Enters the follow-up of a code for a unit (R383 to R385): B units wait for the boundary, and an F code asks for a
re-form. -/
def State.followUnit (s : State) (w : Nat) (code : Code) (u : TestUnit) : State :=
  let l := s.lead w
  match followUp code with
  | .boundary => s.onWing l (fun x => { x with
      bTests := if x.bTests.any (fun t => t.1 == u) then x.bTests else x.bTests ++ [(u, code)] })
  | .reform => s.onWing l (fun x => { x with
      fTests := if x.fTests.any (fun t => t.1 == u) then x.fTests else x.fTests ++ [(u, code)],
      reformDue := x.reformDue <|> some code })
  | .none_ => s

/-- A block that fails its CRC, met by a wing: its channel records the event and is entered for its test (R174, R184, R383). -/
def State.badBlock (s : State) (w n : Nat) : State :=
  (s.recordChan (512 * n) 0 9).followUnit w (memCode 9) (.channel (blockChan n / 32) (s.physChan (blockChan n)))

/-- The cores on the route from one core to another: along X first for ORDER 0, along Y first for ORDER 1, both ends included
(R251). -/
def routeCores (order : Bool) (a b : Nat) : List Nat :=
  let span (p q : Nat) : List Nat := if p ≤ q then (List.range (q - p + 1)).map (fun i => p + i) else (List.range (p - q + 1)).map (fun i => p - i)
  let xs := span (coreX a) (coreX b)
  let ys := span (coreY a) (coreY b)
  if order then ys.map (fun y => mkCore (coreX a) y) ++ (xs.drop 1).map (fun x => mkCore x (coreY b))
  else xs.map (fun x => mkCore x (coreY a)) ++ (ys.drop 1).map (fun y => mkCore (coreX b) y)
/-- The units on the path of a core's first late arrival: the routers on its route, and the lane of its seam hop (R67). -/
def State.latePath (s : State) (core : Nat) : List TestUnit :=
  let go (order : Bool) (a : Nat) : List TestUnit :=
    let cs := routeCores order a core
    cs.map (fun c => .core (BitVec.ofNat 22 (s.position c))) ++
    ((cs.zip (cs.drop 1)).filter (fun e => wingOf e.1 != wingOf e.2)).map (fun e => .lane (coreY e.1))
  match (s.core core).pace.lateFrom with
  | none => []
  | some (.sent a n) => go ((s.core a).orderBit n) a
  | some (.routed a order) => go order a
/-- The units that a core's fault enters for a test: the core, and for PACE:0x001, 0x002 and 0x005 the links on the path of its
first late arrival (R67, R383). -/
def State.faultUnits (s : State) (core : Nat) (f : CoreFault) : List TestUnit :=
  .core (BitVec.ofNat 22 (s.position core)) :: (match f with
    | .pace _ => s.latePath core
    | _ => [])
/-- Enters the follow-up of a code for several units. -/
def State.followUnits (s : State) (w : Nat) (code : Code) (us : List TestUnit) : State :=
  us.foldl (fun t u => t.followUnit w code u) s

/-! ### How an array fault ends a step (R356, R209) -/

/-- Asks for a drain, unless one runs or is asked for (R213). -/
def WingState.askDrain (x : WingState) (d : DrainRun) : WingState :=
  match x.drain with
  | some _ => x
  | none => { x with drain := some d }
/-- The drain that the end of the running step asks for: its bound is that of the layer in force (R212). -/
def State.drainFor (s : State) (w : Nat) (cause : BitVec 2) (code : Code) (f : Flight) : DrainRun :=
  { cause := cause, code := code, step := if famOf f.words = 2 then dStep f.words else 0,
    bound := match s.sched w with
      | some (r, x) => layerBound x r.layer
      | none => 64 }

/-- The devices that a collective exchanges data with: both ring neighbours, or every member (R322). -/
def Coll.peers (c : Coll) : List Nat :=
  let n := c.group.length
  if c.direct then (c.group.zip (List.range n)).filterMap (fun e => if e.2 = c.rank then none else some e.1)
  else [c.group.getD ((c.rank + n - 1) % n) 0, c.group.getD ((c.rank + 1) % n) 0].eraseDups
/-- A collective's engine stops: ABANDON goes to its peers (R319). -/
def State.dropColl (s : State) (f : Flight) : State :=
  match (s.fab f.wing).colls.find? (fun c => c.ring == f.ring && c.seq == f.seq) with
  | some c => (s.abandonFlows f.wing (c.peers.map (fun p => (p, c.collId)))).onFab f.wing (fun x => { x with
      colls := x.colls.filter (fun y => !(y.ring == c.ring && y.seq == c.seq)), ended := c.collId :: x.ended.filter (· != c.collId) })
  | none => s
/-- A load that ends before its commit point: every section that it has written is turned off (R350). -/
def State.undoLoad (s : State) (f : Flight) : State :=
  (f.aux.foldl (fun (t : State) e => t.onCore e.1 (fun c => { c with mem := c.mem.turnOff (BitVec.ofNat 8 e.2) })) s).onWing
    (s.lead f.wing) (fun x => { x with loading := none })

/-- What the work of a descriptor in flight leaves when it ends before its commit point (R168, R319, R350, R405). -/
def State.dropWork (s : State) (f : Flight) : State :=
  if f.cls = .gateway then s.dropColl f
  else if f.cls = .array ∧ f.stage = .running then
    let s1 := (s.abandonStep f.wing).closeStep f.wing false
    let s2 := if famOf f.words = 1 then s1.undoLoad f else s1
    s2.onWing (s2.lead f.wing) (fun x => { x with window := none, level := x.level && x.window.isNone })
  else s
/-- Ends a descriptor in flight before its commit point, with its disposition and its code (R356). -/
def State.endFlight (s : State) (f : Flight) (disp : Nat) (code : Code) (kind loc : Nat) : State :=
  (s.dropWork f).settleFlight { f with status := 0 } disp code kind loc
/-- Ends as DISCARDED every descriptor in flight that satisfies p, gateway ones included (R356). -/
def State.discardAll (s : State) (p : Flight → Bool) (code : Code) : State :=
  (s.flights.filter p).foldl (fun s f => s.endFlight f 4 code 0 0) s

/-- Ends the running array descriptor of a wing; where a step ran, a drain may be asked for (R209). -/
def State.endRunning (s : State) (w : Nat) (disp : Nat) (code : Code) (kind loc : Nat) (cause : Option (BitVec 2)) : State :=
  let l := s.lead w
  match s.runningArray l with
  | none => s
  | some f =>
    let s1 := s.endFlight f disp code kind loc
    match cause with
    | some k => if s.stepRuns w then s1.onWing l (fun x => x.askDrain (s.drainFor l k code f)) else s1
    | none => s1

/-- A fault on the array of a wing, with the unit that it names: the running array descriptor is FAULTED, the wing's
other array descriptors in flight are DISCARDED, peers are told, the step's sections follow Table 6.2, and a drain is
asked for where a step ran (R168, R209, R319, R356). -/
def State.endArray (s : State) (w : Nat) (code : Code) (kind loc : Nat) (drains : Bool) : State :=
  let l := s.lead w
  match s.runningArray l with
  | none => s
  | some _ => (s.endRunning w 2 code kind loc (if drains then some 1 else none)).discard
      (fun g => g.cls == .array && g.wing == l) (stepCode 5)

/-- A fault that ends any running step, pass or TEST_WINDOW of a wing, and nothing where none runs (R67, R218, R356,
R405). -/
def State.endStep (s : State) (w : Nat) (code : Code) (kind loc : Nat) (drains : Bool) : State :=
  if s.stepRuns w || (s.wing (s.lead w)).window.isSome then s.endArray w code kind loc drains else s

/-- The clusters of a wing that a TEST_WINDOW selects (Table 14.6). -/
def WindowRun.selects (v : WindowRun) (n : Nat) : Bool := v.mask == 0 || v.mask / 2 ^ n % 2 == 1
/-- Whether a core is under test in the TEST_WINDOW that runs on its wing: its errors are test results (R405). -/
def State.underTest (s : State) (c : Nat) : Bool :=
  match (s.wing (s.lead (wingOf c))).window with
  | none => false
  | some v => v.selects (clusterOf c) && !v.expired &&
      (v.full || v.pack || (v.due && (s.core c).health.testDue) || (v.observed && (s.core c).health.observed))

/-- A fault that a core finds: recorded in its registers, followed up, and the end of any running step of the wing; the
drain notice has then ended every wait (R187, R218, R383). -/
def State.coreFault (s : State) (c : Nat) (f : CoreFault) : State :=
  let w := wingOf c
  let draining := (s.wing (s.lead w)).draining
  let s1 := s.onCore c (fun x => { x.record draining f with health := { x.health with lastEvent := f.code } })
  let s2 := s1.followUnits w f.code (s1.faultUnits c f)
  if s.underTest c then s1
  else if f.code = syncCode 7 then s2
  else s2.endStep w f.code 1 (localCore s.split w c) true

/-- What a core operation answers, as a step: the changed core, and its fault if it found one. -/
def State.coreStep (s : State) (c : Nat) (r : Core × Option CoreFault) : State :=
  let s1 := s.setCore c r.1
  match r.2 with
  | none => s1
  | some f => s1.coreFault c f

/-- Whether a cluster's compute rail is above retention: no cause of rank 1 to 4 of Table 15.1 acts on it (R410, R426). -/
def State.railOn (s : State) (n : Nat) : Bool :=
  let x := s.cluster n
  x.railUp && !x.regionOff && !x.railFault && !s.power.flowStop && !s.power.inputFault && !s.power.tripped

end Sys2Proof.Machine
end

