-- ==== Sys2Proof/Machine/Schedule.lean ====
section
/-!
DEFINITION. A step's schedule written out: loops (R198 to R201), budgets of routes (R59, R255), endpoint bindings (Table 7.1),
the streams that a core's layer starts (R224, R225, R232) and the DMA turns that their rows and bursts take first (R221).
-/

namespace Sys2Proof.Machine

/-! ### Loops written out (R200 to R202) -/

/-- The window of a LOOP or GATE in a core's schedule: its first beat, its length, how often it runs, whether it depends on
data, the beat of its command, and whether it is a loop. -/
structure Win where
  first : Nat
  len : Nat
  times : Nat
  data : Bool
  cmdBeat : Nat
  loop : Bool
deriving DecidableEq, Repr
/-- The window that a steering command opens at a beat. -/
def winOf (beat : Nat) (w : BitVec 64) : Option Win :=
  match bits w 4 0 with
  | 4 => some ⟨beat, bits w 55 40, bits w 39 24, bit w 23, beat, true⟩
  | 5 => some ⟨beat + 1, bits w 55 40, 1, true, beat, false⟩
  | _ => none
/-- The beat after the last of a window. -/
def Win.stop (x : Win) : Nat := x.first + x.len * x.times
/-- The commands of a core in a layer, as the image holds them. -/
def schedOwn (x : StepSched) (core layer : Nat) : List SchedCmd :=
  x.cmds.filter (fun c => c.core == core && c.layer == layer)
/-- The windows of a core's layer. -/
def winsOf (cs : List SchedCmd) : List Win :=
  cs.filterMap (fun c => match c.word with
    | .steer w => winOf c.beat w
    | _ => none)
/-- The windows that a command lies in; a LOOP or GATE does not lie in its own. -/
def enclosing (ws : List Win) (c : SchedCmd) : List Win :=
  let own := match c.word with
    | .steer w => (winOf c.beat w).isSome
    | _ => false
  ws.filter (fun x => Nat.ble x.first c.beat && Nat.blt c.beat (x.first + x.len) && !(own && x.cmdBeat == c.beat))
/-- The beats at which a command of the image runs: once for each pass of the loops around it. -/
def runsAt (ws : List Win) (c : SchedCmd) : List Nat :=
  (enclosing ws c).foldl (fun bs x => bs.flatMap (fun b => (List.range x.times).map (fun k => b + x.len * k))) [c.beat]
/-- Inserts a command by its beat, after those of the same beat. -/
def insertOcc (e : Nat × CmdWord) : List (Nat × CmdWord) → List (Nat × CmdWord)
  | [] => [e]
  | x :: xs => if e.1 < x.1 then e :: x :: xs else x :: insertOcc e xs
/-- A core's layer written out: its commands with their beats, in order. -/
def schedOccs (x : StepSched) (core layer : Nat) : List (Nat × CmdWord) :=
  let cs := schedOwn x core layer
  let ws := winsOf cs
  (cs.flatMap (fun c => (runsAt ws c).map (fun b => (b, c.word)))).foldl (fun m e => insertOcc e m) []
/-- The beats of a core's steering commands of an opcode on an endpoint. -/
def steerBeats (x : StepSched) (core layer op ep : Nat) : List Nat :=
  (schedOccs x core layer).filterMap (fun e => match e.2 with
    | .steer w => if bits w 4 0 = op ∧ bits w 16 13 = ep then some e.1 else none
    | _ => none)
/-- The cores that a schedule names. -/
def schedCores (x : StepSched) : List Nat :=
  (x.cmds.map (·.core) ++ x.binds.map (·.core) ++ x.lists.map (·.core) ++ x.masks.map (·.1)).eraseDups
/-- The masks of a core in a step. -/
def schedMask (x : StepSched) (core : Nat) : Masks := Map.get {} x.masks core
/-! ### Beats and budgets -/

/-- The start of a layer in the beats of its step (R53). -/
def layerBase (x : StepSched) (i : Nat) : Nat := ((List.range i).map (fun k => 4 * ceilDiv (layerBeats x k + 64) 4)).sum
/-- The span allowance of a wing, or of the wafer in whole-wafer mode (R51, R264). -/
def spanBeats (split : Bool) : Nat := if split then 1230 else 1646
/-- Whether a program has patch records; then its steps name pointer lists (R288, R289). -/
def hasPatches (img : Image) : Bool := img.steps.any (fun x => !x.patches.isEmpty)
/-- Bytes of a pointer list (R288). -/
def plistBytes (img : Image) : Nat := 16 + 16 * (img.seqs * img.heads)
/-- The set bits of a mask of sections. -/
def sectionCount (m : Byte) : Nat := ((List.range 8).filter (fun j => bit m j)).length
/-- The largest number of 128 B rows that a step patches in one core (R290). -/
def patchRows (x : StepSched) : Nat :=
  let cores := (x.patches.map (·.1)).eraseDups
  (cores.map (fun c => ((x.patches.filter (fun p => p.1 == c)).flatMap (fun p =>
    [bits p.2 16 0 / 128, (bits p.2 16 0 + bits p.2 21 19) / 128])).eraseDups.length)).foldl max 0
/-- How far beyond the largest beat number of the wing a step's start beat lies at least: 64 beats and the span allowance, the
preparation of its sections, and the broadcast of its pointer list with its patches (R53, R166, R264, R290). -/
def startLead (split : Bool) (img : Image) (x : StepSched) : Nat :=
  64 + spanBeats split + 32 + 96 * ((x.masks.map (fun m => sectionCount m.2.scrub)).foldl max 0) +
  (if hasPatches img then ceilDiv (plistBytes img) 16 + 19 + 8 * patchRows x else 0)
/-- Logical Manhattan distance (R51). -/
def hopsOf (a b : Nat) : Nat :=
  ((coreX a - coreX b) + (coreX b - coreX a)) + ((coreY a - coreY b) + (coreY b - coreY a))
/-- Seam hops of a route (Table 2.3). -/
def seamHops (split : Bool) (a b : Nat) : Nat := if !split && (Nat.blt (coreX a) 416 != Nat.blt (coreX b) 416) then 1 else 0
/-- Beats that a route is budgeted for one flit, with the beats of the seam hop given (R255, R267). -/
def hopBeats (split : Bool) (seam a b : Nat) : Nat := 2 * (hopsOf a b - seamHops split a b) + seam * seamHops split a b
/-- The link on which a packet reaches a core, in the order north, east, south, west and the core itself (R183, R251). -/
def arrivalLink (order : Bool) (src dst : Nat) : Nat :=
  let alongX := if coreX src < coreX dst then 3 else 1
  let alongY := if coreY src < coreY dst then 0 else 2
  if src = dst then 4
  else if order then (if coreX src = coreX dst then alongY else alongX)
  else (if coreY src = coreY dst then alongX else alongY)
/-- A core's route-order word in a layer (R252). -/
def orderWord (x : StepSched) (core layer : Nat) : BitVec 64 :=
  match x.orders.find? (fun o => o.core == core && o.layer == layer) with
  | some o => o.word
  | none => 0
/-- The bindings of a layer. -/
def layerBinds (x : StepSched) (i : Nat) (bus : Bool) : List BindRec := x.binds.filter (fun b => b.layer == i && b.bus == bus)

/-! ### Endpoint bindings (Table 7.1) -/

/-- KIND of a binding entry (Table 7.1). -/
def bindKind (b : BindRec) : Nat := bits b.raw 5 4
/-- ENDPOINT of a binding entry. -/
def bindEp (b : BindRec) : Nat := bits b.raw 11 8
/-- PEER_ENDPOINT of a binding entry. -/
def bindPeerEp (b : BindRec) : Nat := bits b.raw 15 12
/-- BLOCK_FLITS of a binding entry. -/
def bindFlits (b : BindRec) : Nat := bits b.raw 20 16
/-- BLOCKS_PER_FIRING of a binding entry. -/
def bindPer (b : BindRec) : Nat := bits b.raw 25 21
/-- DEPTH of a binding entry. -/
def bindDepth (b : BindRec) : Nat := bits b.raw 30 26
/-- PEER of a binding entry. -/
def bindPeer (b : BindRec) : Nat := bits b.raw 63 32
/-- TOKEN_PEER of a binding entry. -/
def bindTokenPeer (b : BindRec) : Nat := bits b.raw 95 64
/-- FIRINGS of a binding entry. -/
def bindFirings (b : BindRec) : Nat := bits b.raw 111 96 + 1
/-- BUF_ADDR of a binding entry. -/
def bindBuf (b : BindRec) : Nat := bits b.raw 144 128
/-- Whether a binding entry is a governed data receive entry. -/
def bindGoverned (b : BindRec) : Bool := bindKind b == 1 && bit b.raw 6
/-- The descriptors of a core's layer. -/
def descsOf (x : StepSched) (core i : Nat) : List Desc :=
  match x.lists.find? (fun l => l.core == core && l.layer == i) with
  | some l => l.descs
  | none => []

/-! ### Streams and the first two items of R221 -/

/-- The last DMA turn that begins no later than a beat of the layer (Table 2.1). -/
def turnBy (t : Nat) : Option Nat := if t < 2 then none else some (t - (t + 2) % 4)
/-- The DMA turns of a layer of n beats. -/
def layerTurns (n : Nat) : List Nat := (List.range n).filter (fun t => t % 4 == 2)
/-- A stream that a core's layer starts: its slot, its descriptor and the next of the list, the beat of its DSTART, its start
beat, and the beats of its DTILEs. -/
structure Stream where
  slot : Nat
  desc : Desc
  pair : Desc
  asked : Nat
  start : Nat
  tiles : List Nat
deriving DecidableEq, Repr
/-- The DSTARTs of a core's layer, in order: beat, slot, descriptor index. -/
def layerStarts (x : StepSched) (core i : Nat) : List (Nat × Nat × Nat) :=
  (schedOccs x core i).filterMap (fun e => match e.2 with
    | .dma w => if bits w 3 0 = 1 then some (e.1, bits w 10 8, bits w 19 11) else none
    | _ => none)
/-- The DTILEs of a core's layer, in order: beat, slot. -/
def layerTiles (x : StepSched) (core i : Nat) : List (Nat × Nat) :=
  (schedOccs x core i).filterMap (fun e => match e.2 with
    | .dma w => if bits w 3 0 = 2 then some (e.1, bits w 10 8) else none
    | _ => none)
/-- A row that a FIRE needs: the turn in which it is read, none where the layer has no such turn, the beat of its last flit, and
the addresses of the flits that it gives (R232). -/
structure SendRow where
  turn : Option Nat
  last : Nat
  flits : List Nat
deriving DecidableEq, Repr
/-- The rows of one firing of n flits at beat f, from byte q of the visiting order of a SEND stream: the row of flit j is read in
the last turn that begins no later than f + j - 1, unless an earlier flit of the firing has read it (R232). -/
def firingRows (d : Desc) (f q n : Nat) : List SendRow :=
  let row (j : Nat) : Nat := sendAddr d (q + 32 * j) / 128
  ((List.range n).map row).eraseDups.map (fun r =>
    let js := (List.range n).filter (fun j => row j == r)
    { turn := if f + js.headD 0 = 0 then none else turnBy (f + js.headD 0 - 1), last := f + js.getLastD 0,
      flits := js.map (fun j => sendAddr d (q + 32 * j)) })
/-- The rows that the FIREs of a core's layer need. -/
def sendRows (x : StepSched) (core i : Nat) : List SendRow :=
  let ds := descsOf x core i
  ((layerBinds x i false).filter (fun b => b.core == core && bindKind b == 0)).flatMap (fun b =>
    let fires := steerBeats x core i 6 (bindEp b)
    let n := bindPer b * bindFlits b
    fires.flatMap (fun f =>
      let serves (e : Nat × Nat × Nat) : Bool := Nat.ble e.1 f && dKind (ds.getD e.2.2 0) == 2 && dEndpoint (ds.getD e.2.2 0) == bindEp b
      match ((layerStarts x core i).filter serves).getLast? with
      | none => []
      | some e => firingRows (ds.getD e.2.2 0) f (32 * n * (fires.filter (fun g => Nat.ble e.1 g && Nat.blt g f)).length) n))
/-- The DMA turns of a core's layer that rows of SEND firings take (R221 item 1, R232). -/
def sendTurns (x : StepSched) (core i : Nat) : List Nat := (sendRows x core i).filterMap (·.turn)
/-- The start beats of a layer's streams (R225). busy are the turns that SEND rows take, n the beats of the layer, held the bursts
held, the more recently used first, doing the bursts being fetched with their fourth turn. A DSTART of a held burst starts its
stream at once; otherwise the burst takes the next four turns that are free, and the stream starts at the beat after. -/
def startBeats (busy : List Nat) (n : Nat) : List (Nat × Nat × Nat) → List Nat → List (Nat × Nat) → List Nat
  | [], _, _ => []
  | e :: rest, held, doing =>
    let h := (doing.filter (fun f => Nat.ble f.2 e.1)).foldl (fun h f => (f.1 :: h).take 2) held
    let doing' := doing.filter (fun f => Nat.blt e.1 f.2)
    let b := e.2.2 / 8
    if h.contains b then e.1 :: startBeats busy n rest (b :: h.filter (· != b)) doing'
    else
      let after := doing'.foldl (fun m f => max m f.2) e.1
      let ts := ((layerTurns n).filter (fun t => Nat.blt after t && !busy.contains t)).take 4
      let last := if ts.length < 4 then n else ts.getLastD n
      (last + 1) :: startBeats busy n rest h (doing' ++ [(b, last)])
/-- The streams of a core's layer; the DTILEs of a slot act on the tiles of its streams in order (R224). -/
def layerStreams (x : StepSched) (core i : Nat) : List Stream :=
  let ds := descsOf x core i
  let es := layerStarts x core i
  (es.zip (startBeats (sendTurns x core i) (layerBeats x i) es [] [])).map (fun (e, st) =>
    let before := (es.filter (fun g => g.2.1 == e.2.1 && Nat.blt g.1 e.1)).map (fun g => ds.getD g.2.2 0)
    let d := ds.getD e.2.2 0
    let past := ((before.filter takesTiles).map dTiles).sum
    { slot := e.2.1, desc := d, pair := ds.getD (e.2.2 + 1) 0, asked := e.1, start := st,
      tiles := if takesTiles d then
          ((((layerTiles x core i).filter (fun g => g.2 == e.2.1)).drop past).take (dTiles d)).map (·.1)
        else [] })

end Sys2Proof.Machine
end

