-- ==== Sys2Proof/Machine/Commands.lean ====
section
/-!
DEFINITION. The command words of a schedule as commands (Tables 4.1, 4.2, 5.1, 5.2, 7.2, 7.3, 8.1, 9.5, 9.6), the owner of the
core-memory banks in a beat (Table 2.1), and when a command of the schedule acts (R45, R48, R49, R58, R63, R201, R210).
-/

namespace Sys2Proof.Machine

/-! ### The bank rotation (R47 to R49) -/

/-- The owners of Table 2.1. -/
inductive BankOwner where
  | tensor | dma | vector | router | plinth
deriving DecidableEq, Repr
/-- The owner of the eight banks in a beat (Table 2.1). The turn of the plinth controller and the test access has no table row of
its own: their accesses (a scrub, a patch, an image record, a test) are taken in the command that makes them, and no engine
reads or writes core memory in that turn (log 45). -/
def bankOwner (beat : Nat) : BankOwner :=
  match beat % 4 with
  | 0 => .tensor
  | 1 => .tensor
  | 2 => .dma
  | _ => match beat / 4 % 4 with
    | 1 => .router
    | 3 => .plinth
    | _ => .vector

/-! ### Command words as commands (R108, R123, R124, R199, R200, R224, R265) -/

/-- The fields of a tensor command word (Table 4.1). -/
def tcmdOf (w : BitVec 128) : TCmd :=
  { fmt := BitVec.ofNat 4 (bits w 11 8), fmtB := BitVec.ofNat 4 (bits w 15 12), tiles := BitVec.ofNat 8 (bits w 23 16),
    trLog2 := BitVec.ofNat 2 (bits w 25 24), tcLog2 := BitVec.ofNat 2 (bits w 27 26), half := bit w 28,
    sparse := BitVec.ofNat 3 (bits w 31 29), kc := BitVec.ofNat 10 (bits w 41 32), addr := BitVec.ofNat 17 (bits w 58 42),
    scaleAddr := BitVec.ofNat 17 (bits w 80 64), init := bit w 81, rmode := BitVec.ofNat 2 (bits w 83 82),
    sat := BitVec.ofNat 2 (bits w 85 84), outShift := BitVec.ofNat 8 (bits w 93 86) }
/-- The command of a tensor word (Table 4.2). -/
def decodeTensor (core : Nat) (w : BitVec 128) : Option Instr :=
  let c := tcmdOf w
  match bits w 3 0 with
  | 0 => some (.nop core)
  | 1 => some (.loadA core c .ok)
  | 2 => some (.loadB core c .ok)
  | 3 => some (.loadAnchor core c .ok)
  | 4 => some (.mma core c .ok)
  | 5 => some (.merge core c .ok)
  | 6 => some (.store core c .ok)
  | _ => none

/-- TYPE of a vector command (Table 5.1). -/
def vtypeOf : Nat → Option VType
  | 0 => some .fp32
  | 1 => some .bf16
  | 2 => some .int32
  | _ => none
/-- The sub-operation of a VCMP (Table 5.2). -/
def vtestOf : Nat → Option VTest
  | 0 => some .eq
  | 1 => some .lt
  | 2 => some .le
  | 3 => some .notFinite
  | _ => none
/-- The sub-operation of a VCVT (R125). -/
def vcvtOf : Nat → Option VCvt
  | 0 => some .lowBf16ToF32
  | 1 => some .highBf16ToF32
  | 2 => some .f32ToLowBf16
  | 3 => some .f32ToHighBf16
  | 4 => some .i32ToF32
  | 5 => some .f32ToI32
  | _ => none
/-- The register fields of a vector command word (Table 5.1). -/
def vcmdOf (w : BitVec 64) (ty : VType) : VCmd :=
  { vd := BitVec.ofNat 5 (bits w 14 10), va := BitVec.ofNat 5 (bits w 19 15), vb := BitVec.ofNat 5 (bits w 24 20),
    vc := BitVec.ofNat 5 (bits w 29 25), ty := ty, pred := bit w 32, bcastB := bit w 33, addr := BitVec.ofNat 17 (bits w 50 34) }
/-- The command of a vector word (Table 5.2); VC of a VCMP or VCVT is its sub-operation. -/
def decodeVector (core : Nat) (w : BitVec 64) : Option Instr :=
  (vtypeOf (bits w 31 30)).bind (fun ty =>
    let c := vcmdOf w ty
    match bits w 5 0 with
    | 0x00 => some (.vnop core)
    | 0x01 => some (.vld core c)
    | 0x02 => some (.vst core c)
    | 0x03 => some (.vadd core c)
    | 0x04 => some (.vsub core c)
    | 0x05 => some (.vmul core c)
    | 0x06 => some (.vfma core c)
    | 0x07 => some (.vdiv core c)
    | 0x08 => some (.vsqrt core c)
    | 0x09 => some (.vrsqrt core c)
    | 0x0A => some (.vexp2 core c)
    | 0x0B => some (.vlog2 core c)
    | 0x0C => some (.vmax core c)
    | 0x0D => some (.vmin core c)
    | 0x0E => (vtestOf (bits w 29 25)).map (fun t => .vcmp core t { c with vc := 0 })
    | 0x0F => some (.vsel core c)
    | 0x10 => (vcvtOf (bits w 29 25)).map (fun k => .vcvt core k { c with vc := 0 })
    | 0x11 => some (.vsum core c)
    | 0x12 => some (.vpowi core c)
    | _ => none)

/-- COND of a TEST (Table 7.2). -/
def condOf : Nat → Cond
  | 0 => .eq
  | 1 => .lt
  | 2 => .le
  | _ => .ne
/-- The command of a steering word (Tables 7.2 and 7.3). -/
def decodeSteer (core : Nat) (w : BitVec 64) : Option Instr :=
  let ctr := BitVec.ofNat 4 (bits w 12 9)
  let ep := BitVec.ofNat 4 (bits w 16 13)
  let pred := BitVec.ofNat 3 (bits w 19 17)
  let imm := BitVec.ofNat 16 (bits w 39 24)
  let len := BitVec.ofNat 16 (bits w 55 40)
  match bits w 4 0 with
  | 0 => some (.snop core)
  | 1 => some (.ctrSet core ctr imm)
  | 2 => some (.ctrAdd core ctr imm)
  | 3 => some (.ctrTest core pred ctr (condOf (bits w 22 21)) imm)
  | 4 => some (.loopCmd core (bit w 23) ctr imm len)
  | 5 => some (.gate core pred (bit w 20) len)
  | 6 => some (.fire core ep)
  | 7 => some (.consume core ep)
  | 8 => some (.take core ep ctr)
  | 9 => some (.token core ep (bit w 23) ctr imm)
  | _ => none

/-- The command of a DMA word (Table 8.1). -/
def decodeDma (core : Nat) (w : BitVec 64) : Option Instr :=
  match bits w 3 0 with
  | 0 => some (.dnop core)
  | 1 => some (.dstart core (BitVec.ofNat 3 (bits w 10 8)) (BitVec.ofNat 9 (bits w 19 11)))
  | 2 => some (.dtile core (BitVec.ofNat 3 (bits w 10 8)))
  | _ => none

/-- The core that a router command targets: TARGET_Y and TARGET_X (Table 9.5). -/
def routerTarget (w : BitVec 64) : Nat := mkCore (bits w 51 40) (bits w 63 52)
/-- The command of a router word (Tables 9.5 and 9.6). -/
def decodeRouter (core : Nat) (w : BitVec 64) : Option Instr :=
  let course := BitVec.ofNat 6 (bits w 14 9)
  let tally := BitVec.ofNat 5 (bits w 20 16)
  let count := BitVec.ofNat 8 (bits w 39 32)
  match bits w 3 0 with
  | 0 => some (.rnop core)
  | 1 => some (.arrive core (bit w 8) course (BitVec.ofNat 6 (bits w 27 22)) (bit w 21) (routerTarget w))
  | 2 => some (.await core (bit w 8) course (bit w 15))
  | 3 => some (.tprod core tally count (bit w 28) (bit w 21) (routerTarget w))
  | 4 => some (.tcons core tally count)
  | 5 => some (.twait core tally count (bit w 15))
  | _ => none

/-- The command that a word of a core's schedule stands for; none for a reserved code, which no loaded program holds. -/
def decodeCmd (core : Nat) : CmdWord → Option Instr
  | .tensor w => decodeTensor core w
  | .vector w => decodeVector core w
  | .steer w => decodeSteer core w
  | .dma w => decodeDma core w
  | .router w => decodeRouter core w

/-! ### When a command acts -/

/-- The words of a core's schedule at its present beat: those of the layer that the core is in, at the beat of the layer
reckoned in the schedule's own time (R45, R47, R63). -/
def State.wordsNow (s : State) (core : Nat) : List CmdWord :=
  let c := s.core core
  match s.sched (wingOf core) with
  | some (r, x) =>
    if r.began && Nat.ble c.flow.layerStart c.time then
      ((schedOccs x (localCore s.split (wingOf core) core) c.flow.layer.toNat).filter
        (fun e => e.1 == c.time - c.flow.layerStart)).map (·.2)
    else []
  | none => []
/-- Whether the schedule gives a core a command at its present beat (R48, R49, R58). -/
def State.scheduled (s : State) (core : Nat) (i : Instr) : Bool :=
  (s.wordsNow core).any (fun w => decide (decodeCmd core w = some i))
/-- Whether a core does scheduled work at its present beat: it neither waits, nor drains, nor suppresses the beat (R63, R201,
R210), and its compute rail is up (R52). -/
def State.works (s : State) (c : Nat) : Bool := (s.core c).acts && s.railOn (clusterOf c)
/-- Whether a command acts: its core does scheduled work, and the schedule has the command at this beat. -/
def State.acting (s : State) (c : Nat) (i : Instr) : Bool := s.works c && s.scheduled c i
/-- Runs an operation of a core for a command that acts; for one that does not, nothing. -/
def State.actAt (s : State) (c : Nat) (i : Instr) (op : Core → Core × Option CoreFault) : Res :=
  atCore c (.next (if s.acting c i then s.coreStep c (op (s.core c)) else s))

end Sys2Proof.Machine
end

