-- ==== Sys2Proof/Machine/DmaCmds.lean ====
section
/-!
DEFINITION. The meanings of the DMA engine's commands and of a stream's block issue (R224 to R246), with the gateways'
side of EXT streams (R234, R317, log 24).
-/

namespace Sys2Proof.Machine

/-- DNOP (Table 8.1): nothing. -/
def execDnop (core : Nat) (s : State) : Res := atCore core (.next s)

/-- The number of grants that a wing has sent for a flow (R317). -/
def State.grantsSent (s : State) (w flow : Nat) : Nat := Map.get 0 (s.fab w).grants flow

/-- A frame that the step of a wing sends on the port of a gateway (R317); none when no physical port of it is up. -/
def State.gatewaySend (s : State) (w l : Nat) (f : Frame) : Option State :=
  if (s.fab w).hasId = false then some s
  else if s.portUp l then (s.physPort l).map (fun p => s.giveFrame p (s.stepOp w) f) else none

/-- GRANT's payload: the base sequence B in bytes 0 to 3 and the tiles granted in byte 4 (log 24). -/
def grantBytes (b p : Nat) : List Byte := toBytes 4 b ++ toBytes 4 p

/-- Ends the step of a core with a fabric code (R319). -/
def State.fabricEnd (s : State) (core n : Nat) : State :=
  s.coreFault core (.link n 0 0)

/-- Sends a GRANT of p tiles for an EXT_IN stream, numbered by the grants sent for its flow (R317; log 24). -/
def State.sendGrant (s : State) (core : Nat) (d : Desc) (base p : Nat) : State :=
  let w := wingOf core
  let flow := dFlow d
  let f := s.mgmt w 4 (dPeer d) flow (s.grantsSent w flow) (grantBytes base p)
  match s.gatewaySend w (dGateway d) f with
  | none => s.endStep w (linkCode 0x407) 1 (localCore s.split w core) true
  | some s' => s'.onFab w (fun b => { b with grants := Map.set b.grants flow (Map.get 0 b.grants flow + 1) })

/-- The contents of the mask blocks of panel p of a WRITE, without a check. -/
def State.maskData (s : State) (w : Nat) (d : Desc) (p : Nat) : Nat :=
  let mb := maskBlocks d
  let n0 := globalAddr s.split w (dMaskBase d + 512 * mb * p) / 512
  ofBytes ((List.range mb).flatMap (fun i => (s.block (n0 + i)).data))
/-- The value bits of the tiles handed over to a VALUES_ONLY write, whose masks are fixed (R237, R241). -/
def State.countValues (s : State) (core slot : Nat) : State :=
  let c := s.core core
  let x := c.slot slot
  if !x.fetching && dValuesOnly x.desc then
    s.setCore core (c.setSlot slot { x with
      values := ((List.range x.released.length).map (fun p => keptBits x.desc (s.maskData (wingOf core) x.desc p))).sum })
  else s
/-- What the start of a stream does at a gateway: an optical EXT stream of a device without an identifier does not start
and records LINK:0x40C (R314, log 24); an EXT_IN sends its first GRANT (R317). -/
def State.openExt (s : State) (core slot : Nat) : State :=
  let c := s.core core
  let x := c.slot slot
  let w := wingOf core
  if c.slotBusy slot && !x.fetching && dOptical x.desc && x.baseSeq == 0 && x.issued == 0 then
    if !(s.fab w).hasId then
      let c' := ((c.freeSlot slot).leaveTally slot).record false (.dma (linkCode 0x40C) slot x.index 0 0)
      s.setCore core c'
    else if dKind x.desc = 4 then
      let x' : DmaSlot := { x with flow := BitVec.ofNat 24 (dFlow x.desc), baseSeq := s.grantsSent w (dFlow x.desc) }
      (s.setCore core (c.setSlot slot x')).sendGrant core x.desc x'.baseSeq (dRing x.desc)
    else s.setCore core (c.setSlot slot { x with flow := BitVec.ofNat 24 (dFlow x.desc) })
  else s.countValues core slot

/-- DSTART (R224, R225). -/
def execDstart (core : Nat) (slot : BitVec 3) (desc : BitVec 9) (s : State) : Res :=
  atCore core (.next (
    let c := s.core core
    if s.acting core (.dstart core slot desc) && !c.slotBusy slot.toNat then
      let s1 := s.setCore core (c.dstart slot.toNat desc.toNat c.time)
      if (s1.core core).slotBusy slot.toNat then s1.openExt core slot.toNat else s1
    else s))

/-- What a DTILE on a tile of an EXT_IN does: it advances CONS of the slot's tally pair, with SYNC:0x011 before its tile has
arrived, and grants one more tile (R273, R317). -/
def State.extTile (s : State) (core slot : Nat) (d : Desc) (base : Nat) : State :=
  if dKind d = 4 then
    match (s.core core).addCons slot 1 with
    | (c', some f) => (s.setCore core c').coreFault core f
    | (c', none) =>
      let s1 := s.setCore core c'
      if dOptical d then s1.sendGrant core d base 1 else s1
  else s
/-- DTILE acts on the oldest tile of the slot not yet acted on (R224); the stream of the last one leaves the slot's tally pair
(R273). -/
def execDtile (core : Nat) (slot : BitVec 3) (s : State) : Res :=
  atCore core (.next (
    let c := s.core core
    let n := slot.toNat
    let x := c.slot n
    if s.acting core (.dtile core slot) then
      match x.owed with
      | (d, b) :: rest => (s.setCore core (c.setSlot n { x with owed := rest })).extTile core n d b
      | [] =>
        if x.fetching || (x.desc != 0 && Nat.blt x.released.length (dTiles x.desc)) then
          let y : DmaSlot := { x with released := x.released ++ [c.time] }
          let s1 := ((s.setCore core (c.setSlot n y)).countValues core n).extTile core n x.desc x.baseSeq
          if dKind x.desc = 4 ∧ y.released.length = dTiles x.desc then s1.onCore core (fun k => k.leaveTally n) else s1
        else s
    else s))

/-- What a read of mask blocks finds (R237): the channel's error, a tag that is not the program's handle, or the mask. -/
inductive MaskRead where
  | bad (n : Nat) (miss : Bool)
  | tag
  | mask (m : Nat)
deriving DecidableEq, Repr
/-- The mask blocks of panel p of a WRITE are read through their channel, as scheduled reads (R181, R237). -/
def State.readMask (s : State) (w handle : Nat) (d : Desc) (p : Nat) : State × MaskRead :=
  let mb := maskBlocks d
  let n0 := globalAddr s.split w (dMaskBase d + 512 * mb * p) / 512
  let (s1, bs) := (List.range mb).foldl (fun (r : State × List (Nat × Block × Bool)) i =>
    let (t, b, miss) := r.1.lookRead (n0 + i) false
    (t, r.2 ++ [(n0 + i, b, miss)])) (s, [])
  match bs.find? (fun e => !e.2.1.good) with
  | some e => (s1, .bad e.1 e.2.2)
  | none =>
    if bs.any (fun e => e.2.1.tag != BitVec.ofNat 32 handle) then (s1, .tag)
    else (s1, .mask (ofBytes (bs.flatMap (fun e => e.2.1.data))))

/-- The handle of the program that runs on a wing. -/
def State.runHandle (s : State) (w : Nat) : Nat :=
  match (s.wing (s.lead w)).run with
  | some r => r.handle
  | none => 0

/-- A fault of a channel on a block that a core's engine reads or writes: recorded in CLUS_MEM_ERR and CORE_DMA_ERR, the
channel, and after MEM:0x00B the core whose engine wrote, are to be tested, and the step ends (R174, R181, R184, R186, R246, R383). -/
def State.chanFault (s : State) (ch n core slot panel kind code dmaKind : Nat) : State :=
  let c := s.core core
  let s1 := (s.recordChan (512 * n) kind code).setCore core
    (c.record false (.dma (memCode code) slot (c.slot slot).index panel dmaKind))
  let s2 := if code = 0xB then s1.followUnit (wingOf core) (memCode code) (.core (BitVec.ofNat 22 (s.position core))) else s1
  (s2.followUnit (wingOfChan ch) (memCode code) (.channel (ch / 32) (s.physChan ch))).endStep (wingOfChan ch) (memCode code) 4 ch true
/-- Ends the step with a line error of a row that the DMA engine reads, recorded in CORE_DMA_ERR (R246). -/
def State.lineEnd (s : State) (core slot panel : Nat) (f : CoreFault) : State :=
  (s.onCore core (fun c => c.noteLine slot panel f)).coreFault core f
/-- What a mask's read does besides giving the mask: a bad block is its channel's error, another tag the stored-layout fault
(R237, R246, R303). -/
def State.maskEnd (s : State) (core slot p : Nat) (r : MaskRead) : State :=
  match r with
  | .bad n miss => s.chanFault (blockChan n) n core slot p (badRead miss).1 (badRead miss).2 4
  | .tag => (s.recordMap (wingOf core) (mapCode 5) 0 0).coreFault core (.dma (mapCode 5) slot ((s.core core).slot slot).index p 2)
  | .mask _ => s

/-- Fills the pool of a VALUES_ONLY write from the tiles handed over, until it holds a block; none where a row or a mask ended the
step (R237, R241). -/
def State.fillPool (s : State) (core slot : Nat) : Nat → State × Bool
  | 0 => (s, true)
  | n + 1 =>
    let c := s.core core
    let x := c.slot slot
    if Nat.ble 4096 x.poolBits || Nat.ble (min x.released.length (dTiles x.desc)) x.poolTiles then (s, true)
    else match c.panelFault x.desc x.poolTiles with
      | some f => (s.lineEnd core slot x.poolTiles f, false)
      | none => match s.readMask (wingOf core) (s.runHandle (wingOf core)) x.desc x.poolTiles with
        | (s1, .mask m) => (s1.setCore core ((s1.core core).setSlot slot (x.fillPool m c))).fillPool core slot n
        | (s1, r) => (s1.maskEnd core slot x.poolTiles r, false)
/-- The outgoing block of a slot whose next row takes the turn, in the state after what that row needs has been read: with the
first row of a panel its mask, with the first row of a VALUES_ONLY block the tiles that it lacks. None where the step has ended
(R231, R237, R241, R246). -/
def State.outBlock (s : State) (core slot : Nat) : State × Option OutBlock :=
  let c := s.core core
  let x := c.slot slot
  let w := wingOf core
  let d := x.desc
  let p := x.rd.tile d
  if dValuesOnly d then
    match (if x.row = 0 then s.fillPool core slot (dTiles d) else (s, true)) with
    | (s1, true) => (s1, some ((s1.core core).slot slot).valuesOut)
    | (s1, false) => (s1, none)
  else if dSparse d ≠ 0 then
    match c.panelFault d p with
    | some f => (s.lineEnd core slot p f, none)
    | none =>
      if x.rd.blk = 0 ∧ x.row = 0 then
        match s.readMask w (s.runHandle w) d p with
        | (s1, .mask m) => (s1, some (x.panelOut m c))
        | (s1, r) => (s1.maskEnd core slot p r, none)
      else (s, some (x.panelOut (s.maskData w d p) c))
  else match c.rowFault (x.cur false) x.rd x.row with
    | some f => (s.lineEnd core slot 0 f, none)
    | none => (s, some (x.denseOut (x.cur false) c))

/-- Adds the counts of an outgoing block (R247). -/
def Dma.countOut (d : Dma) (o : OutBlock) : Dma :=
  match o.fallback with
  | none => d.countWr
  | some fb => d.countWr.countPanel fb

/-- A request for a block of a READ or PRESCAN, or at the companion gateway one for each of its 8 lines (R230, R234). -/
def State.issueRead (s : State) (core slot : Nat) : State :=
  let c := s.core core
  let x := c.slot slot
  let w := wingOf core
  let h := x.half c.time
  let d := x.cur h
  let p := x.next h
  let y := x.advance h
  let c1 : Core := { c with dma := c.dma.countRd }
  if dKind x.desc = 4 then
    if dOptical x.desc then s.setCore core (c1.setSlot slot y)
    else
      let a := dBlockAddr d p.run p.blk
      let msgs := (List.range 8).map (fun i => CompMsg.rdNc (a + 64 * i) 1 (.stream core slot x.issued))
      { s.setCore core (c1.setSlot slot y) with link := { s.link with toComp := s.link.toComp ++ msgs } }
  else
    let n := globalAddr s.split w (dBlockAddr d p.run p.blk) / 512
    s.setCore core ((c1.setSlot slot y).emit [.readReq slot n (p.run + (if h then secondRun else 0)) p.blk (bit d 15) (c.orderBit (32 + slot)) c.now])

/-- An outgoing block whose rows have been read is sent to its channel, to the companion or to a peer device (R231, R234, R317). -/
def State.sendBlock (s : State) (core slot : Nat) (o : OutBlock) : State :=
  let c := s.core core
  let x := c.slot slot
  let w := wingOf core
  let c1 : Core := { c with dma := c.dma.countOut o }
  let b := x.read - 1
  if dKind x.desc = 5 then
    if dOptical x.desc then
      let f := mkFrame 1 0 (dPeer x.desc) (s.fab w).id.toNat s.hops (dFlow x.desc) (x.baseSeq + b) (512 * b) 0 0 o.data
      match s.gatewaySend w (dGateway x.desc) f with
      | none => s.endStep w (linkCode 0x407) 1 (localCore s.split w core) true
      | some s' => s'.setCore core ((c1.setSlot slot { x with done := x.done + 1 }).settleSlot slot)
    else { s.setCore core c1 with link := { s.link with toComp := s.link.toComp ++ [.wrNc o.addr o.data (.stream core slot b)] } }
  else
    let n := globalAddr s.split w o.addr / 512
    s.setCore core (c1.emit
      [.write slot n (c.orderBit (32 + slot)) (BitVec.ofNat 4096 (ofBytes o.data)) o.tag (blockCrc o.data o.tag)])
/-- One row of an outgoing block takes the turn; the fourth makes the block whole (R221 item 4, R230). -/
def State.rowTurn (s : State) (core slot : Nat) : State :=
  match s.outBlock core slot with
  | (s1, none) => s1
  | (s1, some o) =>
    let c := s1.core core
    let (y, whole) := (c.slot slot).takeRow o
    let s2 := s1.setCore core (c.setSlot slot y)
    match whole with
    | none => s2
    | some b => s2.sendBlock core slot b
/-- At a drain notice the writes whose first row the router has taken go on whole, with the rest as memory holds it (R210; log 21). -/
def State.finishWrites (s : State) (core : Nat) : State :=
  (s.core core).dma.slots.foldl (fun t e =>
    match e.2.forming with
    | some o => if dKind e.2.desc = 1 then t.sendBlock core e.1 o else t
    | none => t) s

/-- Whether the next block of a slot may issue now: its beat and its tile's gate are reached, and at a peer its tile is
granted (R230, R317); a VALUES_ONLY block waits for the tiles whose values fill it (R241). -/
def DmaSlot.ready (x : DmaSlot) (beat : Nat) : Bool :=
  if dValuesOnly x.desc then
    !x.fetching && Nat.ble (x.start + 4 * dIssueSlots x.desc * x.issued) beat &&
    (Nat.ble (4096 * (x.issued + 1)) x.values || (x.released.length == dTiles x.desc && Nat.blt (4096 * x.issued) x.values))
  else (x.mayIssue false beat || x.mayIssue true beat) && (!(dKind x.desc == 5 && dOptical x.desc) || Nat.blt (x.issue.tile x.desc) x.granted)

/-- BLOCK_ISSUE (R230). A block issues at its beat when its gate is open: a request goes out, and the rows of an outgoing block
become due for the engine's turns. -/
def execBlockIssue (core : Nat) (slot : BitVec 3) (s : State) : Res :=
  atCore core (.next (
    let c := s.core core
    let n := slot.toNat
    let x := c.slot n
    if c.slotBusy n && s.works core && x.ready c.time then
      if dKind x.desc = 1 ∨ dKind x.desc = 5 then
        s.setCore core (c.setSlot n (if dValuesOnly x.desc then { x with issued := x.issued + 1 } else x.advance false))
      else if dKind x.desc = 2 then s
      else s.issueRead core n
    else s))

/-- PRESCAN_DONE: once both halves are done, the lines of the maxima go to CORE_ADDR in the engine's turns, and the slot is free
(R221, R233). -/
def execPrescanDone (core : Nat) (slot : BitVec 3) (s : State) : Res :=
  atCore core (.next (
    let c := s.core core
    let x := c.slot slot.toNat
    if c.slotBusy slot.toNat && dKind x.desc == 3 && !c.flow.sink && !x.more false && !x.more true &&
        x.done == x.issued + x.issuedB then
      s.setCore core (({ c with dma := c.dma.stage c.now slot.toNat (dCoreAddr x.desc) x.scanLines } : Core).freeSlot slot.toNat)
    else s))

end Sys2Proof.Machine
end

