-- ==== Sys2Proof/Machine/ProgOps.lean ====
section
/-!
DEFINITION. The loaded program that runs on a wing, the preparation of sections (R166), and what a layer's start sets
in every core (R53, R191, R219).
-/

namespace Sys2Proof.Machine

/-- The global core that a program of a wing names by a word (R21). -/
def State.named (s : State) (w c : Nat) : Nat := (globalCore s.split w c).getD c

/-! ### Sections (R166) -/

/-- The line-state bits of a set of sections. -/
def sectionLines (mask : Byte) : BitVec 1536 :=
  (List.range 8).foldl (fun v j => if bit mask j then v ||| BitVec.ofNat 1536 ((2 ^ 192 - 1) * 2 ^ (192 * j)) else v) 0

/-- Writes a section with zero data, line by line (R166). -/
def CoreMem.scrub (m : CoreMem) (sec : Nat) : CoreMem :=
  m.writeLines (192 * sec) (List.replicate 12288 0) 192

/-- The sections of a core prepared for a step (R166): FOOTPRINT sections outside ENTRY come on with their line-state
bits clear, ENTRY sections wake with their contents, and SCRUB sections are zeroed. -/
def CoreMem.prepare (m : CoreMem) (k : Masks) : CoreMem :=
  let fresh := k.footprint &&& ~~~k.entry
  let m1 := { m with on := m.on ||| k.footprint, retained := m.retained &&& ~~~k.footprint,
                     lineSet := m.lineSet &&& ~~~(sectionLines fresh), footprint := k.footprint, entry := k.entry,
                     keep := k.keep, scrubbed := (m.scrubbed &&& ~~~fresh) ||| k.scrub }
  (List.range 8).foldl (fun m j => if bit k.scrub j then m.scrub j else m) m1

/-- Whether an ENTRY section of a core is off (R167). -/
def CoreMem.entryOff (m : CoreMem) (k : Masks) : Bool := (k.entry &&& ~~~(m.on ||| m.retained)) != 0

/-- Prepares every core of the wings of a program: the cores that the schedule names with their masks, the others with
none (R166). -/
def State.prepareCores (s : State) (w : Nat) (x : StepSched) : State :=
  let s1 := s.mapCores w (fun c => { c with mem := c.mem.prepare {} })
  x.masks.foldl (fun t (m : Nat × Masks) =>
    let c := s.named w m.1
    t.setCore c { t.core c with mem := (s.core c).mem.prepare m.2 }) s1

/-! ### The start of a step's first layer -/

/-- Error records that are kept through failing re-issues: cleared when the step before reached its commit point
(R99, R187, R219, R247, R281, R296). -/
def Core.clearErrors (c : Core) : Core :=
  { c with arith := { c.arith with chkCode := 0, chkLane := 0, chkTile := 0, chkPath := false },
           mem := { c.mem with errCode := 0, errUnit := 0, errAddr := 0 },
           flow := { c.flow with errCode := 0, errDir := false, errEp := 0, errSeq := 0, errBeat := 0, errDrain := false },
           dma := { c.dma with errFault := 0, errSlot := 0, errDesc := 0, errPanel := 0, errKind := 0 },
           router := { c.router with errCode := 0, errPort := 0, errDest := 0 },
           limit := { c.limit with errCode := 0, errResource := 0, errLayer := 0, errValue := 0 } }

/-- What is cleared in every core at the start beat of a step's first layer: R69, R98, R100, R106, R120, R121, R128, R198,
R247, R266, R271, R276, R281. -/
def Core.clearStep (c : Core) : Core :=
  { c with
    pace := { c.pace with lateCount := 0, lateSat := false, stall := false, firstBeat := 0, firstLayer := 0, cause := 0,
                          extCount := 0, extSat := false, coupleCount := 0, coupleSat := false, wait := none, lateRun := 0,
                          idle := false, shift := 0, lateFrom := none, placed := [] },
    arith := { c.arith with status := 0 },
    tensor := { c.tensor with tiles := [], mmaBeats := 0, mmaSat := false, dupTurn := 0 },
    vec := {},
    flow := { c.flow with counters := [], preds := 0, sink := false },
    dma := { c.dma with blocksRd := 0, rdSat := false, blocksWr := 0, wrSat := false, panelsComp := 0, compSat := false,
                        panelsFb := 0, fbSat := false },
    router := { c.router with courses := [], tallies := [], waferHeld := 0 },
    snap := none, snapLost := false }

/-! ### The start of a layer (R53, R182, R191, R225, R261) -/

/-- The send endpoint that a binding entry sets up; governed is whether the receiver pairs it (Table 7.1, R207). -/
def bindSend (peer : Nat) (governed : Bool) (raw : BitVec 256) : SendEp :=
  { bound := true, token := bits raw 5 4 == 2, governed := governed, peer := peer, peerEp := bits raw 15 12,
    flits := bits raw 20 16, perFiring := bits raw 25 21, depth := bits raw 30 26, firings := bits raw 111 96 + 1,
    credits := BitVec.ofNat 5 (bits raw 30 26), pair := if governed || bits raw 5 4 == 2 then 4 else 0 }
/-- The receive endpoint that a binding entry sets up; tokenEp is the token sender's endpoint number (Table 7.1). -/
def bindRecv (peer tokenPeer tokenEp : Nat) (raw : BitVec 256) : RecvEp :=
  { bound := true, governed := bit raw 6, peer := peer, peerEp := bits raw 15 12, tokenPeer := tokenPeer,
    flits := bits raw 20 16, perFiring := bits raw 25 21, depth := bits raw 30 26, firings := bits raw 111 96 + 1,
    bufAddr := bits raw 144 128, tokenEp := tokenEp }

/-- Whether the receive endpoint at the other end of a data send entry is governed (R207). -/
def peerGoverned (bs : List BindRec) (b : BindRec) : Bool :=
  bs.any (fun r => !r.bus && r.layer == b.layer && r.core == bits b.raw 63 32 && bits r.raw 5 4 == 1 &&
    bits r.raw 11 8 == bits b.raw 15 12 && bit r.raw 6)
/-- The endpoint number of the token sender of a governed receive entry (R207). -/
def tokenSender (bs : List BindRec) (b : BindRec) : Nat :=
  match bs.find? (fun r => !r.bus && r.layer == b.layer && r.core == bits b.raw 95 64 && bits r.raw 5 4 == 2 &&
      bits r.raw 63 32 == b.core && bits r.raw 15 12 == bits b.raw 11 8) with
  | some r => bits r.raw 11 8
  | none => 0

/-- Installs one binding entry in its core (R191, R261); bus entries take the next entry number of the core. -/
def State.bindOne (s : State) (w : Nat) (bs : List BindRec) (b : BindRec) : State :=
  s.onCore (s.named w b.core) (fun c =>
    if b.bus then
      { c with router := { c.router with buses := Map.set c.router.buses c.router.buses.length { raw := b.raw } } }
    else if bits b.raw 5 4 = 1 then
      c.setRecv (bits b.raw 11 8) (bindRecv (s.named w (bits b.raw 63 32)) (s.named w (bits b.raw 95 64)) (tokenSender bs b) b.raw)
    else c.setSend (bits b.raw 11 8) (bindSend (s.named w (bits b.raw 63 32)) (bits b.raw 5 4 == 0 && peerGoverned bs b) b.raw))

/-- What every core does in the gap before a layer: the staging buffer is emptied, stream slots, bursts, windows and
bindings of the layer before go, the schedule is again unshifted, and the conversion unit counts from 0; a wait goes on with
the endpoint of its own layer (R53, R63, R65, R95, R191, R223, R225, R235). -/
def Core.enterLayer (layer start : Nat) (c : Core) : Core :=
  let c1 := c.keepWait.flushStaging
  { c1 with
    arith := { c1.arith with convCount := 0 },
    flow := { c1.flow with loops := [], suppress := [], send := [], recv := [], sink := false,
                           layer := BitVec.ofNat 8 layer, layerStart := start },
    dma := { c1.dma with slots := [], busy := 0, bursts := [], fetch := [], sendHeld := [] },
    router := { c1.router with buses := [], busRows := [], order := 0, tallies := c1.router.tallies.map (fun e => (e.1, e.2.back)) },
    pace := { c1.pace with shift := 0 } }

/-- A layer begins on every core of a wing: reuse caches are invalidated and its bindings and route orders take effect
(R53, R182, R191, R252). -/
def State.enterLayer (s : State) (w layer start : Nat) (x : StepSched) : State :=
  let s1 := (s.mapCores w (fun c => c.enterLayer layer start)).clearCaches w
  let s2 := (x.binds.filter (fun b => b.layer == layer)).foldl (fun t b => t.bindOne w x.binds b) s1
  (x.orders.filter (fun o => o.layer == layer)).foldl (fun t o =>
    t.onCore (t.named w o.core) (fun c => { c with router := { c.router with order := o.word } })) s2

/-- The course and tally counts of a program (R266, R271). -/
def State.setCounts (s : State) (w : Nat) (img : Image) : State :=
  let s1 := img.courses.foldl (fun t e => t.onCore (t.named w e.1) (fun c =>
    c.setCourse e.2.1 { participants := BitVec.ofNat 7 e.2.2 })) s
  let s2 := img.tallies.foldl (fun t e => t.onCore (t.named w e.1) (fun c =>
    c.setTally e.2.1 { buffers := BitVec.ofNat 9 e.2.2 })) s1
  s2.onWings w (fun x => { x with
    wafer := img.waferCourses.map (fun e => (e.1, { participants := e.2 })), overValid := false, overCourse := 0 })

/-- The cluster registers and records cleared at the start beat of a step's first layer (R188, R303). -/
def State.clearClusterStep (s : State) (w : Nat) (committed : Bool) : State :=
  let mine (n : Nat) : Bool := (s.wings w).contains n
  { s with
    chans := Map.mapIf (fun n => mine (wingOfChan n)) (fun c => { c with
      hits := 0, hitSat := false, misses := 0, missSat := false, nWrites := 0, writeSat := false, extOps := 0, extSat := false }) s.chans,
    clusters := Map.mapIf (fun n => mine (wingOfCluster n) && (s.wing (wingOfCluster n)).lastCommitted) (fun c => { c with
      memErrAddr := 0, memErrKind := 0, memErrCode := 0 }) s.clusters,
    mapFault := if committed && (!s.split || s.mapWing == (w == 1)) then 0 else s.mapFault,
    mapEntry := if committed && (!s.split || s.mapWing == (w == 1)) then 0 else s.mapEntry,
    mapDevice := if committed && (!s.split || s.mapWing == (w == 1)) then 0 else s.mapDevice,
    mapWing := if committed && (!s.split || s.mapWing == (w == 1)) then false else s.mapWing }

/-- Everything that the start beat of a step's first layer clears or sets, before the layer itself (R53, R266, R276); error
records go by what ran before on the core's own wing (R99, R100). -/
def State.enterStep (s : State) (w : Nat) (img : Image) : State :=
  let committed := (s.wing (s.lead w)).lastCommitted
  let s1 := (s.wings w).foldl (fun (t : State) v => t.onWing v (fun x =>
    x.mapCores (fun c => (if x.lastCommitted then c.clearErrors else c).clearStep))) s
  let s2 := (s1.clearClusterStep w committed).setCounts w img
  (s2.onWing (s2.lead w) (fun x => { x with snapValid := false, snapFault := 0, snapStep := 0 })).onWings w (fun x => { x with
    waferSnap := [] })

/-- Credits at DEPTH once everything is empty (R210). -/
def Core.restoreCredits (c : Core) : Core :=
  { c with flow := { c.flow with send := c.flow.send.map (fun e => (e.1, ({ e.2 with
      credits := if e.2.token then 0 else BitVec.ofNat 5 e.2.depth, pair := if e.2.token || e.2.governed then 4 else 0 } : SendEp))) } }
/-- Every router buffer, endpoint and skew entry of a core cleared (R212, R377). The endpoints stay bound, with their counts of
commands, until the next bindings (R219). -/
def Core.clearQueues (c : Core) : Core :=
  let c1 := c.restoreCredits
  { c1 with
    flow := { c1.flow with recv := c1.flow.recv.map (fun e => (e.1, ({ e.2 with level := 0, skew := [] } : RecvEp))) },
    dma := { c1.dma with slots := [], busy := 0, fetch := [], staged := [], order := [], firing := [], sendHeld := [] },
    pace := { c1.pace with wait := none },
    router := { c1.router with
      out := [], toSend := [], localIn := [], local_ := [], memPort := [], lost := [], localBusy := 0, flows := [],
      links := c1.router.links.map (fun l => (l.1, ({ l.2 with
        sched := { l.2.sched with replay := [], inBuf := [] }, unsched := { l.2.unsched with replay := [], inBuf := [] },
        busy := 0, answers := [] } : MeshLink))) } }

/-- A pass samples the table registers at its first beat (R138). -/
def State.sampleTables (s : State) (w : Nat) : State :=
  s.onWing (s.lead w) (fun x => { x with pass := x.pass.map (fun p => { p with
    groupBase := 512 * s.groupBase.toNat, curveBase := 512 * s.curveBase.toNat, curveLimit := s.curveLimit.toNat }) })
/-- The largest beat number of a wing's cores. -/
def State.maxBeat (s : State) (w : Nat) : Nat :=
  ((s.wings w).map (fun v => (s.wing v).cores.foldl (fun m c => max m c.2.now) (s.wing v).base.now)).foldl max 0

end Sys2Proof.Machine
end

