-- ==== Sys2Proof/Machine/RepairOps.lean ====
section
/-!
DEFINITION. The spall map and the verdicts of tests (R387 to R395), the choice of a repair state (R25, R394), what a
re-form applies (R32, R313, R396), and a wing that enters FAILED (R373, R398, R485).
-/

namespace Sys2Proof.Machine

/-! ### Units and the spall map (R395) -/

/-- KIND and LOCATION of a unit (Table 14.5); units that the map never holds take KIND 15 in the log (log 40). -/
def unitKey : TestUnit → Nat × Nat
  | .core p => (0, p.toNat)
  | .row p => (1, p.toNat / 256 * 256 + 255)
  | .channel c p => (2, c * 256 + p)
  | .port p => (3, p)
  | .lane y => (4, y)
  | .wire k l => (5, k.toNat * 2 ^ 20 + l.toNat)
  | .tirrik => (15, 0)
  | .refOsc => (15, 1)
  | .laser l => (15, 16 + l)
  | .vdomain n => (15, 256 + n)
  | .transit n => (15, 512 + n)
  | .plinth w => (15, 1024 + w)
/-- The number under which the plinth controllers keep a unit. -/
def unitNum (u : TestUnit) : Nat := (unitKey u).1 * 2 ^ 24 + (unitKey u).2
/-- The unit of KIND 15 with a number as LOCATION (log 40). -/
def lastingOf (n : Nat) : TestUnit :=
  if n = 0 then .tirrik else if n < 16 then .refOsc else if n < 256 then .laser (n - 16) else if n < 512 then .vdomain (n - 256)
  else if n < 1024 then .transit (n - 512) else .plinth (n - 1024)
/-- Whether a unit has no spare, so that a failure of it is logged as lasting (R390). -/
def lastingUnit : TestUnit → Bool
  | .tirrik | .refOsc | .laser _ | .vdomain _ | .transit _ | .plinth _ => true
  | _ => false
/-- Whether a unit is made of wire groups with a spare among them (R29, Table 14.4). -/
def wireUnit : TestUnit → Bool
  | .lane _ | .wire _ _ => true
  | _ => false
/-- The seam units: lanes, the row bus bridges of cluster column 3, the tree seam link and the plinth link (R29). -/
def seamUnit (kind loc : Nat) : Bool :=
  kind == 4 || (kind == 5 && ((loc / 2 ^ 20 == 0 && loc / 256 % 64 % 8 == 3) || loc / 2 ^ 20 == 3 || loc / 2 ^ 20 == 4))
/-- The wing that a unit belongs to. -/
def State.unitWing (s : State) : TestUnit → Nat
  | .core p => wingOfCluster (p.toNat / 65536)
  | .row p => wingOfCluster (p.toNat / 65536)
  | .channel c _ => wingOfCluster c
  | .port p => portWing p (s.port p)
  | .wire _ l => wingOfCluster (l.toNat / 256)
  | .vdomain n => wingOfCluster n
  | .transit n => wingOfCluster n
  | .plinth w => w
  | _ => 0

/-- The place of an entry in the map's order (R395). -/
def spallNum (e : SpallEntry) : Nat := e.kind.toNat * 2 ^ 24 + e.loc.toNat
/-- DETAIL of a core position with no spare in use: BYPASS_COL 16 and GROUP_BYPASS 10 in every bank (R102, R161). -/
def coreDetail : Word := BitVec.ofNat 64 (16 + 2 ^ 5 * 0xAAAAAAAA)
/-- The entry of a unit, or a new one in use (R395). -/
def Health0.entry (h : Health0) (u : TestUnit) : SpallEntry :=
  match h.spall.find? (fun e => spallNum e == unitNum u) with
  | some e => e
  | none => { kind := BitVec.ofNat 4 (unitKey u).1, loc := BitVec.ofNat 24 (unitKey u).2,
              detail := if (unitKey u).1 = 0 then coreDetail else 0 }
/-- Inserts or rewrites an entry, keeping the order of KIND and then LOCATION (R395). -/
def spallPut (e : SpallEntry) : List SpallEntry → List SpallEntry
  | [] => [e]
  | x :: xs =>
    if spallNum e = spallNum x then e :: xs
    else if spallNum e < spallNum x then e :: x :: xs
    else x :: spallPut e xs
/-- Writes the entry of a unit. -/
def State.putEntry (s : State) (e : SpallEntry) : State :=
  { s with health := { s.health with spall := spallPut e s.health.spall } }
/-- The health of a unit in the plinth controllers' memory. -/
def State.unit (s : State) (u : TestUnit) : UnitHealth := Map.get {} s.health.units (unitNum u)
/-- Changes the health of a unit. -/
def State.onUnit (s : State) (u : TestUnit) (f : UnitHealth → UnitHealth) : State :=
  { s with health := { s.health with units := Map.upd {} s.health.units (unitNum u) f } }
/-- OBS_STEPS, where 0 acts as 10,000 (Table 14.8). -/
def State.obsSteps (s : State) : Nat := if s.health.obsSteps = 0 then 10000 else s.health.obsSteps.toNat
/-- REPEAT_WINDOW_H in seconds, where 0 acts as 24 hours (Table 14.8). -/
def State.repeatSeconds (s : State) : Nat := 3600 * (if s.health.repeatWindow = 0 then 24 else s.health.repeatWindow.toNat)
/-- TEST_PERIOD_H in seconds, where 0 acts as 24 hours (Table 14.8). -/
def State.periodSeconds (s : State) : Nat := 3600 * (if s.health.period = 0 then 24 else s.health.period.toNat)
/-- Whether a unit is under observation: its entry says so, and for a unit without one its OBS_LEFT (R389; log 40). -/
def State.observed (s : State) (u : TestUnit) : Bool :=
  if lastingUnit u then (s.unit u).obsLeft != 0 else (s.health.entry u).state == 1
/-- The units of KIND 15 that are under observation (log 40). -/
def State.observedLasting (s : State) : List TestUnit :=
  (s.health.units.filter (fun e => Nat.ble (15 * 2 ^ 24) e.1 && e.2.obsLeft != 0)).map (fun e => lastingOf (e.1 % 2 ^ 24))
/-- Whether a unit is repeating (R387). -/
def State.repeating (s : State) (u : TestUnit) : Bool :=
  s.observed u || (match (s.unit u).lastTransient with
    | some t => Nat.ble s.seconds (t + s.repeatSeconds)
    | none => false)

/-- CORE_HEALTH of the core on a unit's position (Table 14.9). -/
def State.showCore (s : State) (u : TestUnit) : State :=
  match u with
  | .core p =>
    match s.coreAt p.toNat with
    | some c => s.onCore c (fun x => { x with health := { x.health with
        observed := s.observed u, obsLeft := BitVec.ofNat 32 (s.unit u).obsLeft } })
    | none => s
  | _ => s

/-! ### Verdicts (R387) -/

/-- Why a unit is tested. -/
inductive TestMode where
  | targeted | observation | builtIn | pack
deriving DecidableEq, Repr

/-- Whether a test result is a failure; a scrub fails above 16 bad blocks (R384). -/
def failsTest : TestResult → Bool
  | .pass => false
  | .badBlocks n => Nat.blt 16 n
  | _ => true

/-- Leaves out the physical column p of a set whose spare has the number of spare, where one column is left out at most: cur
is the one left out now, bad says whether the spare itself has failed. Answers the column left out and whether the spare has
failed; none when a second column has failed (R28, R102, R161). -/
def leaveOut (spare cur p : Nat) (bad : Bool) : Option (Nat × Bool) :=
  if p = cur ∧ p ≠ spare then some (cur, bad)
  else if cur ≠ spare then none
  else if p = spare then some (cur, true)
  else if bad then none
  else some (p, bad)
/-- A MAC column or column group left out by its bypass, as DETAIL and the failed spares of the entry (R28, R102, R161, R393);
none when the position must be retired. -/
def bypassDetail (e : SpallEntry) : TestResult → Option (Word × BitVec 9)
  | .failColumn c => (leaveOut 16 (bits e.detail 4 0) c.toNat (e.worn.getLsbD 0)).map (fun r =>
      ((e.detail &&& ~~~(0x1F#64)) ||| BitVec.ofNat 64 r.1, if r.2 then e.worn ||| 1 else e.worn))
  | .failGroup b g =>
    let lo := 5 + 4 * b.toNat
    (leaveOut 10 (bits e.detail (lo + 3) lo) (g.toNat % 16) (e.worn.getLsbD (1 + b.toNat))).map (fun r =>
      ((e.detail &&& ~~~(BitVec.ofNat 64 (15 * 2 ^ lo))) ||| BitVec.ofNat 64 (r.1 * 2 ^ lo),
       if r.2 then e.worn ||| BitVec.ofNat 9 (2 ^ (1 + b.toNat)) else e.worn))
  | _ => none

/-- Split mode is formed where whole-wafer mode was in force or aimed at: from then on each wing leads itself. After the
first capstone the east wing takes over what both wings held in common (R365, R373, R377, R485). -/
def State.formSplit (s : State) : State :=
  if s.split then s
  else if s.capstoned then
    { s with split := true,
             east := { s.west with base := s.east.base, cores := s.east.cores, overdue := s.east.overdue,
                                   changed := s.east.changed, moved := s.east.moved, movedSat := s.east.movedSat,
                                   fab := { s.east.fab with colls := [], mirrors := [], grants := [], inbox := [] } } }
  else { s with split := true }

/-- A wing enters FAILED: its code, ATTN, and the end of every descriptor in flight that it concerns; in whole-wafer mode
both wings' descriptors end, and the other wing forms split mode (R373, R379, R398, R435, R485). -/
def State.failWing (s : State) (w : Nat) (code : Code) : State :=
  if (s.wing w).phase = 10 then s
  else
    let l := s.lead w
    let s1 := match (s.wing l).reform with
      | some r => if r.byDesc then
          match s.flight r.byRing r.bySeq with
          | some f => s.settleFlight { f with status := 0 } 2 code 0 0
          | none => s
        else s
      | none => s
    let s2 := (s1.discardAll (fun f => !s.split || f.wing == w) (stepCode 5)).formSplit
    let s3 := s2.onWing w (fun x => { x with
      phase := 10, failCode := code, coupled := false, reform := none, drain := none, draining := false, window := none,
      reformDue := none, capDue := false, warmPhase := 0 })
    let s4 := if s.split then s3
      else s3.onWing (1 - w) (fun x => { x with
        reformDue := if x.phase = 7 then some code else x.reformDue, coupled := false,
        reform := x.reform.map (fun r => { r with toSplit := true, byDesc := false }) })
    let s5 := if s4.sec.onTrial then { s4 with sec := { s4.sec with trialMark := none, onTrial := false, trialFailed := true } }
      else s4
    s5.attend w

/-- A failed wire group or node: the first switches to the spare; a second in a unit inside a wing loses its cluster
(R29, R398), and in a unit of the seam is a failure beyond its spare, for which the next re-form leaves whole-wafer mode (R30,
R399). -/
def State.wireFail (s : State) (u : TestUnit) (g : Nat) : State :=
  let w := s.unitWing u
  let e := s.health.entry u
  if e.spared = false then s.putEntry { e with spared := true, detail := BitVec.ofNat 64 (g % 8) }
  else if bits e.detail 2 0 = g % 8 ∨ e.state = 2 then s
  else
      let s1 := s.putEntry { e with state := 2, detail := e.detail ||| 8 }
      if seamUnit (unitKey u).1 (unitKey u).2 then
        (if s.split then s1 else s1.onWing 0 (fun x => { x with reformDue := x.reformDue <|> some (coreCode 0x22) }))
      else ((s1.onCluster (bits (BitVec.ofNat 24 (unitKey u).2) 19 8) (fun x => { x with geomLost := true })).logEntry w
        (coreCode 0x21) (unitKey u).1 (unitKey u).2 5 false (coreCode 0x21)).failWing w (coreCode 0x21)
/-- The wire group or node that a test result takes out of use: the one that it names, else the one in use (log 43). -/
def wireGroup (e : SpallEntry) : TestResult → Nat
  | .failGroup g _ => g.toNat
  | _ => if e.spared then bits e.detail 2 0 + 1 else 0
/-- A wire unit whose verdict is out of use: logged, switched to its spare group or failed beyond it (R29, R387, R393); nothing for a
group known to have failed. -/
def State.wireOut (s : State) (w : Nat) (u : TestUnit) (code result : Code) (g : Nat) (pack : Bool) : State :=
  let e := s.health.entry u
  if e.spared = true ∧ (bits e.detail 2 0 = g % 8 ∨ e.state = 2) then s
  else
    let s1 := s.logEntry w code (unitKey u).1 (unitKey u).2 3 pack result
    let s2 := (s1.putEntry { e with state := 0, cause := code }).onUnit u (fun x => { x with obsLeft := 0 })
    (s2.onWing (s2.lead w) (fun x => { x with reformDue := x.reformDue <|> some result, repairDue := true })).wireFail u g

/-- A unit taken out of use: logged, entered in the spall map, and a repair decision for the next re-form (R387, R390,
R393). -/
def State.outOfUse (s : State) (w : Nat) (u : TestUnit) (code result : Code) (res : TestResult) (pack : Bool) : State :=
  let key := unitKey u
  if lastingUnit u then
    let s1 := (s.logEntry w code key.1 key.2 4 pack result).attend w
    match u with
    | .vdomain n => s1.failWing (wingOfCluster n) (powerCode 3)
    | .transit n => s1.failWing (wingOfCluster n) (powerCode 3)
    | .plinth v => s1.failWing v (coreCode 0x24)
    | _ => s1
  else if wireUnit u then s.wireOut w u code result (wireGroup (s.health.entry u) res) pack
  else
    let e := s.health.entry u
    let s1 := s.logEntry w code key.1 key.2 3 pack result
    let e1 : SpallEntry := { e with cause := code }
    let s2 := match bypassDetail e res with
      | some (d, k) => if key.1 = 0 then s1.putEntry { e1 with detail := d, worn := k } else s1.putEntry { e1 with state := 2 }
      | none => s1.putEntry { e1 with state := 2 }
    let s3 := (s2.onUnit u (fun x => { x with obsLeft := 0 })).showCore u
    s3.onWing (s3.lead w) (fun x => { x with reformDue := x.reformDue <|> some result, repairDue := true })

/-- A unit placed under observation (R387, R389). -/
def State.observe (s : State) (w : Nat) (u : TestUnit) (code result : Code) (pack : Bool) : State :=
  let key := unitKey u
  let s1 := s.logEntry w code key.1 key.2 2 pack result
  let e := s.health.entry u
  let s2 := if lastingUnit u then s1 else s1.putEntry { e with state := 1, cause := code }
  (s2.onUnit u (fun x => { x with obsLeft := s.obsSteps, packFailed := x.packFailed || pack, code := code })).showCore u

/-- A transient verdict (R387, R388). -/
def State.transient (s : State) (w : Nat) (u : TestUnit) (code : Code) : State :=
  let key := unitKey u
  let s1 := s.logEntry w code key.1 key.2 1 false 0
  let e := s.health.entry u
  let (n, f) := satAdd e.transients e.transSat 1
  let s2 := if lastingUnit u then s1 else s1.putEntry { e with cause := code, transients := n, transSat := f }
  s2.onUnit u (fun x => { x with lastTransient := some s.seconds })

/-- The verdict of a test of a unit (Table 14.2, R407). -/
def State.verdict (s : State) (w : Nat) (mode : TestMode) (code : Code) (u : TestUnit) (res : TestResult) : State :=
  match mode with
  | .pack =>
    if failsTest res then
      if (s.unit u).packFailed then s.outOfUse w u code (coreCode 0x10) res true else s.observe w u code (coreCode 0x10) true
    else s.onUnit u (fun x => { x with packFailed := false })
  | .targeted =>
    if failsTest res then s.outOfUse w u code (coreCode 0x10) res false
    else if s.observed u then s.outOfUse w u code (coreCode 0x10) res false
    else if s.repeating u then s.observe w u code 0 false
    else s.transient w u code
  | _ => if failsTest res then s.outOfUse w u code (coreCode 0x10) res false else s

/-! ### The repair state of a cluster (R25, R394) -/

/-- Retired columns of a physical row. -/
def rowCols (pos : List Nat) (prow : Nat) : List Nat := (pos.filter (fun p => p / 256 == prow)).map (· % 256)
/-- The physical column of a logical column. -/
def colOf (ret : List Nat) (xl : Nat) : Nat := nthFree ret 160 0 xl
/-- Condition 1: at most 2 retired positions between horizontal neighbours (R25). -/
def rowGapsOk (ret : List Nat) : Bool :=
  ret.isEmpty || (List.range 103).all (fun x => Nat.ble (colOf ret (x + 1)) (colOf ret x + 3))
/-- Condition 3 for two rows: their shifts differ by at most 2 (R25). -/
def shiftsOk (a b : List Nat) : Bool :=
  a == b || (List.range 104).all (fun x => Nat.ble (colOf a x) (colOf b x + 2) && Nat.ble (colOf b x) (colOf a x + 2))
/-- The physical rows in use, one for each logical row. -/
def usedRows (rows : List Nat) : List Nat := (List.range 136).map (fun y => nthFree rows 160 0 y)
/-- Conditions 2 and 5: gaps of at most 2 rows, and at most 8 retired rows (R25). -/
def rowsOk (rows : List Nat) : Bool :=
  Nat.ble rows.length 8 && (List.range 135).all (fun y => Nat.ble (nthFree rows 160 0 (y + 1)) (nthFree rows 160 0 y + 3))
/-- The row that one pass of the procedure retires, if any (R394). -/
def nextRetired (rows pos : List Nat) : Option Nat :=
  let used := usedRows rows
  match used.find? (fun r => !rowGapsOk (rowCols pos r) || Nat.blt 8 (rowCols pos r).length) with
  | some r => some r
  | none =>
    match (used.zip (used.drop 1)).find? (fun p => !shiftsOk (rowCols pos p.1) (rowCols pos p.2)) with
    | none => none
    | some (a, b) => if (rowCols pos b).length < (rowCols pos a).length then some a else some b
/-- The procedure of R394: the retired rows of the permitted state, or none when geometry is lost; f bounds the passes. -/
def repairRows (pos : List Nat) : Nat → List Nat → Option (List Nat)
  | 0, _ => none
  | f + 1, rows =>
    match nextRetired rows pos with
    | some r => if Nat.blt 8 rows.length then none else repairRows pos f (rows ++ [r])
    | none => if rowsOk rows then some rows else none

/-- The out-of-use rows and positions of a cluster that the spall map lists (Table 14.5). -/
def Health0.retired (h : Health0) (kind n : Nat) : List Nat :=
  (h.spall.filter (fun e => e.kind.toNat == kind && e.state == 2 && e.loc.toNat / 65536 % 64 == n)).map (fun e => e.loc.toNat % 65536)

/-- What PLINTH_RESERVE_n shows of a repair state: MIN_POS_SPARE, ROW_SPARE, RETIRED_POS (Table 1.9). -/
def Cluster.reserve (x : Cluster) : Nat × Nat × Nat :=
  let used := usedRows x.retRows
  let most := (used.map (fun r => (x.retCols r).length)).foldl max 0
  (8 - most, 8 - x.retRows.length, min 255 (x.retPos.filter (fun p => used.contains (p / 256))).length)

/-- The logical cores of a cluster whose position a change of repair state moves. -/
def movedCores (n : Nat) (a b : Cluster) : List Nat :=
  (List.range 136).flatMap (fun y =>
    let ra := a.physRow y
    let rb := b.physRow y
    let ca := a.retCols ra
    let cb := b.retCols rb
    (List.range 104).filterMap (fun x =>
      if ra = rb ∧ colOf ca x = colOf cb x then none else some (mkCore (n % 8 * 104 + x) (n / 8 * 136 + y))))

/-- A core that a re-form has placed on a new position: its sections are off and its snapshot is lost (R170, R276, R396). -/
def Core.relocate (c : Core) : Core :=
  { c with mem := { c.mem.turnOff 0xFF with releasePend := 0 }, snapLost := c.snapLost || c.snap.isSome, snap := none,
           health := { c.health with moved := true }, control := none }

/-- BYPASS_COL and GROUP_BYPASS of a core from the entry of its position (R102, R161, Table 14.5). -/
def Core.bypass (c : Core) (d : Word) : Core :=
  { c with tensor := { c.tensor with bypassCol := BitVec.ofNat 5 (bits d 4 0) },
           mem := { c.mem with groupBypass := BitVec.ofNat 32 (bits d 36 5) } }

/-- Whether a cluster has lost a wire unit inside its wing beyond its spare, or both course-tree nodes (R398). -/
def State.wireLost (s : State) (n : Nat) : Bool :=
  s.health.spall.any (fun e => e.kind == 5 && e.state == 2 && !seamUnit 5 e.loc.toNat && bits (BitVec.ofNat 24 e.loc.toNat) 19 8 == n)
/-- Applies the spall map to one cluster: its rows by R394, then what moves; none when geometry is lost or a wire unit is (R398). -/
def State.repairCluster (s : State) (n : Nat) : Option State :=
  let x := s.cluster n
  let pos := s.health.retired 0 n
  let rows := (s.health.retired 1 n).map (· / 256)
  match if s.wireLost n then none else repairRows pos 146 rows with
  | none => none
  | some rows' =>
    let y : Cluster := { x with retRows := rows', retPos := pos }
    let s1 := (rows'.filter (fun r => !rows.contains r)).foldl (fun (t : State) r =>
      let e := t.health.entry (.row (BitVec.ofNat 22 (n * 65536 + r * 256)))
      t.putEntry { e with state := 2 }) s
    let s2 := s1.onCluster n (fun _ => y)
    let moved := if x.retRows = rows' ∧ x.retPos = pos then [] else movedCores n x y
    let s3 := moved.foldl (fun (t : State) c => t.onCore c (fun k => (k.relocate).bypass coreDetail)) s2
    let w := wingOfCluster n
    let s4 := if moved.isEmpty then s3
      else s3.onWing w (fun v =>
        let (m, f) := satAdd v.moved v.movedSat moved.length
        { v with changed := v.changed ||| BitVec.ofNat 48 (2 ^ n), moved := m, movedSat := f })
    some ((s4.health.spall.filter (fun e => e.kind == 0 && e.loc.toNat / 65536 % 64 == n && e.state != 2)).foldl
      (fun (t : State) e => match t.coreAt e.loc.toNat with
        | some c => t.onCore c (fun k => k.bypass e.detail)
        | none => t) s4)

/-- Reserve-low of a cluster (R397): recorded with CORE:0x020 and ATTN when it is first set. -/
def State.checkReserve (s : State) (n : Nat) : State :=
  let x := s.cluster n
  let (mp, rs, _) := x.reserve
  if (mp ≤ 1 ∨ rs ≤ 2) ∧ x.reserveLow = false then
    let w := wingOfCluster n
    ((s.onCluster n (fun y => { y with reserveLow := true })).logEntry w (coreCode 0x20) 0 (n * 65536) 0 false (coreCode 0x20)).attend w
  else s

/-- The spare physical channels of a cluster: neither retired nor serving a logical channel (R32). -/
def State.spareChans (s : State) (n : Nat) : List Nat :=
  let used := (List.range 32).map (fun k => s.physChan (32 * n + k))
  let bad := (s.health.spall.filter (fun e => e.kind == 2 && e.state == 2 && e.loc.toNat / 256 == n)).map (fun e => e.loc.toNat % 256)
  (List.range 40).filter (fun p => !used.contains p && !bad.contains p)
/-- Whether a physical channel is retired. -/
def State.chanRetired (s : State) (n p : Nat) : Bool := (s.health.entry (.channel n p)).state == 2
/-- The blocks that cannot be read at all when a channel is copied to a spare: zero data, the old tag where it is known, otherwise
0, and the CRC inverted, so that every later read faults (R184; Config says which they are). -/
def State.copyChan (s : State) (ch : Nat) : State :=
  let t := (Config.unreadable s.freeCtr).foldl (fun (t : State) e =>
    let n := 2 ^ 20 * ch + e.1 % 2 ^ 20
    let tag := if e.2 then (s.block n).tag else 0
    let z := List.replicate 512 0
    t.putBlock n { data := z, crc := ~~~(blockCrc z tag), tag := tag }) s
  { t with freeCtr := t.freeCtr + 1 }
/-- Moves the logical channels of retired physical channels to spares, lowest first; none when no spare is left (R32,
R184). The copy keeps every block that can be read with its side field. -/
def State.repairChans (s : State) (n : Nat) : Option State :=
  (List.range 32).foldl (fun (o : Option State) k =>
    match o with
    | none => none
    | some t =>
      if t.chanRetired n (t.physChan (32 * n + k)) then
        match t.spareChans n with
        | [] => none
        | p :: _ => some ((t.copyChan (32 * n + k)).onCluster n (fun x => { x with chanMap := Map.set x.chanMap k p }))
      else some t) (some s)

/-- Rebinds the failed bound ports of a wing to idle spares of the same side that reach the same partner (R313, R484). -/
def State.rebindPorts (s : State) (w : Nat) : State :=
  (List.range 80).foldl (fun (t : State) p =>
    let x := t.port p
    let bad := x.bound && (x.stat == .failed || x.stat == .retired) && (!t.split || portWing p x == w)
    if bad then
      match (List.range 80).find? (fun q => q / 20 == p / 20 && (t.port q).stat == .idleSpare && !(t.port q).bound &&
          some (t.port q).partnerDev == x.lastPartner && (!t.split || portWing q (t.port q) == w)) with
      | some q => (t.onPort p (fun y => { y with bound := false, logical := 0 })).onPort q (fun y => { y with
          bound := true, logical := x.logical, stat := .up, lastPartner := some y.partnerDev,
          credits := [(0, 256), (1, 256), (2, 256), (3, 256)] })
      | none => t
    else t) s

/-- Whether the seam has a failure beyond its spare (R30). -/
def State.seamFailed (s : State) : Bool :=
  s.health.spall.any (fun e => seamUnit e.kind.toNat e.loc.toNat && (e.state == 2 || bit e.detail 3))
/-- Seam lanes that run on their spare wire group (Table 9.12). -/
def State.seamSpared (s : State) : Nat :=
  (s.health.spall.filter (fun e => e.kind == 4 && e.spared && e.state != 2 && !bit e.detail 3)).length
/-- Whether whole-wafer mode could be formed (R30, Table 18.4). -/
def State.wholeAvail (s : State) : Bool :=
  s.seamKnown && !s.seamFailed && s.west.phase != 10 && s.east.phase != 10

/-- A seam failure beyond its spare ends whole-wafer mode: split mode is formed (R30). -/
def State.seamSplit (s : State) : State := if s.seamFailed then s.formSplit else s

/-- The clusters of a wing. -/
def clustersOf (w : Nat) : List Nat := (List.range 48).filter (fun n => wingOfCluster n == w)

/-- Applies the whole spall map to the wings named: geometry, channels, retired ports and their rebinding; a wing whose
cluster has no permitted state or no channel left enters FAILED (R366, R369, R394, R398). -/
def State.applyRepair (s : State) (w : Nat) : State :=
  let s1 := (clustersOf w).foldl (fun (t : State) n =>
    match t.repairCluster n with
    | some t' => t'.checkReserve n
    | none => if (t.wing w).phase = 10 then t else ((t.onCluster n (fun x => { x with geomLost := true })).logEntry w (coreCode 0x21) 0 (n * 65536) 5 false (coreCode 0x21)).failWing w (coreCode 0x21)) s
  let s2 := (clustersOf w).foldl (fun (t : State) n =>
    match t.repairChans n with
    | some t' => t'
    | none => t.failWing w (memCode 0xE)) s1
  let s3 := (s2.health.spall.filter (fun e => e.kind == 3 && e.state == 2)).foldl (fun (t : State) e =>
    t.onPort e.loc.toNat (fun p => { p with stat := .retired })) s2
  s3.rebindPorts w

end Sys2Proof.Machine
end

