-- ==== Sys2Proof/Machine/SecOps.lean ====
section
/-!
DEFINITION. Signed images (R432, R433), the security operations (R436 to R444), and the setting ledger (R445).
-/

namespace Sys2Proof.Machine

/-! ### Signed images (Table 16.1) -/

/-- What an image is presented for. -/
inductive ImageUse where
  | bundle | pack | token
deriving DecidableEq, Repr

/-- KIND of Table 16.1. -/
def ImageUse.kind : ImageUse → Nat
  | .bundle => 0
  | .pack => 1
  | .token => 2
/-- SVN of a header (Table 16.1). -/
def imgSvn (i : SignedImage) : Nat := bits i.header 23 16
/-- ID of a header (Table 16.1). -/
def imgId (i : SignedImage) : Nat := bits i.header 47 32
/-- Whether the fields of a header are valid for a use, and the lengths agree: check 2 of R433. -/
def imgFieldsOk (u : ImageUse) (i : SignedImage) : Bool :=
  let h := i.header
  let uid := bits h 511 384
  bits h 11 8 == u.kind && i.zeroPad && bits h 15 14 == 0 && bits h 31 24 == 0 && bits h 63 48 == 0 &&
  bits h 127 96 == 0 && bits h 1023 544 == 0 && bits h 95 64 == i.bodyBytes && i.signature.length == 7856 &&
  (uid == 0 || uid == Config.deviceUid.toNat) &&
  (match u with
   | .bundle => bits h 543 512 == 0 && Nat.ble (8192 + i.bodyBytes) 0x800000
   | .pack => imgSvn i == 0 && imgId i != 0 && bits h 543 512 == 0 && Nat.ble (8192 + i.bodyBytes) 0x1000000
   | .token => imgSvn i == 0 && imgId i == 0 && i.bodyBytes == 0 && bits h 383 128 == 0)
/-- Checks 1 to 6 of R433, in order: the code of the first that fails. -/
def checkImage (u : ImageUse) (floor : Nat) (i : SignedImage) : Option Code :=
  let h := i.header
  if ¬(bits h 3 0 ≤ 1 ∧ 1 ≤ bits h 7 4) then some (securityCode 4)
  else if !imgFieldsOk u i then some (securityCode 2)
  else if Config.sha256 (toBytes 32 i.publicKey.toNat) ≠ Config.keyDigest (bits h 13 12) then some (securityCode 2)
  else if !Config.verifySig i.publicKey (toBytes 128 h.toNat) i.signature then some (securityCode 2)
  else if u ≠ .token ∧ i.bodyDigest.toNat ≠ bits h 383 128 then some (securityCode 2)
  else if u = .bundle ∧ imgSvn i < floor then some (securityCode 3)
  else none

/-- The bytes from a global address on: whole blocks read under R179; none when a block is bad or lies outside the
memory. -/
def State.readBytes (s : State) (g n : Nat) : Option (List Byte) :=
  if g % 512 = 0 ∧ g + n ≤ bondedTop false then (s.readBlocks (g / 512) (ceilDiv n 512)).map (fun bs => bs.take n) else none
/-- What reading an image of n bytes leaves behind: nothing while an operation runs or where no image can stand, and otherwise the
reads of its blocks, counted under R179, and the record of the first that fails its CRC (R184, R188). -/
def State.readImage (s : State) (g n : Nat) : State :=
  if s.sec.running.isSome ∨ n < 8192 ∨ g % 512 ≠ 0 ∨ bondedTop false < g + n then s
  else
    let t := s.countExtBytes g n
    match (List.range (ceilDiv n 512)).find? (fun i => !(s.block (g / 512 + i)).good) with
    | none => t
    | some i => t.badBlock (wingOfChan (blockChan (g / 512 + i))) (g / 512 + i)
/-- The signed image in bonded memory at an address (R432). -/
def State.imageAt (s : State) (g n : Nat) : Option SignedImage :=
  if n < 8192 then none
  else (s.readBytes g n).map (fun bs =>
    let body := bs.drop 8192
    { header := BitVec.ofNat 1024 (ofBytes (bs.take 128)), signature := sliceBytes bs 128 7856,
      publicKey := BitVec.ofNat 256 (ofBytes (sliceBytes bs 7984 32)), zeroPad := (sliceBytes bs 8016 176).all (· == 0),
      bodyDigest := Config.sha256 body, bodyBytes := n - 8192 })

/-! ### The settings (Table 16.3) -/

/-- Debug state in force (R443). -/
def Security.unlocked (x : Security) : Bool := x.debugTrans % 2 == 1 && !x.unlockPending
/-- A firmware slot. -/
def Security.slot (x : Security) (n : Bool) : FwSlot := if n then x.slot1 else x.slot0
/-- Changes a firmware slot. -/
def Security.setSlot (x : Security) (n : Bool) (f : FwSlot) : Security := if n then { x with slot1 := f } else { x with slot0 := f }
/-- The firmware in force: the slot that booted (R434). -/
def Security.firmware (x : Security) : FwSlot := x.slot x.inForce
/-- The value of a setting (Table 16.3). -/
def Security.setting (x : Security) : Nat → Nat
  | 1 => x.identGen
  | 2 => x.floor
  | _ => x.debugTrans
/-- Raising the floor leaves VALID slots below it BELOW_FLOOR (R442). -/
def FwSlot.underFloor (f : FwSlot) (floor : Nat) : FwSlot :=
  if f.state = 1 ∧ f.svn.toNat < floor then { f with state := 2 } else f
/-- Blows the fuses of a setting up to a count (R439, R441, R443). -/
def Security.blow (x : Security) (setting new : Nat) : Security :=
  match setting with
  | 1 => { x with identGen := new }
  | 2 => { x with floor := new, slot0 := x.slot0.underFloor new, slot1 := x.slot1.underFloor new }
  | _ => { x with debugTrans := new, unlockPending := new % 2 == 1 }
/-- LIFE_H: powered hours over the module's life (R445). -/
def State.lifeHours (s : State) : Nat := Config.lifeHours + (s.sec.lifeSamples + s.power.count) / 360000000
/-- Appends an entry to the ledger (R445). -/
def Security.append (x : Security) (setting old new : Nat) (rebuilt : Bool) (life : Nat) : Security :=
  { x with ledger := x.ledger ++ [{ setting := BitVec.ofNat 4 setting, old := BitVec.ofNat 8 old, new := BitVec.ofNat 8 new,
                                    rebuilt := rebuilt, lifeH := BitVec.ofNat 32 life }] }
/-- The value of a setting as the ledger has it. -/
def Security.lastNew (x : Security) (setting : Nat) : Nat :=
  match (x.ledger.filter (fun e => e.setting.toNat == setting)).getLast? with
  | some e => e.new.toNat
  | none => 0
/-- Phase 1 of cold bring-up: a rebuilt entry for each change missing from the ledger (R445). -/
def Security.rebuild (x : Security) : Security :=
  [1, 2, 3].foldl (fun y n => if y.lastNew n = y.setting n then y else y.append n (y.lastNew n) (y.setting n) true 0) x
/-- The 16 bytes of a ledger entry (Table 16.5). -/
def ledgerBits (seq : Nat) (e : LedgerEntry) : Nat :=
  seq % 65536 + e.setting.toNat * 2 ^ 16 + e.old.toNat * 2 ^ 20 + e.new.toNat * 2 ^ 28 + (if e.rebuilt then 2 ^ 36 else 0) +
  e.lifeH.toNat * 2 ^ 64
/-- The 16 bytes of a spall map entry (Table 14.5). -/
def spallBits (e : SpallEntry) : Nat :=
  e.kind.toNat + e.state.toNat * 2 ^ 4 + e.loc.toNat * 2 ^ 8 + e.detail.toNat * 2 ^ 32 + e.cause.toNat * 2 ^ 96 + 2 ^ 112 +
  e.transients.toNat * 2 ^ 120 + (if e.transSat then 2 ^ 127 else 0)
/-- The bytes of the ledger in flash. -/
def Security.ledgerBytes (x : Security) : List Byte :=
  (x.ledger.zip (List.range x.ledger.length)).flatMap (fun e => toBytes 16 (ledgerBits e.2 e.1))
/-- The measurements (R440): plinth firmware, core firmware, test pack, spall map. -/
def State.measurement (s : State) (n : Nat) : BitVec 256 :=
  match n with
  | 0 => Config.fwDigest false s.sec.firmware.digest
  | 1 => Config.fwDigest true s.sec.firmware.digest
  | 2 => if s.pack.activeId = 0 then 0 else s.pack.activeDigest
  | _ => Config.sha256 (s.health.spall.flatMap (fun e => toBytes 16 (spallBits e)))

/-- The 256 bytes that an attestation signs (Table 16.2). -/
def State.reportBody (s : State) : List Byte :=
  let x := s.sec
  let b (v : Bool) (n : Nat) : Nat := if v then 2 ^ n else 0
  toBytes 16 (1 + x.identGen * 2 ^ 8 + b x.unlocked 13 + b x.onTrial 14 + b x.active 15 + b x.fellBack 16 + x.floor * 2 ^ 24 +
    x.firmware.svn.toNat * 2 ^ 32 + x.firmware.id.toNat * 2 ^ 40 + s.pack.activeId.toNat * 2 ^ 56 +
    x.ledger.length * 2 ^ 72 + min s.seconds 0xFFFFFFFF * 2 ^ 96) ++
  (List.range 4).flatMap (fun i => toBytes 8 (Map.get 0 x.nonce i).toNat) ++
  toBytes 16 Config.deviceUid.toNat ++ toBytes 32 (Config.markPk x.identGen).toNat ++
  (List.range 4).flatMap (fun n => toBytes 32 (s.measurement n).toNat) ++
  toBytes 32 (Config.sha256 x.ledgerBytes).toNat
/-- The whole report: its body and its mark signature, 17,344 bytes (R440). -/
def State.report (s : State) : List Byte :=
  s.reportBody ++ padTo 17088 (Config.markSign s.sec.identGen s.reportBody)
/-- The link record of R439 with its signature. -/
def linkRecord (g : Nat) : List Byte :=
  let r := toBytes 16 Config.deviceUid.toNat ++ toBytes 1 g ++ toBytes 1 (g + 1) ++ toBytes 32 (Config.markPk (g + 1)).toNat
  padTo 64 r ++ Config.markSign g (padTo 64 r)

/-! ### Operations (R436, R442, R444) -/

/-- Starts a firmware install with the bundle that is read (R436); a GO while an operation runs shows BUSY (R444). -/
def State.startFw (s : State) (img : Option SignedImage) : State :=
  let x := s.sec
  if x.running.isSome then { s with sec := { x with fwState := 6 } }
  else
    match (match img with | some i => checkImage .bundle x.floor i | none => some (securityCode 2)), img with
    | none, some i =>
      let t := !x.active
      let y := x.setSlot t { state := 0 }
      { s with sec := { y with
        fwState := 2, trialMark := if y.trialMark = some t then none else y.trialMark,
        running := some (.fwInstall (BitVec.ofNat 8 (imgSvn i)) (BitVec.ofNat 16 (imgId i)) i.bodyDigest (if t then 1 else 0)) } }
    | some c, _ => { s with sec := { x with fwState := 4, fwFault := c } }
    | none, none => s
/-- Starts the install of a test pack with the image that is read (R406, R437). -/
def State.startPack (s : State) (img : Option SignedImage) : State :=
  if s.sec.running.isSome then s
  else
    match (match img with | some i => checkImage .pack 0 i | none => some (securityCode 2)), img with
    | none, some i =>
      if imgId i = s.pack.activeId.toNat then { s with pack := { s.pack with state := 4, fault := securityCode 2 } }
      else { s with pack := { s.pack with state := 2, pendingId := 0, pendingDigest := 0 },
                    sec := { s.sec with running := some (.packInstall (BitVec.ofNat 16 (imgId i)) i.bodyDigest) } }
    | some c, _ => { s with pack := { s.pack with state := 4, fault := c } }
    | none, none => s

/-- Whether a command's token is accepted (R442). -/
def Security.tokenOk (x : Security) (op arg : Nat) (tok : Option SignedImage) : Bool :=
  match tok with
  | none => false
  | some i => (checkImage .token x.floor i).isNone && bits i.header 511 384 == Config.deviceUid.toNat &&
      bits i.header 519 512 == op && bits i.header 527 520 == arg && bits i.header 543 528 == x.ledger.length
/-- Why a command of Table 16.4 is refused, if it is: a token first, then the last column. -/
def State.refusesSec (s : State) (op arg : Nat) (tok : Option SignedImage) : Option Code :=
  let x := s.sec
  match op with
  | 1 => if (x.slot (!x.active)).state = 1 then none else some (securityCode 2)
  | 2 => if arg ≤ x.floor ∨ x.firmware.svn.toNat < arg ∨ 255 < arg then some (securityCode 5) else none
  | 3 => if !x.tokenOk op arg tok then some (securityCode 2) else if 16 ≤ x.identGen then some (securityCode 5) else none
  | 4 => if !x.tokenOk op arg tok then some (securityCode 2)
    else if x.unlocked ∨ x.unlockPending ∨ 8 ≤ x.debugTrans then some (securityCode 5) else none
  | 5 => if (x.unlocked = false ∧ x.unlockPending = false) ∨ 8 ≤ x.debugTrans then some (securityCode 5) else none
  | 6 => if arg % 2 = 0 ∧ (x.addr.toNat % 512 ≠ 0 ∨ bondedTop false < x.addr.toNat + 17408) then some (securityCode 2) else none
  | _ => some (securityCode 2)
/-- The operation that an accepted command runs. -/
def Security.opOf (x : Security) (op arg : Nat) : SecOp :=
  match op with
  | 2 => .change 2 x.floor arg
  | 3 => .change 1 x.identGen (x.identGen + 1)
  | 6 => .attest (arg % 2 == 1) x.addr
  | _ => .change 3 x.debugTrans (x.debugTrans + 1)
/-- A GO in PLINTH_SEC_CMD (R442, R444): BUSY, refused, or running; ARM_TRIAL is done at once. ADVANCE_IDENTITY stores its
link record before the fuse blows (R439). -/
def State.startSec (s : State) (op arg : Nat) (tok : Option SignedImage) : State :=
  let x := { s.sec with op := BitVec.ofNat 8 op, arg := BitVec.ofNat 8 arg }
  if x.running.isSome then { s with sec := { x with cmdState := 5 } }
  else
    match s.refusesSec op arg tok with
    | some c => { s with sec := { x with cmdState := 3, cmdFault := c } }
    | none =>
      if op = 1 then { s with sec := { x with cmdState := 2, trialMark := some (!x.active) } }
      else { s with sec := { x with
        cmdState := 1, running := some (x.opOf op arg),
        links := if op = 3 then x.links ++ [linkRecord x.identGen] else x.links } }

/-- Releases every debug halt (R443, R476). -/
def State.releaseHalts (s : State) : State :=
  { s with west := { s.west with halted := false, haltPending := false },
           east := { s.east with halted := false, haltPending := false } }
/-- A change takes effect: fuses, then the ledger entry (R445); locking debug releases every halt (R443). -/
def State.change (s : State) (setting old new : Nat) : State :=
  let life := s.lifeHours
  let s1 := { s with sec := ((s.sec.blow setting new).append setting old new false life) }
  if setting = 3 ∧ new % 2 = 0 then s1.releaseHalts else s1

/-- Writes a byte string as whole blocks with tag 0 (R440). -/
def State.putBytes (s : State) (n : Nat) : Nat → List Byte → State
  | 0, _ => s
  | k + 1, bs => (s.extWrite n (mkBlock (bs.take 512) 0)).putBytes (n + 1) k (bs.drop 512)

/-- A running operation completes and its state is reported (R444). -/
def State.finishSec (s : State) : State :=
  match s.sec.running with
  | none => s
  | some op =>
    let s1 := { s with sec := { s.sec with running := none } }
    match op with
    | .fwInstall svn id d slot =>
      { s1 with sec := { (s1.sec.setSlot (slot == 1)
          ({ state := 1, svn := svn, id := id, digest := d : FwSlot}.underFloor s1.sec.floor)) with fwState := 3 } }
    | .packInstall id d => { s1 with pack := { s1.pack with state := 3, pendingId := id, pendingDigest := d } }
    | .change n old new => let s2 := s1.change n old new
                           { s2 with sec := { s2.sec with cmdState := 2 } }
    | .attest companion a =>
      let r := s1.report
      let s2 := if companion then { s1 with link := { s1.link with toComp := s1.link.toComp ++ [.wrNc a.toNat r .report] } }
        else s1.putBytes (a.toNat / 512) 34 r
      { s2 with sec := { s2.sec with cmdState := 2 } }

/-- What a warm reset or a re-form does to a running operation (R444): an install and an ATTEST are abandoned, a change
that has begun blowing its fuses completes. The install of a pack is abandoned by a reset only (R406). -/
def State.abandonSec (s : State) (reset : Bool) : State :=
  match s.sec.running with
  | none => s
  | some (.fwInstall ..) => { s with sec := { s.sec with running := none, fwState := 5 } }
  | some (.packInstall ..) => if reset then
      { s with sec := { s.sec with running := none }, pack := { s.pack with state := 0 } } else s
  | some (.attest ..) => { s with sec := { s.sec with running := none, cmdState := 4 } }
  | some (.change ..) => s.finishSec

/-- The security state that a cold reset leaves: fuses, flash, and fuses as blown so far (R367, R444). -/
def State.coldSec (s : State) : Security :=
  let x := match s.sec.running with
    | some (.change n old new) => s.sec.blow n (old + Config.freeFuses s.freeCtr % (new - old + 1))
    | _ => s.sec
  { identGen := x.identGen, floor := x.floor, debugTrans := x.debugTrans, unlockPending := x.unlockPending, slot0 := x.slot0,
    slot1 := x.slot1, active := x.active, trialMark := x.trialMark, inForce := x.active, ledger := x.ledger, links := x.links,
    lifeSamples := x.lifeSamples + s.power.count }

end Sys2Proof.Machine
end

