-- ==== Sys2Proof/Machine/RingOps.lean ====
section
/-!
DEFINITION. Rings and descriptors (R340 to R348, R354): the format of each family, what may fetch and what may start,
halts, and outcome records.
-/

namespace Sys2Proof.Machine

/-! ### Formats (R9, R346, Tables 5.7, 9.7, 11.5, 12.4 to 12.9, 13.6, 14.6) -/

/-- Whether an FP32 pattern is finite (R155). -/
def finiteF32 (n : Nat) : Bool := n / 2 ^ 23 % 256 != 255
/-- Whether an FP32 pattern is finite and not below 0; −0 is not below 0. -/
def nonNegF32 (n : Nat) : Bool := finiteF32 n && (n / 2 ^ 31 == 0 || n % 2 ^ 31 == 0)
/-- Whether two byte ranges have a byte in common. -/
def overlaps (a n b m : Nat) : Bool := Nat.blt a (b + m) && Nat.blt b (a + n)

/-- The body of a PROGRAM_LOAD (Table 12.6). -/
def loadOk (d : Desc) : Bool :=
  bits d 191 162 == 0 && bits d 511 352 == 0 && bits d 159 128 != 0 &&
  bits d 255 192 % (if bit d 161 then 512 else 64) == 0
/-- The body of a STEP_RUN (Table 12.7). -/
def stepOk (d : Desc) : Bool :=
  bits d 191 168 == 0 && bits d 239 225 == 0 && bits d 511 288 == 0 && bits d 287 240 % 512 == 0
/-- The body of an UPDATE or ROOT_REFRESH (Table 5.7, R155), but for what needs the state. -/
def passOk (update : Bool) (d : Desc) : Bool :=
  bits d 207 204 == 0 && bits d 223 221 == 0 && !bit d 259 && bits d 287 284 == 0 && bits d 511 384 == 0 &&
  bits d 159 128 != 0 && bits d 220 208 != 0 && Nat.ble (bits d 220 208) 4096 && bits d 351 288 % 64 == 0 &&
  (!bit d 256 || Nat.ble (bits d 279 260) 16383) &&
  (if update then Nat.ble (bits d 283 280) 1 && nonNegF32 (bits d 255 224) && finiteF32 (bits d 383 352)
   else bits d 255 224 == 0 && !bit d 257 && bits d 283 280 == 0 && bits d 383 352 == 0)
/-- The bytes of the SRC and DST ranges of a COLLECTIVE; a broadcast has a SRC at its root only, where its START checks it (R321, Table
11.6). -/
def collRanges (d : Desc) : Nat × Nat :=
  let n := bits d 414 400
  let e := bits d 351 320
  let unit := if bit d 132 then 2 else 16
  match bits d 131 128 with
  | 0 => (e * unit, e * unit / n)
  | 1 => (e / n, e)
  | 2 => (e * unit, e * unit)
  | _ => (e, e)
/-- The body of a COLLECTIVE (Table 11.5, R321), but for what needs the state. -/
def collOk (d : Desc) : Bool :=
  let op := bits d 131 128
  let n := bits d 414 400
  let e := bits d 351 320
  let r := collRanges d
  bit d 135 == false && bits d 159 150 == 0 && bits d 191 184 == 0 && bits d 255 240 == 0 && bits d 319 304 == 0 &&
  !bit d 415 && bits d 431 416 == 0 && bits d 511 448 == 0 && Nat.ble op 3 && Nat.ble 2 n && Nat.ble n 16384 &&
  bits d 183 160 != 0 && bits d 239 192 % 512 == 0 && bits d 303 256 % 512 == 0 && bits d 399 352 % 512 == 0 &&
  (if op = 3 then Nat.blt (bits d 149 136) n else bits d 149 136 == 0) &&
  (match op with
   | 1 => !bit d 132 && e % (512 * n) == 0
   | 3 => !bit d 132 && e % 512 == 0
   | _ => e % (64 * n) == 0) &&
  (op == 3 || !overlaps (bits d 239 192) r.1 (bits d 303 256) r.2)
/-- The body of a COPY (Table 12.8, R352). -/
def copyOk (d : Desc) : Bool :=
  let sb := bit d 128
  let db := bit d 129
  let n := bits d 351 320
  bits d 191 131 == 0 && bits d 511 384 == 0 && n != 0 && n % 512 == 0 && (sb || db) && (!bit d 130 || (sb && db)) &&
  bits d 255 192 % (if sb then 512 else 64) == 0 && bits d 319 256 % (if db then 512 else 64) == 0 &&
  !(sb && db && overlaps (bits d 255 192) n (bits d 319 256) n)
/-- The OP_MAP entries that a PACE_SET selects are at most 7 (R353). -/
def paceOk (d : Desc) : Bool :=
  bits d 511 208 == 0 && (List.range 16).all (fun t => !bit d (192 + t) || Nat.ble (bits d (131 + 4 * t) (128 + 4 * t)) 7)
/-- The body of a TABLE_WRITE (Table 12.9, R353), but for the limits of the tables. -/
def tableOk (d : Desc) : Bool :=
  let k := bits d 129 128
  bits d 191 130 == 0 && bits d 511 336 == 0 && Nat.blt k 3 && bits d 223 208 != 0 &&
  (k == 2 || Nat.ble (bits d 223 208) 4096) && bits d 287 224 % 64 == 0 && (k != 2 || bits d 335 288 % 512 == 0)
/-- The dump size of R278. -/
def dumpSize (split : Bool) : Nat := if split then 347605504 else 695208448
/-- The body of a DUMP_SYNC (Table 9.7), whose size depends on the mode. -/
def dumpOk (split : Bool) (d : Desc) : Bool :=
  bits d 191 130 == 0 && bits d 511 320 == 0 && bits d 255 192 % 512 == 0 && Nat.ble (dumpSize split) (bits d 319 256)
/-- The body of a TEST_WINDOW (Table 14.6, R403): no cluster of the other wing in split mode. -/
def windowOk (split : Bool) (w : Nat) (d : Desc) : Bool :=
  bits d 131 128 != 0 && bits d 159 132 == 0 && bits d 511 224 == 0 &&
  (!split || (List.range 48).all (fun n => !bit d (160 + n) || wingOfCluster n == w))

/-- Check 3 of R346: FAMILY, the reserved fields and the body. -/
def formatOk (split : Bool) (w : Nat) (d : Desc) : Bool :=
  bits d 63 48 == 0 &&
  (match famOf d with
   | 1 => loadOk d
   | 2 => stepOk d
   | 3 => passOk true d
   | 4 => passOk false d
   | 5 => collOk d
   | 6 => copyOk d
   | 7 => bits d 511 256 == 0
   | 8 => bits d 159 135 == 0 && bits d 511 192 == 0
   | 9 => windowOk split w d
   | 10 => paceOk d
   | 11 => dumpOk split d
   | 12 => bits d 511 130 == 0 && bits d 129 128 != 3
   | 13 => tableOk d
   | _ => false)
/-- SEQ of a descriptor (Table 12.4). -/
def dSeq (d : Desc) : BitVec 32 := BitVec.ofNat 32 (bits d 47 16)
/-- The checks of R346 in order: the code of the first that fails. -/
def fetchCheck (split : Bool) (w : Nat) (expect : BitVec 32) (d : Desc) : Option Code :=
  if dSeq d ≠ expect then some (stepCode 3)
  else if bits d 3 0 ≠ 1 then some (stepCode 2)
  else if !formatOk split w d then some (stepCode 1)
  else none

/-! ### Rings -/

/-- Whether SIZE is a power of two from 64 to 65,536 (Table 12.14). -/
def sizeOk (n : BitVec 17) : Bool := (List.range 11).any (fun k => n.toNat == 64 * 2 ^ k)
/-- Whether a submission ring is in use: ENABLE with a valid SIZE (Table 12.14). -/
def SubRing.inUse (r : SubRing) : Bool := r.enable && sizeOk r.size
/-- Whether a completion ring is in use. -/
def CompRing.inUse (r : CompRing) : Bool := r.enable && sizeOk r.size
/-- The wing of the other kind of ring: in split mode rings 0–63 serve the west wing (R340). -/
def State.sameWing (s : State) (i j : Nat) : Bool := !s.split || (Nat.blt i 64 == Nat.blt j 64)
/-- Whether a completion ring has a free slot: HEAD_SEEN + SIZE exceeds the records posted plus the slots reserved
(R343). -/
def CompRing.room (c : CompRing) : Bool :=
  Nat.blt ((c.posted - c.headSeen).toNat + c.reserved) c.size.toNat
/-- Why a ring halts at a fetch attempt (R344). -/
def State.haltCause (s : State) (i : Nat) : Option Code :=
  let r := s.sring i
  if r.size.toNat < (r.tail - r.head).toNat then some (stepCode 7)
  else if !(s.cring r.cq.toNat).inUse || !s.sameWing i r.cq.toNat then some (stepCode 7)
  else none
/-- Whether a ring has something to do at a fetch attempt: a halt, or a fetch with a slot to reserve (R343, R344). -/
def State.ringReady (s : State) (i : Nat) : Bool :=
  let r := s.sring i
  r.inUse && !r.halted && r.tail != r.head && ((s.haltCause i).isSome || (s.cring r.cq.toNat).room)

/-- Halts a ring: its record takes no reserved slot (R344). -/
def State.haltRing (s : State) (i : Nat) (code : Code) : State :=
  let r := s.sring i
  let rec_ : OutRec := { ring := i, seq := r.expect, family := 0, disp := 1, fault := code, reserved := false }
  (s.onSring i (fun x => { x with halted := true, haltFault := code })).onCring r.cq.toNat (fun c => { c with
    waiting := c.waiting ++ [rec_] })

/-- Reads a companion line into the link cache, unless it is on its way (R335). -/
def State.readShared (s : State) (a : Nat) (u : CompUse) : State :=
  if s.link.toComp.any (fun m => m == .rdShared a u) then s
  else { s with link := { s.link with toComp := s.link.toComp ++ [.rdShared a u] } }
/-- Sends a write to the companion. -/
def State.writeComp (s : State) (a : Nat) (bs : List Byte) (u : CompUse) : State :=
  { s with link := { s.link with toComp := s.link.toComp ++ [.wrNc a bs u] } }
/-- A line of the link cache. -/
def Link.line (l : Link) (a : Nat) : Option Desc := (l.cache.find? (fun c => c.addr == a)).map (·.data)
/-- A line of the link cache becomes the most recently used. -/
def Link.touch (l : Link) (a : Nat) : Link :=
  { l with cache := l.cache.filter (fun c => c.addr == a) ++ l.cache.filter (fun c => c.addr != a) }
/-- The doorbell line of a submission ring. -/
def SubRing.dbAddr (r : SubRing) : Nat := 64 * r.db.toNat
/-- The doorbell line of a completion ring. -/
def CompRing.dbAddr (r : CompRing) : Nat := 64 * r.db.toNat
/-- The address of the submission entry at an index (R340). -/
def SubRing.entry (r : SubRing) (k : BitVec 32) : Nat := 64 * r.base.toNat + 64 * (k.toNat % r.size.toNat)

/-- Fetched descriptors of a wing without an outcome: those in flight, and those whose record is not posted (R345). -/
def State.unposted (s : State) (w : Nat) : Nat :=
  let mine (o : OutRec) : Bool := o.reserved && s.ringWing o.ring == w
  (s.flights.filter (fun f => f.wing == w)).length +
  (s.cq.map (fun c => (c.2.waiting.filter mine).length + (match c.2.held with
    | some h => if mine h.1 then 1 else 0
    | none => 0))).foldl (· + ·) 0

/-- Whether a record that was held over a loss of the link or a warm reset is still to be posted on a completion ring in use (R337,
R356, R371). -/
def State.heldRecords (s : State) : Bool :=
  let old (o : OutRec) : Bool := o.disp == 4 && (o.fault == linkCode 0x807 || o.fault == stepCode 6)
  s.cq.any (fun c => c.2.inUse && (c.2.waiting.any old || c.2.held.any (fun h => old h.1)))
/-- Whether a wing's rings fetch: from its capstone on; the rings of a FAILED wing from the other wing's (R371, R372). Records held over a
loss of the link or a warm reset are posted first (R337, R371). -/
def State.fetches (s : State) (w : Nat) : Bool :=
  s.link.up && !s.heldRecords && ((s.wing w).phase == 7 || (s.split && (s.wing w).phase == 10 && (s.wing (1 - w)).phase == 7))
/-- Whether a ready ring can be served: it halts, or its descriptor's line is in the link cache (R335, R343). -/
def State.ringServable (s : State) (i : Nat) : Bool :=
  s.ringReady i && ((s.haltCause i).isSome || (s.link.line ((s.sring i).entry (s.sring i).head)).isSome)
/-- The ring that is served next, with the fetches left in its turn: the ring of the present turn while its turn lasts,
else the next servable ring in increasing order (R343). -/
def State.nextRing (s : State) (w : Nat) : Option (Nat × Nat) :=
  let x := s.wing w
  let ready (i : Nat) : Bool := s.ringWing i == w && s.ringServable i
  if Nat.blt 0 x.turnLeft && ready x.turnRing then some (x.turnRing, x.turnLeft - 1)
  else
    match ((List.range 128).map (fun k => (x.turnRing + 1 + k) % 128)).find? ready with
    | some i => some (i, (if (s.sring i).weight = 0 then 1 else (s.sring i).weight.toNat) - 1)
    | none => none

/-- Enters a fetched descriptor: HEAD and EXPECT_SEQ advance and a completion slot is reserved (R343, R346). -/
def State.takeEntry (s : State) (i : Nat) (d : Desc) : State :=
  let r := s.sring i
  { ((s.onSring i (fun x => { x with head := x.head + 1, expect := dSeq d + 1, marks := x.marks.filter (fun m => m.1 != r.head) })).onCring
      r.cq.toNat (fun c => { c with reserved := c.reserved + 1 })) with fetched := s.fetched + 1 }
/-- The flight that a descriptor opens. -/
def State.newFlight (s : State) (i : Nat) (d : Desc) : Flight :=
  { ring := i, seq := dSeq d, words := d, wing := s.ringWing i, order := s.fetched }
/-- Fetches the descriptor at HEAD: a marked one is ABORTED, one that fails a check is refused, and the rest are in
flight (R346, R357, R372, R475). -/
def State.fetchEntry (s : State) (i : Nat) (d : Desc) : State :=
  let r := s.sring i
  let w := s.ringWing i
  let f := s.newFlight i d
  let s1 := s.takeEntry i d
  match r.marks.find? (fun m => m.1 == r.head) with
  | some m => s1.settleFlight { f with after := some m.2 } 3 (stepCode 4) 0 0
  | none =>
    match fetchCheck s.split w r.expect d with
    | some c => s1.refuse f c
    | none =>
      if (s.wing w).phase = 10 ∧ classOf (famOf d) ≠ .control then s1.refuse f (stepCode 8)
      else { s1 with flights := s1.flights ++ [f] }

/-- One fetch attempt of a wing: the next ring halts or fetches, fewer than 256 fetched descriptors being without an
outcome; where no line is at hand, the lines that ready rings need are read (R335, R343 to R345). -/
def State.fetchTurn (s : State) (w : Nat) : State :=
  match s.nextRing w with
  | none => (List.range 128).foldl (fun (t : State) i =>
      if s.ringWing i == w && s.ringReady i then t.readShared ((s.sring i).entry (s.sring i).head) (.descriptor i) else t) s
  | some (i, left) =>
    let r := s.sring i
    let s1 := s.onWing w (fun x => { x with turnRing := i, turnLeft := left })
    match s.haltCause i with
    | some c => s1.haltRing i c
    | none =>
      if Nat.ble 256 (s.unposted w) then s
      else match s.link.line (r.entry r.head) with
        | some d => ({ s1 with link := s1.link.touch (r.entry r.head) }).fetchEntry i d
        | none => s

/-! ### Starting (R347, R348, R382, R422, R474) -/

/-- Whether every compute rail of the wings that w's controller directs stands (R422 to R425). -/
def State.railsOn (s : State) (w : Nat) : Bool :=
  (List.range 48).all (fun n => !(s.wings w).contains (wingOfCluster n) || s.railOn n)
/-- Whether an array outcome of a wing is still to be posted, on whatever completion ring (R140, R382). -/
def State.arrayUnposted (s : State) (w : Nat) : Bool :=
  s.cq.any (fun c => (c.2.waiting.any (fun o => o.array == some w) ||
    (match c.2.held with
     | some h => h.1.array == some w
     | none => false)))
/-- Whether the wing lets an array descriptor start: it is at capstone and not in level mode, no drain, re-form or
boundary is due, nothing runs, and every rail stands. -/
def State.arrayFree (s : State) (w : Nat) : Bool :=
  let x := s.wing (s.lead w)
  x.phase == 7 && !x.level && x.drain.isNone && x.reformDue.isNone && !x.boundaryDue && x.bTests.isEmpty &&
  (s.runningArray w).isNone && !s.arrayUnposted w && s.railsOn w
/-- Whether a queued descriptor may start (R347). -/
def State.mayStart (s : State) (f : Flight) : Bool :=
  f.stage == .queued &&
  s.flights.all (fun g => !(g.ring == f.ring && Nat.blt g.order f.order) ||
    (g.stage != .queued && famOf g.words != 7)) &&
  (match f.cls with
   | .control => true
   | .gateway =>
     Nat.blt (s.flights.filter (fun g => g.wing == f.wing && g.stage == .running && famOf g.words == famOf f.words)).length
       (if famOf f.words = 5 then 8 else 16)
   | .array => s.arrayFree f.wing &&
     s.flights.all (fun g => !(g.cls == .array && g.wing == f.wing && Nat.blt g.order f.order)))
/-- Runs the start of a descriptor of a family that may start now; nothing otherwise. An array descriptor that would
start on a wing with a debug halt in force is refused (R475, R476). -/
def State.starting (s : State) (ring : Nat) (seq : BitVec 32) (fam : Nat) (go : Flight → State) : State :=
  match s.flight ring seq with
  | none => s
  | some f =>
    if famOf f.words = fam ∧ s.mayStart f = true then
      if f.cls = .array ∧ (s.wing (s.lead f.wing)).halted = true then s.refuse f (stepCode 8)
      else go f
    else s
/-- Entry t of an OP_MAP word. -/
def opEntry (m : Word) (t : Nat) : Nat := bits m (4 * t + 3) (4 * t)
/-- The wing's LINK_OP_MAP (R348). -/
def State.opMap (s : State) (w : Nat) : Word := if s.lead w = 0 then s.link.opMap0 else s.link.opMap1
/-- A descriptor starts: an array descriptor sets its wing's preferred operating point (R348); an entry above 7 names
none, and the point is then free. -/
def State.begin_ (s : State) (f : Flight) : State :=
  let s1 := s.onFlight f.ring f.seq (fun g => { g with stage := .running })
  if f.cls = .array then
    let e := opEntry (s.opMap f.wing) (bits f.words 15 12)
    let op : BitVec 3 := if e ≤ 7 then BitVec.ofNat 3 e else Config.freeOp s.freeCtr
    { (s1.onWing (s.lead f.wing) (fun x => { x with power := { x.power with prefOp := op } })) with
      freeCtr := if e ≤ 7 then s.freeCtr else s.freeCtr + 1 }
  else s1

/-- Reads the doorbell lines of the enabled rings of a wing (R371). -/
def State.readDoorbells (s : State) (w : Nat) : State :=
  let s1 := (List.range 128).foldl (fun (t : State) i =>
    if (t.sring i).inUse && t.ringWing i == w then t.readShared (t.sring i).dbAddr (.doorbell false i) else t) s
  (List.range 128).foldl (fun (t : State) j =>
    if (t.cring j).inUse && t.ringWing j == w then t.readShared (t.cring j).dbAddr (.doorbell true j) else t) s1

/-! ### Records (R354, R408) -/

/-- PHASE of the record at a free-running index (R354). -/
def passParity (c : CompRing) : Nat := (c.posted.toNat / c.size.toNat + 1) % 2
/-- The 32 bytes of an outcome record (Table 12.10). -/
def recordBytes (c : CompRing) (r : OutRec) (timeUs : Nat) : List Byte :=
  toBytes 32 (1 + passParity c * 2 ^ 4 + r.disp % 8 * 2 ^ 5 + r.family % 256 * 2 ^ 8 + r.status % 256 * 2 ^ 16 +
    r.ring % 128 * 2 ^ 24 + r.seq.toNat * 2 ^ 32 + r.fault.toNat * 2 ^ 64 + r.whereKind % 16 * 2 ^ 80 +
    r.where_ % 2 ^ 32 * 2 ^ 96 + r.user.toNat * 2 ^ 128 + min timeUs 0xFFFFFFFF * 2 ^ 192)
/-- The companion address of the record at POSTED. -/
def CompRing.recordAddr (c : CompRing) : Nat := 32 * c.base.toNat + 32 * (c.posted.toNat % c.size.toNat)
/-- Whether a message to the companion is an unanswered access of a descriptor. -/
def ownMsg (ring : Nat) (seq : BitVec 32) : CompMsg → Bool
  | .wrNc _ _ (.flight r q) => r == ring && q == seq
  | _ => false
/-- Whether the first waiting record of a completion ring may be posted now: every write of its descriptor to the
companion is acknowledged, its wing is not in warm bring-up, and there is room (R344, R354, R371). -/
def State.mayPost (s : State) (c : CompRing) (r : OutRec) : Bool :=
  let named (k : Nat × BitVec 32) (o : OutRec) : Bool := o.ring == k.1 && o.seq == k.2
  let unposted (k : Nat × BitVec 32) : Bool := s.cq.any (fun e => e.2.waiting.any (named k) || e.2.held.any (fun h => named k h.1))
  c.inUse && s.link.up && c.held.isNone && !r.after.any unposted && (s.wing (s.lead (s.ringWing r.ring))).phase != 8 &&
  !s.link.toComp.any (ownMsg r.ring r.seq) && (r.reserved || c.room)

end Sys2Proof.Machine
end

