-- ==== Sys2Proof/Machine/BootOps.lean ====
section
/-!
DEFINITION. What cold reset, warm reset and bring-up leave (R363 to R375, R434, R435, R483), the reports of tests (R384,
R387, R391, R392, R407), re-forms (R376 to R379) and the capstone (R371).
-/

namespace Sys2Proof.Machine

/-! ### Reset (R367, R452, R483) -/

/-- What module flash and fuses give a cluster: its repair state (R24, R395). -/
def Cluster.cold (x : Cluster) : Cluster :=
  { chanMap := x.chanMap, retRows := x.retRows, retPos := x.retPos, reserveLow := x.reserveLow, geomLost := x.geomLost }
/-- What module flash gives a port: its binding (R313). -/
def Port.cold (x : Port) : Port := { logical := x.logical, bound := x.bound }
/-- The module without power to its wafer: everything but flash, fuses, the housekeeping block, the pins and the queue
is at its Reset column (R367). The sideband's own copies of the INDEX fields keep their values (R456; log 61). -/
def State.cold (s : State) : State :=
  { ports := s.ports.map (fun e => (e.1, e.2.cold)), clusters := s.clusters.map (fun e => (e.1, e.2.cold)),
    health := { spall := s.health.spall,
                units := (s.health.units.filter (fun e => Nat.ble (15 * 2 ^ 24) e.1 && e.2.obsLeft != 0)).map (fun e =>
                  (e.1, { obsLeft := e.2.obsLeft, code := e.2.code })) },
    pack := { activeId := s.pack.activeId, pendingId := s.pack.pendingId, suspect := s.pack.suspect,
              activeDigest := s.pack.activeDigest, pendingDigest := s.pack.pendingDigest },
    sec := s.coldSec, sb := { s.sb with plinthReady := false, ibiDue := false, ibiRefused := false }, tap := s.tap,
    pins := { s.pins with attn := false }, freeCtr := s.freeCtr + 1, pending := s.pending }

/-- The RW fields return to their Reset column at a warm reset (R483); the sideband's own copies of the INDEX fields keep their values
(R456; log 61). -/
def State.resetRw (s : State) : State :=
  { s with
    health := { s.health with spallIndex := 0, logIndex := 0 },
    pack := { s.pack with src := 0, len := 0 },
    sec := { s.sec with fwSrc := 0, fwLen := 0, op := 0, arg := 0, addr := 0, nonce := [], ledgerIndex := 0, measIndex := 0 },
    link := { s.link with apsel := [] } }
/-- A core at a warm reset: sections off, queues empty, the counters and status of a step at 0, the epoch 0; error
records and snapshots stay (R69, R100, R120, R128, R170, R187, R214, R247, R266, R271, R276). -/
def Core.warm (c : Core) : Core :=
  let c1 := c.clearStep.clearQueues
  { c1 with
    arith := { c1.arith with rmodeDefault := 0, satDefault := true, convCount := 0 },
    mem := { (c1.mem.turnOff 0xFF) with releasePend := 0 },
    flow := { c1.flow with epoch := 0, loops := [], suppress := [] },
    snap := c.snap, snapLost := c.snapLost, limit := c1.limit.settle }

/-! ### Reports of tests -/

/-- The unit of an entry of the spall map (Table 14.5). -/
def entryUnit (e : SpallEntry) : TestUnit :=
  let l := e.loc.toNat
  match e.kind.toNat with
  | 0 => .core (BitVec.ofNat 22 l)
  | 1 => .row (BitVec.ofNat 22 l)
  | 2 => .channel (l / 256) (l % 256)
  | 3 => .port l
  | 4 => .lane l
  | _ => .wire (BitVec.ofNat 4 (l / 2 ^ 20)) (BitVec.ofNat 20 l)
/-- The units under observation, each with the event that put it there (R389). -/
def State.observedUnits (s : State) : List (TestUnit × Code) :=
  (s.health.spall.filter (fun e => e.state == 1)).map (fun e => (entryUnit e, e.cause)) ++
    s.observedLasting.map (fun u => (u, (s.unit u).code))
/-- Whether a unit belongs to one of a list of wings. -/
def State.inWings (s : State) (ws : List Nat) (u : TestUnit) : Bool := ws.contains (s.unitWing u)
/-- The code that led to the test of a unit, if a targeted test of it is due (R383). -/
def WingState.dueCode (x : WingState) (u : TestUnit) : Option Code :=
  ((x.bTests ++ x.fTests).find? (fun t => t.1 == u)).map (·.2)

/-- The results of a run of the active pack: none is applied when more than 64 cores of a wing fail; the pack is then SUSPECT
(R407). -/
def State.packRun (s : State) (w : Nat) (rs : List TestReport) : State :=
  if s.pack.activeId = 0 ∨ s.pack.suspect = true then s
  else
    let bad := rs.filter (fun r => failsTest r.result && (match r.unit with | .core _ => true | _ => false))
    if [0, 1].any (fun v => Nat.blt 64 (bad.filter (fun r => s.unitWing r.unit == v)).length) then
      (({ s with pack := { s.pack with suspect := true } }).logEntry w (coreCode 0x14) 0 0 0 true (coreCode 0x14)).attend w
    else rs.foldl (fun t r => t.verdict w .pack 0 r.unit r.result) s
/-- Enters the reports of one test phase for the units of some wings: targeted where a test of the unit is due, and the
mode given otherwise. -/
def State.enterReports (s : State) (w : Nat) (ws : List Nat) (mode : TestMode) (rs : List TestReport) : State :=
  let mine := rs.filter (fun r => s.inWings ws r.unit)
  let x := s.wing (s.lead w)
  let s1 := (mine.filter (fun r => !r.pack)).foldl (fun (t : State) r =>
    match x.dueCode r.unit with
    | some c => t.verdict w .targeted c r.unit r.result
    | none => t.verdict w mode 0 r.unit r.result) s
  s1.packRun w (mine.filter (fun r => r.pack))
/-- Units with a targeted test due and no report have passed it. -/
def State.passOthers (s : State) (w : Nat) (us : List (TestUnit × Code)) (rs : List TestReport) : State :=
  (us.filter (fun u => !rs.any (fun r => r.unit == u.1 && !r.pack))).foldl (fun t u => t.verdict w .targeted u.2 u.1 .pass) s
/-- A tested core: its retained sections with a bad line are off (R169, R384), and after CORE:0x003 it receives the firmware again
(R386). -/
def State.scanCores (s : State) (us : List (TestUnit × Code)) : State :=
  us.foldl (fun (t : State) u =>
    match u.1 with
    | .core p => match t.coreAt p.toNat with
      | some c => t.onCore c (fun k => { k with
          mem := { k.mem.turnOff k.mem.entryBad with entryBad := 0 },
          control := if u.2 = coreCode 3 then some (s.measurement 1) else k.control })
      | none => t
    | _ => t) s
/-- A seam failure beyond its spare that a test has just confirmed: CORE:0x022 and ATTN (R399). -/
def State.seamVerdict (s : State) (w : Nat) (before : Bool) : State :=
  if s.seamFailed && !before then (s.logEntry w (coreCode 0x22) 4 0 3 false (coreCode 0x22)).attend w else s
/-- Verdicts found by the tests of a bring-up or re-form phase start no further re-form: their repair is applied in it. -/
def State.keepDue (s t : State) (w : Nat) : State :=
  t.onWing w (fun x => { x with reformDue := if x.phase = 10 then none else (s.wing w).reformDue })

/-- After a change of causes: B(n) is 0 at every rail that has come back, and F is 0 in its wing (R426). -/
def State.backFrom (s t : State) : State :=
  let back (n : Nat) : Bool := t.railOn n && !s.railOn n
  let u := { t with clusters := Map.mapIf back (fun x => { x with balance := 0 }) t.clusters }
  [0, 1].foldl (fun (v : State) w =>
    if (List.range 48).any (fun n => wingOfCluster n == w && back n) then
      v.onWing w (fun x => { x with power := { x.power with ballast := 0 } }) else v) u
/-- The targeted test of a voltage domain restores its rail (R425). -/
def State.restoreDomains (s : State) (us : List (TestUnit × Code)) : State :=
  s.backFrom (us.foldl (fun (t : State) u =>
    match u.1 with
    | .vdomain n => t.onCluster n (fun x => { x with railFault := false, balance := 0 })
    | _ => t) s)
/-- Known-answer tests of the core of a CHECK code (R391, Table 14.3). -/
def State.katVerdict (s : State) (w : Nat) (code : Code) (p : BitVec 22) (k : Kat) : State :=
  let u := TestUnit.core p
  if k.datapathPass && k.checkerPass then
    let s1 := s.logEntry w code 0 p.toNat 1 false 0
    let e := s.health.entry u
    (((s1.putEntry { e with
      state := 1, cause := code, transients := (satAdd e.transients e.transSat 1).1,
      transSat := (satAdd e.transients e.transSat 1).2 }).onUnit u (fun x => { x with
        obsLeft := s.obsSteps, lastTransient := some s.seconds }))).showCore u
  else
    let result := if k.datapathPass then coreCode 0x12 else if k.checkerPass then coreCode 0x11 else coreCode 0x13
    match k.failedCols with
    | [c] => s.outOfUse w u code result (if !k.datapathPass && k.checkerPass then .failColumn c else .fail) false
    | _ => s.outOfUse w u code result .fail false
/-- Whether a code is one of CHECK:0x001 to 0x003 (R391). -/
def checkerCode (c : Code) : Bool := c == checkCode 1 || c == checkCode 2 || c == checkCode 3
/-- The known-answer tests of a re-form: a core with none reported has passed both. -/
def State.katRun (s : State) (w : Nat) (us : List (TestUnit × Code)) (kats : List Kat) : State :=
  us.foldl (fun (t : State) u =>
    match u.1 with
    | .core p => t.katVerdict w u.2 p ((kats.find? (fun k => t.position k.core == p.toNat)).getD ⟨0, true, [], true⟩)
    | _ => t) s

/-! ### Cold bring-up (R363 to R370, R434) -/

/-- The candidate slots of R434, in order. -/
def Security.candidates (x : Security) : List Nat :=
  let n (b : Bool) : Nat := if b then 1 else 0
  ((match x.trialMark with
    | some t => [n t]
    | none => []) ++ [n x.active, n (!x.active)]).eraseDups
/-- A candidate that neither wing verified is BAD (R434). -/
def Security.markBad (x : Security) (tried : List Nat) : Security :=
  tried.foldl (fun y n => if (y.slot (n == 1)).state = 1 then y.setSlot (n == 1) { y.slot (n == 1) with state := 3 } else y) x
/-- The slot that the module boots, with the wings that boot (R434). -/
def Security.choose (x : Security) (west east : List Nat) : Option Nat × List Nat :=
  let c := x.candidates
  match c.find? (fun n => west.contains n && east.contains n), c.find? west.contains, c.find? east.contains with
  | some n, _, _ => (some n, [0, 1])
  | none, some n, _ => (some n, [0])
  | none, none, some n => (some n, [1])
  | none, none, none => (none, [])
/-- The slots that can have passed verification: an EMPTY one and one BELOW_FLOOR cannot (R433, R434). -/
def Security.verified (x : Security) (l : List Nat) : List Nat := l.filter (fun n => (x.slot (n == 1)).state.toNat % 2 == 1)
/-- The choice of the firmware slot at the end of phase 1, once both wings have verified their candidates (R434). -/
def State.chooseFirmware (s : State) (west0 east0 : List Nat) : State :=
  let x := s.sec
  let west := x.verified west0
  let east := x.verified east0
  let (slot, ws) := x.choose west east
  let y := match slot with
    | none => x
    | some n =>
      let tried := (x.candidates.takeWhile (· != n)).filter (fun k => !west.contains k && !east.contains k)
      { x.markBad tried with
        inForce := n == 1, onTrial := x.trialMark == some (n == 1), trialFailed := false,
        fellBack := x.candidates.head? != some n || x.trialFailed }
  let s1 := { s with sec := y }
  let s2 := ws.foldl (fun (t : State) v => t.onWing v (fun z => { z with phase := 2 })) s1
  ([0, 1].filter (fun v => !ws.contains v)).foldl (fun (t : State) v => t.failWing v (securityCode 1)) s2

/-- Maps the channels of a wing's clusters after their test (R366). -/
def State.mapChannels (s : State) (w : Nat) : State :=
  (clustersOf w).foldl (fun (t : State) n =>
    match t.repairChans n with
    | some t' => t'
    | none => t.failWing w (memCode 0xE)) s
/-- A pending pack becomes active (R407). -/
def State.activatePack (s : State) : State :=
  if s.pack.pendingId = 0 then s
  else { s with pack := { s.pack with activeId := s.pack.pendingId, activeDigest := s.pack.pendingDigest, pendingId := 0,
                                      pendingDigest := 0, suspect := false } }
/-- The compute rails of a wing's clusters rise: B(n) is 0 and V_common is at the floor (R369, R411; log 27). -/
def State.raiseRails (s : State) (w : Nat) : State :=
  let s1 := (clustersOf w).foldl (fun (t : State) n => t.onCluster n (fun x => { x with
    railUp := true, selfTested := true, balance := 0 })) s
  s1.onWing w (fun x => { x with power := { x.power with vCommon := max 460 x.power.vCommon } })
/-- The compute rails of a wing's clusters go to retention. -/
def State.dropRails (s : State) (w : Nat) : State :=
  (clustersOf w).foldl (fun (t : State) n => t.onCluster n (fun x => { x with railUp := false })) s
/-- Observed units of a wing start observation again at a cold bring-up (R389). -/
def State.restartObservation (s : State) (w : Nat) : State :=
  (s.observedUnits.filter (fun e => s.unitWing e.1 == w)).foldl (fun (t : State) e =>
    (t.onUnit e.1 (fun x => { x with obsLeft := t.obsSteps })).showCore e.1) s
/-- The self-test counts as the cores' complete test (R400). -/
def State.testedNow (s : State) (w : Nat) : State :=
  let now := s.seconds
  s.onWing w (fun x => { x.mapCores (fun c => { c with health := { c.health with lastTest := now, testDue := false } }) with
    overdue := false })

/-- The duration of a cold phase, in units of 10 ms (Table 13.9). -/
def State.noteTime (s : State) (w p dur : Nat) : State :=
  s.onWing w (fun x => { x with times := Map.set x.times p (min dur 0x3FF) })
/-- The phase after a cold phase, unless the wing has entered FAILED; phase 5 needs flow (R369), and phase 4 starts the
training of the Tirrik link, or of the ports where it is up already (R368). -/
def State.nextCold (s : State) (w p : Nat) : State :=
  let s1 := if p = 4 ∧ s.link.up = true ∧ (s.wing w).phase ≠ 10 then s.startPorts w else s
  ({ s1 with link := { s.link with training := s.link.training || (p == 4 && !s.link.up) } }).onWing w (fun x => if x.phase = 10 then x else { x with
    phase := if p = 5 ∧ s.pins.flowOk = false then 11 else BitVec.ofNat 4 p })

/-- The tests of a phase enter their failures; one that the seam does not survive is recorded and forms split mode (R30, R369,
R399). -/
def State.bootTests (s : State) (l w : Nat) (ws : List Nat) (rs : List TestReport) : State :=
  (s.keepDue ((s.enterReports w ws .builtIn rs).seamVerdict w s.seamFailed) l).seamSplit
/-- Every core of a wing holds the core firmware in force, which it has checked against the digest (R370). -/
def State.placeFirmware (s : State) (w : Nat) : State :=
  s.onWing w (fun x => x.mapCores (fun c => { c with control := some (s.measurement 1) }))
/-- Phase 5: the self-test's failures, the repair state, and what comes up with the cores (R369, R407). -/
def State.coldCores (s : State) (w : Nat) (rs : List TestReport) : State :=
  ((((s.activatePack.bootTests w w [w] rs).applyRepair w).raiseRails w).restartObservation w).testedNow w
/-- A cold phase of a wing completes and the next begins (R363). -/
def State.coldPhase (s : State) (w dur : Nat) (fwOk : List Nat) (rs : List TestReport) : State :=
  let x := s.wing w
  match x.phase.toNat with
  | 1 =>
    let s1 := { (s.noteTime w 1 dur).onWing w (fun y => { y with fwVerified := some fwOk }) with sec := s.sec.rebuild }
    match s1.west.fwVerified, s1.east.fwVerified with
    | some a, some b => s1.chooseFirmware a b
    | _, _ => s1
  | 2 =>
    if x.paceValid then
      { ((s.noteTime w 2 dur).bootTests w w [w] rs) with seamKnown := true }.nextCold w 3
    else s
  | 3 =>
    (((s.noteTime w 3 dur).bootTests w w [w] rs).mapChannels w).nextCold w 4
  | 4 =>
    if s.allPortsUp w then (s.noteTime w 4 dur).nextCold w 5 else s
  | 5 => if s.pins.flowOk then ((s.noteTime w 5 dur).coldCores w rs).nextCold w 6 else s.nextCold w 5
  | 6 =>
    if x.capDue then s
    else
      ((((s.noteTime w 6 dur).bootTests w w [w] rs).applyRepair w).placeFirmware w).onWing w (fun y => { y with capDue := y.phase == 6 })
  | _ => s

/-! ### Warm bring-up (R374, R375) -/

/-- The wings that are not FAILED. -/
def State.alive (s : State) : List Nat := [0, 1].filter (fun v => (s.wing v).phase != 10)
/-- A recognised warm reset: accepted writes stand, everything else in flight goes, every halt is released (R374, R375,
R444, R476). -/
def State.warmReset (s : State) : State :=
  let s1 := (((s.discardAll (fun _ => true) (stepCode 6)).abandonSec true).releaseHalts).resetRw
  let s2 := { s1 with chans := Map.mapIf (fun _ => true) (fun c => { c with reads := [], writes := [], answers := [] }) s1.chans }
  s2.alive.foldl (fun (t : State) v => t.onWing v (fun x => { x with
    phase := 8, warmPhase := 1, lastKind := 2, coupled := false, run := none, pass := none, window := none, reform := none,
    drain := none, draining := false, capDue := false, boundaryDue := false })) s2
/-- Warm phase 2: sections off, epoch 0, queues and step state cleared, compute rails to retention. -/
def State.warmDiscard (s : State) (ws : List Nat) : State :=
  ws.foldl (fun (t : State) v =>
    (t.onWing v (fun x => { x.mapCores (fun c => c.warm) with epoch := 0, level := true, drainCause := x.drainCause, wafer := [] })).dropRails v)
    { s with chans := Map.mapIf (fun n => ws.contains (wingOfChan n)) (fun c => { c with
        hits := 0, hitSat := false, misses := 0, missSat := false, nWrites := 0, writeSat := false, extOps := 0, extSat := false,
        cache := [] }) s.chans }
/-- The wings that go through a bring-up or re-form together. -/
def State.together (s : State) (w : Nat) : List Nat := (s.wings (s.lead w)).filter (fun v => s.alive.contains v)
/-- A warm phase completes and the next begins (Table 13.3); phase 4 needs flow (Table 13.5). -/
def State.warmPhase (s : State) (w : Nat) (rs : List TestReport) : State :=
  let l := s.lead w
  let ws := s.together w
  let goTo (t : State) (p : Nat) : State := ws.foldl (fun (u : State) v => u.onWing v (fun x =>
    if x.phase = 10 then x else { x with warmPhase := p, phase := if p = 4 ∧ s.pins.flowOk = false then 11 else 8 })) t
  if (s.wing l).phase = 8 then
    match (s.wing l).warmPhase with
    | 1 => goTo s 2
    | 2 => goTo (s.warmDiscard ws) 3
    | 3 => goTo s 4
    | 4 =>
      if s.pins.flowOk then
        let s2 := ws.foldl (fun (t : State) v => (t.applyRepair v).raiseRails v) (s.bootTests l w ws rs)
        goTo (ws.foldl (fun (t : State) v => t.testedNow v) s2) 5
      else goTo s 4
    | 5 => ws.foldl (fun (t : State) v => (t.placeFirmware v).onWing v (fun x => { x with capDue := x.phase == 8 })) s
    | _ => s
  else s

/-! ### Re-form (R376 to R379, Table 13.4) -/

/-- The wings that a re-form acts on: both when it joins them. -/
def State.reformWings (s : State) (l : Nat) (r : ReformRun) : List Nat :=
  if s.split && !r.toSplit then s.alive else s.together l
/-- Whether the wings of a re-form have nothing left to drain. -/
def State.drainedWings (s : State) (ws : List Nat) : Bool :=
  ws.all (fun v => (s.wing (s.lead v)).drain.isNone && !s.stepRuns v)
/-- What a re-form that starts now would do: the one that a REFORM asked for, or one for a fault or repair decision. -/
def WingState.nextReform (x : WingState) (split : Bool) : Option ReformRun :=
  match x.reform with
  | some r => some r
  | none => x.reformDue.map (fun c => { phase := 0, cause := c, toSplit := split })
/-- The drain of a re-form whose wings run no step ends at its first sample, every loop being home (R215). -/
def WingState.idleDrain (beats : BitVec 24) (x : WingState) : WingState :=
  { x with drainCause := 3, allEmpty := true, drainTimeout := false, lastDrain := beats }
/-- Phase 1 of a re-form on a wing: its drain, or after a drain timeout or a coupling timeout the clearing of its queues (Table
13.4, R66, R212, R215). -/
def WingState.reformOne (beats : BitVec 24) (kind : BitVec 3) (x : WingState) : WingState :=
  let y := if x.queuesLost then x.mapCores (fun c => c.clearQueues) else x.idleDrain beats
  { y.mapCores (fun c => { c with health := { c.health with moved := false } }) with
    phase := 9, lastKind := kind, coupled := false, drain := none, draining := false, boundaryDue := false, queuesLost := false,
    changed := 0, moved := 0, movedSat := false }
/-- A re-form starts (phase 1): everything in flight on its wings is DISCARDED but the REFORM or TEST_WINDOW that it
belongs to (Table 13.4, R66, R212, R396, R444). Where a wing to be joined still runs a step, a re-form that follows a fault ends
it with a drain, and one that a REFORM asks for waits for its outcome (R215). -/
def State.startReform (s : State) (w : Nat) : State :=
  let l := s.lead w
  let x := s.wing l
  match x.nextReform s.split with
  | none => s
  | some r =>
    let ws := s.reformWings l r
    let own (f : Flight) : Bool := (r.byDesc && f.ring == r.byRing && f.seq == r.bySeq) ||
      (match x.window with
       | some v => f.ring == v.ring && f.seq == v.seq
       | none => false)
    if r.phase ≠ 0 ∨ x.phase ≠ 7 then s
    else if !s.drainedWings ws then
      if r.byDesc then s
      else ws.foldl (fun (t : State) v => if t.stepRuns v then t.endRunning v 4 (stepCode 5) 0 0 (some 3) else t) s
    else
      let kind : BitVec 3 := if r.byDesc then (if r.asked then 5 else 4) else 3
      let s1 := (s.discardAll (fun f => ws.contains f.wing && !own f) (stepCode 5)).abandonSec false
      let s2 := ws.foldl (fun (t : State) v => t.onWing v (fun y => { y.reformOne (Config.freeBeats s.freeCtr) kind with
        reform := if v = l then some { r with phase := 1 } else y.reform })) s1
      { s2 with chans := Map.mapIf (fun n => ws.contains (wingOfChan n)) (fun c => { c with reads := [], writes := [], answers := [] }) s2.chans,
                freeCtr := s2.freeCtr + 1 }

/-- The mesh links that have failed are in use again once a re-form has repaired what their ends stand on (R257, R281). -/
def Core.linksBack (c : Core) : Core :=
  { c with router := { c.router with links := c.router.links.map (fun e => (e.1, { e.2 with failed := false })) } }
/-- Applies the spall map to the wings of a re-form; REPAIRED when the state changed. -/
def State.reformRepair (s : State) (l : Nat) (ws : List Nat) : State :=
  let due := ws.any (fun v => (s.wing v).repairDue)
  let s1 := ws.foldl (fun (t : State) v => (t.applyRepair v).onWing v (fun x => { x.mapCores Core.linksBack with repairDue := false })) s
  let now := due || decide (s1.clusters ≠ s.clusters) || decide (s1.ports ≠ s.ports)
  s1.onWing l (fun x => { x with reform := x.reform.map (fun r => { r with repaired := r.repaired || now }) })
/-- A re-form forms split mode while the seam has a failure beyond its spare (R30, R399). -/
def State.forceSplit (s : State) (l : Nat) : State :=
  if s.seamFailed then s.onWing l (fun y => { y with reform := y.reform.map (fun r => { r with
    forced := r.forced || !r.toSplit, toSplit := true }) })
  else s
/-- Re-form phase 4: the targeted tests, the known-answer tests and the tests of moved cores, then any repair they call
for (R385, R391, R399). -/
def State.reformTests (s : State) (w l : Nat) (ws : List Nat) (rs : List TestReport) (kats : List Kat) : State :=
  let x := s.wing l
  let due := x.bTests ++ x.fTests
  let checks := due.filter (fun t => checkerCode t.2)
  let others := due.filter (fun t => !checkerCode t.2)
  let s1 := (((s.restoreDomains due).scanCores due).enterReports w ws .builtIn (rs.filter (fun r => !checks.any (fun t => t.1 == r.unit)))).passOthers w others rs
  let s2 := (s1.katRun w checks kats).seamVerdict w s.seamFailed
  let s3 := (s.keepDue s2 l).onWing l (fun y => { y with bTests := [], fTests := [] })
  (s3.reformRepair l ws).forceSplit l

/-- The east wing's programs that a join keeps (R377). -/
def joinProgs (west east : List (Nat × Prog)) : List (Nat × Prog) :=
  east.foldl (fun m p => if m.length < 16 ∧ m.all (fun q => q.1 != p.1) then Map.set m p.1 p.2 else m) west
/-- Whole-wafer mode is formed: the west wing leads (R377). -/
def State.formWhole (s : State) (r : ReformRun) : State :=
  { s with split := false, west := { s.west with progs := joinProgs s.west.progs s.east.progs, reform := some r,
                                                 fab := { s.west.fab with colls := [] } } }
/-- The new epoch in wings and cores (R215, R377). -/
def State.setEpoch (s : State) (ws : List Nat) (e : BitVec 2) : State :=
  ws.foldl (fun (t : State) v => t.onWing v (fun x => { x.mapCores (fun c => { c with flow := { c.flow with epoch := e } }) with
    epoch := e })) s
/-- Re-form phase 6: the epoch, a change of mode, and the capstone that is then due. -/
def State.reformEnd (s : State) (l : Nat) (ws : List Nat) (r : ReformRun) : State :=
  let joins := s.split && !r.toSplit
  let splits := !s.split && r.toSplit
  let both := joins || splits || !s.split
  let e := (if both then s.west.epoch else (s.wing l).epoch) + 1
  let s1 := s.setEpoch (if both then [0, 1] else ws) e
  let s2 := if joins then s1.formWhole r else if splits then s1.formSplit else s1
  let s3 := if splits then s2.onWing (1 - l) (fun x => { x with reform := some { r with byDesc := false } }) else s2
  ws.foldl (fun (t : State) v => t.onWing v (fun x => { x with capDue := x.phase != 10 })) s3

/-- A re-form phase completes and the next begins (Table 13.4); phase 4 needs flow (Table 13.5). -/
def State.reformPhase (s : State) (w : Nat) (rs : List TestReport) (kats : List Kat) : State :=
  let l := s.lead w
  match (s.wing l).reform with
  | none => s
  | some r =>
    let ws := s.reformWings l r
    let goTo (t : State) (p : Nat) : State := (ws.foldl (fun (u : State) v => u.onWing v (fun x =>
      if x.phase = 10 then x else { x with
        phase := if p = 4 ∧ s.pins.flowOk = false then 11 else 9,
        level := x.level || Nat.ble 2 p, reformDue := if p ≤ 4 then none else x.reformDue })) t).onWing l (fun x => { x with
      reform := x.reform.map (fun q => { q with phase := p }) })
    if (s.wing l).phase = 9 ∧ (s.wing l).capDue = false then
      match r.phase with
      | 1 => goTo s 2
      | 2 => goTo s 3
      | 3 => goTo (s.reformRepair l ws) 4
      | 4 => if s.pins.flowOk then goTo (s.reformTests w l ws rs kats) 5 else goTo s 4
      | 5 =>
        let s1 := (s.enterReports w ws .builtIn rs).seamVerdict w s.seamFailed
        goTo (ws.foldl (fun (t : State) v => t.placeFirmware v) (((s.keepDue s1 l).reformRepair l ws).forceSplit l)) 6
      | 6 => s.reformEnd l ws r
      | _ => s
    else s

/-! ### The capstone (R371) -/

/-- STATUS of a REFORM (Table 13.7). -/
def ReformRun.status (r : ReformRun) : Nat := if r.forced then 2 else if r.repaired then 1 else 0
/-- A core at the capstone: its beat counter starts at 0 (R46). -/
def Core.capstone (e : BitVec 2) (c : Core) : Core :=
  { c with pace := { c.pace with beat := 0, wait := none, lateRun := 0, idle := false, shift := 0, placed := [], winBeats := 0, winWaits := 0 }, flow := { c.flow with epoch := e, layerStart := 0, sink := false } }
/-- A slot booted on trial becomes ACTIVE_SLOT at the first capstone (R435). -/
def Security.atCapstone (x : Security) : Security :=
  if x.onTrial then { x with active := x.inForce, trialMark := none, onTrial := false } else x
/-- The REFORM that a re-form belongs to reaches its commit point (R379). -/
def State.commitReform (s : State) (ran : Option ReformRun) : State :=
  match ran with
  | some r => if r.byDesc then
      match s.flight r.byRing r.bySeq with
      | some f => s.commitFlight { f with status := r.status }
      | none => s
    else s
  | none => s
/-- Whether a wing's capstone is due: in whole-wafer mode both wings' bring-up has ended, and no unit of the seam has failed
beyond its spare (R30). -/
def State.capReady (s : State) (l : Nat) : Bool :=
  (s.wing l).capDue && (s.split || (!s.seamFailed && (s.capstoned || (s.west.capDue && s.east.capDue))))
/-- Capstone of a wing, or of the wafer (R371). -/
def State.capstone (s : State) (w elapsedMs : Nat) : State :=
  let l := s.lead w
  if s.capReady l then
    let ran := (s.wing l).reform
    let s1 := (s.wings l).foldl (fun (t : State) v => t.onWing v (fun x => { x.mapCores (Core.capstone x.epoch) with
      phase := 7, level := x.window.isSome, coupled := true, windowTag := 0, paceDirty := x.refFault, capDue := false, reform := none, warmPhase := 0, fwVerified := none,
      window := x.window.map (fun v => { v with repaired := v.repaired || (match ran with
        | some r => r.repaired
        | none => false) }),
      elapsed := BitVec.ofNat 14 (min elapsedMs 0x3FFF), run := none, pass := none, drain := none, draining := false })) s
    let s2 := { (s1.clearCaches l) with capstoned := true, sec := s1.sec.atCapstone }
    let s3 := (s2.commitReform ran).readDoorbells l
    if s3.split && (s3.wing (1 - l)).phase == 10 then s3.readDoorbells (1 - l) else s3
  else s

end Sys2Proof.Machine
end

