-- ==== Sys2Proof/Machine/LinkOps.lean ====
section
/-!
DEFINITION. The Tirrik link (R331 to R337): its going down and up, and the answers of the companion.
-/

namespace Sys2Proof.Machine

/-- Records an event of the Tirrik link in LINK_ERR (Table 12.15). -/
def State.linkEvent (s : State) (n : Nat) : State := { s with link := { s.link with errCode := BitVec.ofNat 12 n } }
/-- A descriptor in flight ends with its own fault: an array descriptor as a fault on the array, a gateway one alone
(R356). -/
def State.flightFault (s : State) (f : Flight) (code : Code) (kind loc : Nat) : State :=
  if f.cls = .array then s.endArray f.wing code kind loc true else s.endFlight f 2 code kind loc

/-- A posting that the link loss interrupted waits again (R337). -/
def CompRing.unhold (c : CompRing) : CompRing :=
  match c.held with
  | some h => { c with waiting := h.1 :: c.waiting, held := none, retry := false }
  | none => c
/-- The link goes down while up: every descriptor in flight on either wing is DISCARDED, with a drain where a step ran,
and the companion gateway is to be tested (R332, R337, R383, R390). -/
def State.linkDown (s : State) (first : Nat) : State :=
  if s.link.up then
    let l1 : Link := { s.link with
      up := false, width := 0, version := 0, errCode := 0x807, replay := [], rxNak := false, cache := [], toComp := [], lines := [] }
    let s1 := { s with link := l1, cq := Map.mapIf (fun _ => true) CompRing.unhold s.cq }
    let s2 := [0, 1].foldl (fun (t : State) v =>
      if t.stepRuns v && t.lead v == v then t.endRunning v 4 (linkCode 0x807) 0 0 (some 1) else t) s1
    let s3 := s2.discardAll (fun _ => true) (linkCode 0x807)
    [0, 1].foldl (fun (t : State) v => if t.lead v = v then t.followUnit v (linkCode first) .tirrik else t) s3
  else s
/-- One more failed attempt of each flit from the oldest unanswered on; at the eighth of one flit the link goes down
(R332). -/
def State.resendFlits (s : State) : State :=
  let n := s.link.replay.length
  let r := s.link.replay.map (fun e => (e.1, e.2 + 1))
  let (v, f) := satAdd s.link.resends s.link.resendSat n
  let s1 := { s with link := { s.link with replay := r, resends := v, resendSat := f } }
  if r.any (fun e => Nat.ble 8 e.2) then ({ s with link := { s.link with replay := r } }).linkDown 0x801 else s1
/-- Distance from one flit number to a later one, modulo 4,096. -/
def flitDist (a b : BitVec 12) : Nat := (b - a).toNat
/-- Drops the flits up to a sequence number from the replay buffer (R332). -/
def Link.ackTo (l : Link) (q : BitVec 12) : Link :=
  match l.replay with
  | [] => l
  | e :: _ => if flitDist e.1 q < l.replay.length then { l with replay := l.replay.drop (flitDist e.1 q + 1) } else l
/-- Takes an answer: an acknowledgement up to a flit, or a re-send request from a flit on (R332). -/
def State.takeAnswer (s : State) (nak : Bool) (q : BitVec 12) : State :=
  if nak then ({ s with link := s.link.ackTo (q - 1) }).resendFlits else { s with link := s.link.ackTo q }
/-- The answer to an arriving flit rides in the next flit that the W1 sends, which takes a place in the replay buffer
(R331, R332). -/
def Link.answer (l : Link) : Link :=
  if l.replay.length < 512 then { l with replay := l.replay ++ [(l.txNext, 0)], txNext := l.txNext + 1 } else l

/-- The link comes up (R333, R337, R371): sequence numbers start at 0, and the doorbell lines are read. -/
def State.linkUp (s : State) (width version : Nat) : State :=
  let l1 : Link := { s.link with
    up := true, width := BitVec.ofNat 6 width, version := BitVec.ofNat 8 version, rxExpect := 0, rxNak := false, txNext := 0,
    replay := [], cache := [], toComp := [], lines := [] }
  let s1 := { s with link := l1 }
  [0, 1].foldl (fun (t : State) v => if t.fetches v then t.readDoorbells v else t) s1

/-! ### Answers of the companion -/

/-- The first message that satisfies p, and the list with what is left of that message in its place. -/
def takeMsg (p : CompMsg → Bool) (left : CompMsg → List CompMsg) : List CompMsg → Option (CompMsg × List CompMsg)
  | [] => none
  | m :: ms => if p m then some (m, left m ++ ms) else (takeMsg p left ms).map (fun r => (r.1, m :: r.2))
/-- What is left of a message once the line at an address has been answered: the other lines of a read of several lines (R334,
Table 12.1). -/
def lineTaken (a : Nat) : CompMsg → List CompMsg
  | .rdNc b n u => (if b < a then [.rdNc b ((a - b) / 64) u] else []) ++
      (if a + 64 < b + 64 * n then [.rdNc (a + 64) (n - 1 - (a - b) / 64) u] else [])
  | _ => []
/-- Whether a message is a read of a line. -/
def isRead (a : Nat) : CompMsg → Bool
  | .rdShared b _ => a == b
  | .rdNc b n _ => Nat.ble b a && Nat.blt a (b + 64 * n)
  | _ => false
/-- Whether a message is a write. -/
def isWrNc : CompMsg → Bool
  | .wrNc _ _ _ => true
  | _ => false
/-- Whether a message is a write that covers an address. -/
def isWrNcAt (a : Nat) : CompMsg → Bool
  | .wrNc b bs _ => Nat.ble b a && Nat.blt a (b + bs.length)
  | _ => false
/-- The use of a message. -/
def useOf : CompMsg → Option CompUse
  | .rdShared _ u => some u
  | .rdNc _ _ u => some u
  | .wrNc _ _ u => some u
  | _ => none

/-- Puts a line into the link cache: 2,048 lines, the least recently used unpinned one goes first (R335). -/
def Link.place (l : Link) (a : Nat) (d : Desc) (pin : Bool) : Link :=
  let old := l.cache.filter (fun c => c.addr != a)
  let kept := if Nat.blt old.length 2048 then old
    else match (old.reverse.find? (fun c => !c.pinned)) with
      | some v => old.filter (fun c => c.addr != v.addr)
      | none => old
  { l with cache := { addr := a, data := d, pinned := pin } :: kept }

/-- The block of an EXT_IN stream numbered blk in its visiting order has arrived: it is placed, and a tile that is
complete becomes usable and advances PROD of the slot's tally pair (R234, R273, R317). -/
def State.placeExt (s : State) (core slot blk : Nat) (data : List Byte) : State :=
  let c := s.core core
  let x := c.slot slot
  if c.flow.sink || !c.slotBusy slot || dKind x.desc != 4 then s
  else
    let d := if dOptical x.desc then dLocal x.desc else x.desc
    let cur := iter (fun (k : Cursor) => k.next d) blk {}
    let c1 := c.takeRead slot c.now { x with desc := d } cur data
    let y := c1.slot slot
    let c2 := c1.setSlot slot { y with desc := x.desc }
    if x.usable < y.usable then
      match c2.addProd slot 1 with
      | (c3, some f) => (s.setCore core c3).coreFault core f
      | (c3, none) => s.setCore core (c3.settleSlot slot)
    else s.setCore core (c2.settleSlot slot)
/-- A line of a companion EXT_IN block arrives; the eighth completes the block (R234). -/
def State.takeStreamLine (s : State) (core slot blk line : Nat) (d : Desc) : State :=
  let ls := s.link.lines ++ [(core, slot, blk, line, d)]
  let mine := ls.filter (fun e => e.1 == core && e.2.1 == slot && e.2.2.1 == blk)
  if mine.length < 8 then { s with link := { s.link with lines := ls } }
  else
    let part (i : Nat) : List Byte := match mine.find? (fun e => e.2.2.2.1 == i) with
      | some e => toBytes 64 e.2.2.2.2.toNat
      | none => []
    let s1 := { s with link := { s.link with lines := ls.filter (fun e => !(e.1 == core && e.2.1 == slot && e.2.2.1 == blk)) } }
    s1.placeExt core slot blk ((List.range 8).flatMap part)

/-- What read data does (R334, R335, R341, R342). -/
def State.takeData (s : State) (a : Nat) (u : CompUse) (d : Desc) : State :=
  match u with
  | .doorbell false i =>
    { (s.onSring i (fun r => { r with tail := BitVec.ofNat 32 (bits d 31 0) })) with link := s.link.place a d true }
  | .doorbell true j =>
    { (s.onCring j (fun c => { c with headSeen := BitVec.ofNat 32 (bits d 31 0) })) with link := s.link.place a d true }
  | .descriptor _ => { s with link := s.link.place a d false }
  | .stream core slot blk => s.takeStreamLine core slot blk (a / 64 % 8) d
  | _ => s

/-- The point that a wing follows is the lowest that its collectives follow, and none where none follows (R326, R419). -/
def State.refollow (s : State) (w : Nat) : State :=
  match (s.fab w).colls.filterMap (fun c => c.following) with
  | [] => s.onWing (s.lead w) (fun x => { x with power := { x.power with following := false } })
  | o :: os => s.onWing (s.lead w) (fun x => { x with power := { x.power with
      following := true, followOp := BitVec.ofNat 3 (os.foldl min o) } })
/-- A record has been posted (R343, R354, R382). -/
def State.posted (s : State) (j : Nat) (r : OutRec) : State :=
  let s1 := s.onCring j (fun c => { c with
    posted := c.posted + 1, reserved := if r.reserved then c.reserved - 1 else c.reserved, held := none, retry := false })
  let s2 := match r.array with
    | some w => s1.onWing (s1.lead w) (fun x => { x with boundaryDue := true })
    | none => s1
  if r.family = 5 then s2.refollow (s2.ringWing r.ring) else s2
/-- What an acknowledged write does. -/
def State.takeWrAck (s : State) (u : CompUse) : State :=
  match u with
  | .record j =>
    match (s.cring j).held with
    | some h => s.posted j h.1
    | none => s
  | .stream core slot _ => s.onCore core (fun c => if c.slotBusy slot then
      (c.setSlot slot { c.slot slot with done := (c.slot slot).done + 1 }).settleSlot slot else c)
  | _ => s
/-- What an error response does: it is recorded, and ends the descriptor that made the access, halts the ring whose
descriptor it was, or holds the posting for its retry (R336, R344). -/
def State.takeError (s : State) (write : Bool) (u : CompUse) : State :=
  let code := if write then linkCode 0x806 else linkCode 0x805
  let s1 := s.linkEvent (if write then 0x806 else 0x805)
  match u with
  | .descriptor i => if (s1.sring i).inUse && !(s1.sring i).halted then s1.haltRing i code else s1
  | .record j => s1.onCring j (fun c => { c with retry := true })
  | .flight ring seq => match s1.flight ring seq with
    | some f => s1.flightFault f code 0 0
    | none => s1
  | .stream core _ _ => s1.endStep (wingOf core) code 1 (localCore s.split (wingOf core) core) true
  | _ => s1

end Sys2Proof.Machine
end

