-- ==== Sys2Proof/Machine/MeshOps.lean ====
section
/-!
DEFINITION. The mesh: packets and their check, routes, the link layer of a router (R248 to R257), and the packets that
a router has accepted and not delivered.
-/

namespace Sys2Proof.Machine

/-- The sideband of a packet's first flit as it enters its CRC: bits [1:0] and [20:5] zero (Table 9.1, R250). -/
def pktHead (p : Pkt) : Nat :=
  2 ^ 2 * p.ptype.toNat + (if p.order then 2 ^ 21 else 0) + 2 ^ 22 * p.destX.toNat + 2 ^ 34 * p.destY.toNat +
  2 ^ 46 * p.index.toNat + (if p.outward then 2 ^ 51 else 0) + 2 ^ 52 * p.version.toNat + 2 ^ 54 * p.rsv.toNat
/-- The CRC of a packet (R250). -/
def pktCrc (p : Pkt) : BitVec 32 := crc32c (toBytes 8 (pktHead p) ++ p.payload.flatMap (fun f => toBytes 32 f.toNat))
/-- The even parity bit of bits [19:0] of a sideband (Table 9.1). -/
def evenParity (w : Nat) : Bool := (List.range 20).foldl (fun b i => b != w.testBit i) false
/-- A sideband with its SB_PARITY (Table 9.1). -/
def withParity (w : Nat) : BitVec 96 := BitVec.ofNat 96 (w + if evenParity w then 2 ^ 20 else 0)
/-- The sidebands of a packet's flits, with the acknowledgement fields that its first flit carries: route fields only on the first
flit, the CRC only on the last, and zeros elsewhere (R249). -/
def pktSides (p : Pkt) (lseq : BitVec 6) (ack : BitVec 9) : List (BitVec 96) :=
  let n := p.payload.length
  (List.range n).map (fun i =>
    let pos := if n = 1 then 0 else if i = 0 then 1 else if i + 1 = n then 3 else 2
    withParity (pos + 2 ^ 2 * p.ptype.toNat + 2 ^ 5 * lseq.toNat + (if i = 0 then 2 ^ 11 * ack.toNat else 0) +
      (if i = 0 then pktHead p / 2 ^ 21 * 2 ^ 21 else 0) + (if i + 1 = n then 2 ^ 64 * p.crc.toNat else 0)))
/-- The sideband of a flit-less beat that carries an answer (R256). -/
def ackSide (ack : BitVec 9) : BitVec 96 := withParity (2 ^ 11 * ack.toNat)
/-- The answer fields of a sideband: ACK_VALID 1, ACK_NAK, ACK_KIND and ACK_LSEQ (Table 9.1). -/
def ackWord (nak scheduled : Bool) (lseq : BitVec 6) : BitVec 9 :=
  BitVec.ofNat 9 (1 + (if nak then 2 else 0) + (if scheduled then 0 else 4) + 8 * lseq.toNat)
/-- Whether a flit passes SB_PARITY: even parity over bits [19:0], with the parity bit (Table 9.1, R256). -/
def sideOk (b : BitVec 96) : Bool := evenParity b.toNat == bit b 20
/-- Whether the POS fields make one packet of 1 to 16 flits (R249, R250). -/
def posOk (side : List (BitVec 96)) : Bool :=
  let n := side.length
  Nat.ble 1 n && Nat.ble n 16 &&
  side.zipIdx.all (fun (b, i) => bits b 1 0 == (if n = 1 then 0 else if i = 0 then 1 else if i + 1 = n then 3 else 2))
/-- The packet that arriving flits make: the route fields of the first sideband and the CRC of the last (R249). -/
def pktOf (hop : HopIn) (side : List (BitVec 96)) (payload : List (BitVec 256)) : Pkt :=
  let h := side.headD 0
  { ptype := BitVec.ofNat 3 (bits h 4 2),
    order := bit h 21, destX := BitVec.ofNat 12 (bits h 33 22),
    destY := BitVec.ofNat 12 (bits h 45 34), index := BitVec.ofNat 5 (bits h 50 46), outward := bit h 51,
    version := BitVec.ofNat 2 (bits h 53 52), rsv := BitVec.ofNat 10 (bits h 63 54), payload := payload,
    crc := BitVec.ofNat 32 (bits (side.getLastD 0) 95 64), src := hop.src, due := hop.due }
/-- A packet that the W1 forms, with its CRC (R249, R250). -/
def mkPkt (ptype here dest index : Nat) (order : Bool) (payload : List (BitVec 256)) : Pkt :=
  let p : Pkt := {
    ptype := BitVec.ofNat 3 ptype, order := order, destX := BitVec.ofNat 12 (coreX dest),
    destY := BitVec.ofNat 12 (coreY dest), index := BitVec.ofNat 5 index, outward := false, version := 1, rsv := 0,
    payload := payload, crc := 0, src := here }
  { p with crc := pktCrc p }
/-- The flits of a block's bytes. -/
def flitsOf (bs : List Byte) : List (BitVec 256) := 
  (List.range (ceilDiv bs.length 32)).map (fun i => BitVec.ofNat 256 (ofBytes (sliceBytes bs (32 * i) 32)))
/-- The packet of what a core's router has accepted (Table 9.1, R194, R230, R251, R267, R271). -/
def OutPkt.pkt (here : Nat) : OutPkt → Option Pkt
  | .block d e o data => some (mkPkt 0 here d e o (flitsOf data))
  | .credit d e o n k => some (mkPkt 4 here d e o [Config.flitOf 4 [n, k]])
  | .token d o w => some (mkPkt 5 here d (bits w 9 6) o [Config.flitOf 5 [w.toNat]])
  | .readReq t n _ _ a o _ => some (mkPkt 1 here (attachCore (blockChan n)) t o [Config.flitOf 1 [n, if a then 1 else 0]])
  | .write t n o d _ _ => some (mkPkt 2 here (attachCore (blockChan n)) t o (flitsOf (toBytes 512 d.toNat)))
  | .course h k m o => some (mkPkt 6 here h k o [Config.flitOf 6 [0, m]])
  | .release d k o => some (mkPkt 6 here d k o [Config.flitOf 6 [1]])
  | .wafer _ => none
  | .tally d t n o => some (mkPkt 6 here d t o [Config.flitOf 6 [2, n]])
  | .readData d t o bs => some (mkPkt 2 here d t o (flitsOf bs))
  | .writeAck d t o => some (mkPkt 3 here d t o [Config.flitOf 3 []])
/-- Whether a packet is scheduled traffic (Table 9.1). -/
def pktScheduled (p : Pkt) : Bool := Nat.ble p.ptype.toNat 6
/-- DEST_Y and DEST_X of a packet, as CORE_RT_ERR holds them (Table 9.11). -/
def pktDest (p : Pkt) : Nat := p.destY.toNat * 4096 + p.destX.toNat

/-- The neighbour of a core over link 0 north, 1 east, 2 south or 3 west (R248); row numbers rise to the south. -/
def linkTo (split : Bool) (c : Nat) : Nat → Option Nat
  | 0 => if coreY c = 0 then none else some (mkCore (coreX c) (coreY c - 1))
  | 1 => if coreX c = 831 ∨ (split = true ∧ coreX c = 415) then none else some (mkCore (coreX c + 1) (coreY c))
  | 2 => if coreY c = 815 then none else some (mkCore (coreX c) (coreY c + 1))
  | _ => if coreX c = 0 ∨ (split = true ∧ coreX c = 416) then none else some (mkCore (coreX c - 1) (coreY c))

/-- The next output of a packet at a core: a link 0 to 3, or 4 for the local port (R251). -/
def pktOut (c : Nat) (p : Pkt) : Nat :=
  let x := coreX c
  let y := coreY c
  let alongX := if x < p.destX.toNat then 1 else 3
  let alongY := if y < p.destY.toNat then 2 else 0
  if x = p.destX.toNat ∧ y = p.destY.toNat then 4
  else if p.order then (if y = p.destY.toNat then alongX else alongY)
  else (if x = p.destX.toNat then alongY else alongX)

/-- Whether an edge core belongs to a gateway or to the companion gateway, so that its outward link is in use (Table 1.4,
R36, R37). -/
def isGatewayCore (c : Nat) : Bool :=
  let x := coreX c
  let y := coreY c
  ((y == 0 || y == 815) && Nat.ble 22 x && Nat.blt ((x - 22) % 52) 8 && Nat.ble x 809) ||
  ((x == 0 || x == 831) && Nat.ble 21 y && Nat.blt ((y - 21) % 51) 8 && Nat.ble y 793) ||
  (x == 0 && Nat.ble 388 y && Nat.ble y 403)

/-- Whether a core is the attach core of a channel (R31). -/
def isAttachCore (c : Nat) : Bool :=
  let x := coreX c % 104
  let y := coreY c % 136
  Nat.ble 13 x && (x - 13) % 26 == 0 && Nat.ble 8 y && (y - 8) % 17 == 0
/-- Whether a packet's route fails at a core: off the array, over the decoupled seam, outward where no gateway lies, or with a
request for a memory port where none is (R251, R254; log 59). -/
def routeFails (split : Bool) (c : Nat) (p : Pkt) : Bool :=
  match pktOut c p with
  | 4 => if p.outward then !isGatewayCore c else p.ptype == 1 && !isAttachCore c
  | o => (linkTo split c o).isNone

/-- Removes the first element that satisfies p. -/
def dropFirst {α : Type} (p : α → Bool) : List α → List α
  | [] => []
  | x :: xs => if p x then xs else x :: dropFirst p xs

/-- A mesh link of a core. -/
def Core.mlink (c : Core) (l : Nat) : MeshLink := Map.get {} c.router.links l
/-- Replaces a mesh link. -/
def Core.setMlink (c : Core) (l : Nat) (x : MeshLink) : Core :=
  { c with router := { c.router with links := Map.set c.router.links l x } }
/-- One kind of traffic of a link. -/
def MeshLink.kind (x : MeshLink) (scheduled : Bool) : LinkKind := if scheduled then x.sched else x.unsched
/-- Replaces one kind of traffic of a link. -/
def MeshLink.setKind (x : MeshLink) (scheduled : Bool) (k : LinkKind) : MeshLink :=
  if scheduled then { x with sched := k } else { x with unsched := k }
/-- Flits held in a replay buffer (R256). -/
def LinkKind.flits (k : LinkKind) : Nat := (k.replay.map (fun r => r.2.1.payload.length)).sum

/-- Sends a packet on an output link: it takes the next LSEQ of its kind and a place in the replay buffer, and its first flit an
answer that waits (R249, R256). A scheduled packet holds the output until its last flit has passed (R253). -/
def MeshLink.send (x : MeshLink) (p : Pkt) (now : Nat) : MeshLink :=
  let sched := pktScheduled p
  let k := x.kind sched
  let y := x.setKind sched { k with replay := k.replay ++ [(k.next, p, 0)], next := k.next + 1 }
  { y with sent := pktSides p k.next (x.answers.headD 0), answers := x.answers.drop 1,
           busy := if sched then now + p.payload.length else x.busy }
/-- Whether a packet finds room in the replay buffer of 32 flits (R256). -/
def LinkKind.room (k : LinkKind) (p : Pkt) : Bool := Nat.ble (k.flits + p.payload.length) 32
/-- Whether an input buffer takes a packet: 16 flits of scheduled traffic and 8 of unscheduled; a packet longer than the buffer goes
through one that is empty (R248, R275; log 59). -/
def LinkKind.takes (k : LinkKind) (p : Pkt) : Bool :=
  let cap := if pktScheduled p then 16 else 8
  Nat.ble ((k.inBuf.map (fun q => q.payload.length)).sum + min p.payload.length cap) cap

/-- The unscheduled packets that wait at an input; input 4 is the local port. -/
def Core.inputPkts (c : Core) (i : Nat) : List Pkt := if i = 4 then c.router.localIn else (c.mlink i).unsched.inBuf
/-- Takes an unscheduled packet from an input. -/
def Core.takeInput (c : Core) (i : Nat) (p : Pkt) : Core :=
  if i = 4 then { c with router := { c.router with localIn := dropFirst (· == p) c.router.localIn } }
  else
    let x := c.mlink i
    c.setMlink i { x with unsched := { x.unsched with inBuf := dropFirst (· == p) x.unsched.inBuf } }
/-- The scheduled packet at the head of an input; at the local port that is the oldest which the core sends. -/
def Core.schedHead (c : Core) (here i : Nat) : Option Pkt :=
  if i = 4 then c.router.toSend.head?.bind (OutPkt.pkt here) else (c.mlink i).sched.inBuf.head?
/-- Takes the scheduled packet at the head of an input. -/
def Core.popSched (c : Core) (i : Nat) : Core :=
  if i = 4 then { c with router := { c.router with toSend := c.router.toSend.drop 1 } }
  else
    let x := c.mlink i
    c.setMlink i { x with sched := { x.sched with inBuf := x.sched.inBuf.drop 1 } }
/-- A packet leaves the local port: outward, to the memory port of an attach core, or to the core itself (R251; log 59). -/
def Core.arrive (c : Core) (here : Nat) (p : Pkt) : Core :=
  if p.outward then c
  else if (p.ptype == 1 || p.ptype == 2 || p.ptype == 3) && isAttachCore here then
    { c with router := { c.router with memPort := c.router.memPort ++ [p] } }
  else { c with router := { c.router with local_ := c.router.local_ ++ [p] } }
/-- The input whose scheduled packet an output serves in a beat: the first, in the order north, east, south, west and local, whose
packet has reached the beat of its hop budget (R253). -/
def Core.schedInput (c : Core) (here out now : Nat) : Option (Nat × Pkt) :=
  (List.range 5).findSome? (fun i => match c.schedHead here i with
    | some p => if pktOut here p = out ∧ p.due ≤ now then some (i, p) else none
    | none => none)
/-- An output serves a scheduled packet, unless one before it still holds the output or its replay buffer has no room (R253,
R256). -/
def Core.serveSched (here now : Nat) (c : Core) (out : Nat) : Core :=
  match c.schedInput here out now with
  | none => c
  | some (i, p) =>
    if out = 4 then
      if c.router.localBusy ≤ now then
        let c1 := (c.popSched i).arrive here p
        { c1 with router := { c1.router with localBusy := now + p.payload.length } }
      else c
    else
      let x := c.mlink out
      if x.busy ≤ now ∧ x.sched.room p = true ∧ x.failed = false then
        let c1 := c.popSched i
        c1.setMlink out ((c1.mlink out).send p now)
      else c
/-- Every output's scheduled packet of a beat (R253). -/
def Core.forwardTurn (c : Core) (here : Nat) : Core := (List.range 5).foldl (Core.serveSched here c.now) c
/-- An answer that waits goes in a flit-less sideband beat (R256). -/
def Core.answerTurn (c : Core) : Core :=
  { c with router := { c.router with links := c.router.links.map (fun e => (e.1, match e.2.answers with
      | [] => e.2
      | a :: as => { e.2 with answers := as, sent := [ackSide a] })) } }

/-- A packet that has passed its checks waits at its input until its beat (R253, R275). -/
def Core.hold (c : Core) (link : Nat) (p : Pkt) : Core :=
  let x := c.mlink link
  let k := x.kind (pktScheduled p)
  c.setMlink link (x.setKind (pktScheduled p) { k with inBuf := k.inBuf ++ [p] })

/-- A packet discarded by a router for its route or its fields: recorded, and a scheduled one ends the step (R250, R254); an
unscheduled one fails its own access, of which the spec states no more, and is kept as lost (log 59). -/
def State.dropPkt (s : State) (core code port : Nat) (p : Pkt) : State :=
  if pktScheduled p then s.coreFault core (.link code port (pktDest p))
  else s.onCore core (fun c =>
    let d := c.record false (.link code port (pktDest p))
    { d with router := { d.router with lost := d.router.lost ++ [p] } })

/-- Whether a core's wing is in level mode, in which every packet goes X first and scheduled traffic is not run (R258). -/
def State.levelAt (s : State) (core : Nat) : Bool := (s.wing (s.lead (wingOf core))).level
/-- A packet as the router routes it: X first in level mode (R258). -/
def pktRouted (p : Pkt) (level : Bool) : Pkt := if level then { p with order := false } else p

/-- The outcome of a packet at a router that has passed its CRC (R250, R251, R254). -/
def State.routePkt (s : State) (core link : Nat) (p : Pkt) : State :=
  if p.version != 1 || p.rsv != 0 then s.dropPkt core 5 link p
  else if routeFails s.split core (pktRouted p (s.levelAt core)) then s.dropPkt core 3 link p
  else s.onCore core (fun c => c.hold link p)

/-- A link fails in both directions after its eighth failed attempt: the packet is discarded, the step ends with
LINK:0x001, and the routers at both ends are to be tested (R257). -/
def State.failLink (s : State) (core link : Nat) (scheduled : Bool) (p : Pkt) : State :=
  let mark (s : State) (c l : Nat) : State := s.onCore c (fun x => x.setMlink l { x.mlink l with failed := true })
  let s1 := (mark s core link).onCore core (fun c =>
    let x := c.mlink link
    let k := x.kind scheduled
    c.setMlink link (x.setKind scheduled { k with replay := k.replay.drop 1 }))
  let s2 := match linkTo s.split core link with
    | some n => (mark s1 n ((link + 2) % 4)).followUnit (wingOf n) (linkCode 1) (.core (BitVec.ofNat 22 (s1.position n)))
    | none => s1
  s2.coreFault core (.link 1 link (pktDest p))

/-- Re-sends the packets of a link from one LSEQ on, each sending being one attempt (R256, R257). -/
def State.resendFrom (s : State) (core link : Nat) (scheduled : Bool) (lseq : BitVec 6) : State :=
  let c := s.core core
  let x := c.mlink link
  let k := x.kind scheduled
  let before := k.replay.takeWhile (fun r => r.1 != lseq)
  let again := (k.replay.drop before.length).map (fun r => (r.1, r.2.1, r.2.2 + 1))
  match again with
  | [] => s
  | r :: _ =>
    let (n, f) := satAdd x.resends x.resendSat again.length
    let last := (again.getLastD r).2.2 + 1
    let x1 := { x.setKind scheduled { k with replay := before ++ again } with
      sent := again.flatMap (fun e => pktSides e.2.1 e.1 0), resends := n, resendSat := f, lastAttempts := BitVec.ofNat 4 (min last 8) }
    if 8 ≤ r.2.2 then
      (s.setCore core (c.setMlink link (x.setKind scheduled { k with replay := again }))).failLink core link scheduled r.2.1
    else s.setCore core (c.setMlink link x1)

/-! ### Packets accepted and not delivered -/

/-- Takes the first accepted packet that satisfies p from a core's router: it has reached its end. -/
def Core.dropOut (c : Core) (p : OutPkt → Bool) : Core :=
  { c with router := { c.router with out := dropFirst p c.router.out, toSend := dropFirst p c.router.toSend } }
/-- The first listed core with an outgoing packet that satisfies p, with the packet. -/
def WingState.findOut (x : WingState) (p : OutPkt → Bool) : Option (Nat × OutPkt) :=
  x.cores.findSome? (fun e => (e.2.router.out.find? p).map (fun q => (e.1, q)))

/-- Removes the first outgoing packet of any core that satisfies p: it is delivered. -/
def State.deliver (s : State) (p : OutPkt → Bool) : State :=
  match (s.west.findOut p).or (s.east.findOut p) with
  | none => s
  | some (c, _) => s.onCore c (fun x => x.dropOut p)

/-- Removes the packet of a type and index that waits at a core's local port. -/
def State.dropLocal (s : State) (core ptype index : Nat) : State :=
  s.onCore core (fun x => { x with router := { x.router with
    local_ := dropFirst (fun p => p.ptype.toNat == ptype && p.index.toNat == index) x.router.local_ } })
/-- Removes the packet of a type and index that waits at the memory port of an attach core. -/
def State.dropPort (s : State) (core ptype index : Nat) : State :=
  s.onCore core (fun x => { x with router := { x.router with
    memPort := dropFirst (fun p => p.ptype.toNat == ptype && p.index.toNat == index) x.router.memPort } })

/-! ### Answers of the channels (R176, R251) -/

/-- The packet of an answer that leaves its attach router now; none when the read is no longer held. -/
def Chan.answerPkt (x : Chan) (a : ChanAnswer) : Option OutPkt :=
  match a.data with
  | none => some (.writeAck a.core a.slot a.order)
  | some (run, blk, n) => (x.reads.find? (fun r => r.core == a.core && r.slot == a.slot && r.run == run && r.blk == blk &&
      r.block == n)).map (fun r => .readData a.core a.slot a.order r.content.data)
/-- The channels of an attach core hand their answers of the beat to its router (R176). -/
def State.answersDue (s : State) (core : Nat) : State :=
  (s.chans.filter (fun e => attachCore e.1 == core)).foldl (fun t e =>
    let due := e.2.answers.filter (fun a => Nat.ble a.due (t.core core).now)
    if due.isEmpty then t
    else (t.onChan e.1 (fun x => { x with answers := x.answers.filter (fun a => !Nat.ble a.due (t.core core).now) })).onCore core
      (fun c => { c with router := { c.router with toSend := c.router.toSend ++ due.filterMap e.2.answerPkt } })) s

end Sys2Proof.Machine
end

