-- ==== Sys2Proof/Machine/LoadOps.lean ====
section
/-!
DEFINITION. The load checks of a core's commands (R349): fields, formats, places, durations and latencies (R72, R117, R126,
R202, R265), over the schedule with its loops written out (R198 to R201).
-/

namespace Sys2Proof.Machine

/-! ### Command words -/

/-- Whether a word has no bit set outside the fields named, high bit first. -/
def onlyFields {w : Nat} (x : BitVec w) (fs : List (Nat × Nat)) : Bool :=
  (fs.foldl (fun a f => a - bits x f.1 f.2 * 2 ^ f.2) x.toNat) == 0
/-! ### Sections (R165) -/

/-- Whether a byte range lies in core memory and in the sections of a mask (R165). -/
def inSections (mask : Byte) (a n : Nat) : Bool :=
  Nat.ble (a + n) 98304 && (List.range 8).all (fun j => bit mask j || !overlaps a n (12288 * j) 12288)

/-! ### Steering and router commands (R202, R265) -/

/-- The fields that a steering opcode uses (Table 7.2). -/
def steerFields (w : BitVec 64) : List (Nat × Nat) :=
  match bits w 4 0 with
  | 1 => [(12, 9), (39, 24)]
  | 2 => [(12, 9), (39, 24)]
  | 3 => [(12, 9), (19, 17), (22, 21), (39, 24)]
  | 4 => if bit w 23 then [(12, 9), (23, 23), (39, 24), (55, 40)] else [(23, 23), (39, 24), (55, 40)]
  | 5 => [(19, 17), (20, 20), (55, 40)]
  | 6 => [(16, 13)]
  | 7 => [(16, 13)]
  | 8 => [(12, 9), (16, 13)]
  | 9 => if bit w 23 then [(12, 9), (16, 13), (23, 23)] else [(16, 13), (23, 23), (39, 24)]
  | _ => []
/-- A steering word is well formed (R202). -/
def steerOk (w : BitVec 64) : Bool :=
  Nat.ble (bits w 4 0) 9 && bits w 8 5 == 1 && onlyFields w ((4, 0) :: (8, 5) :: steerFields w)
/-- The fields that a router opcode uses (Table 9.5). -/
def routerFields (w : BitVec 64) : List (Nat × Nat) :=
  match bits w 3 0 with
  | 1 => if bit w 8 then [(8, 8), (14, 9), (21, 21)] else [(8, 8), (14, 9), (21, 21), (27, 22), (51, 40), (63, 52)]
  | 2 => [(8, 8), (14, 9), (15, 15)]
  | 3 => if bit w 28 then [(20, 16), (21, 21), (28, 28), (39, 32), (51, 40), (63, 52)] else [(20, 16), (28, 28), (39, 32)]
  | 4 => [(20, 16), (39, 32)]
  | 5 => [(15, 15), (20, 16), (39, 32)]
  | _ => []
/-- A router word is well formed, and the program sets up the course or tally pair that it names (R265): a course or pair with
count 0 is unused (R266, R271); an EXT_IN stream sets up the pair of its slot (R273). -/
def routerOk (img : Image) (x : StepSched) (core : Nat) (w : BitVec 64) : Bool :=
  let pair (at_ n : Nat) : Bool := img.tallies.any (fun e => e.1 == at_ && e.2.1 == n && e.2.2 != 0) ||
    (Nat.blt n 8 && (List.range x.layers.length).any (fun i => (layerStreams x at_ i).any (fun m => m.slot == n && dKind m.desc == 4)))
  Nat.ble (bits w 3 0) 5 && bits w 7 4 == 1 && onlyFields w ((3, 0) :: (7, 4) :: routerFields w) &&
  (match bits w 3 0 with
   | 1 => if bit w 8 then img.waferCourses.any (fun e => e.1 == bits w 14 9 && e.2 != 0)
          else Nat.ble (bits w 14 9) 15 && img.courses.any (fun e => e.1 == routerTarget w && e.2.1 == bits w 14 9 && e.2.2 != 0)
   | 2 => if bit w 8 then img.waferCourses.any (fun e => e.1 == bits w 14 9 && e.2 != 0)
          else Nat.ble (bits w 14 9) 15 && img.courses.any (fun e => e.2.1 == bits w 14 9 && e.2.2 != 0)
   | 3 => pair (if bit w 28 then routerTarget w else core) (bits w 20 16)
   | 4 => pair core (bits w 20 16)
   | 5 => pair core (bits w 20 16)
   | _ => true)
/-- A DMA word is well formed (R236, item 1). -/
def dmaOk (w : BitVec 64) : Bool :=
  Nat.ble (bits w 3 0) 2 && bits w 7 4 == 1 &&
  onlyFields w ((3, 0) :: (7, 4) :: (match bits w 3 0 with
    | 1 => [(10, 8), (19, 11)]
    | 2 => [(10, 8)]
    | _ => []))
/-- What a data-dependent window may not hold (R202, R235, R265). -/
def staysOut : CmdWord → Bool
  | .steer w => Nat.ble 6 (bits w 4 0)
  | .dma w => bits w 3 0 != 0
  | .router w => bits w 3 0 != 0
  | _ => false
/-- The windows of a core's layer nest, at most four loops deep, and none that depends on data holds a command that may not
stand there (R202). -/
def windowsOk (cs : List SchedCmd) : Bool :=
  let ws := winsOf cs
  cs.all (fun c =>
    let enc := enclosing ws c
    !(staysOut c.word && enc.any (fun x => x.data)) &&
    (match c.word with
     | .steer w => match winOf c.beat w with
       | some v => enc.all (fun x => Nat.ble x.first v.first && Nat.ble v.stop (x.first + x.len)) &&
           (!v.loop || Nat.blt (enc.filter (fun x => x.loop)).length 4)
       | none => true
     | _ => true))

/-! ### Vector commands (R126) -/

/-- Issue beats and latency of a vector opcode (Table 5.2). -/
def vecCost (op : Nat) : Nat × Nat :=
  if op = 1 then (0, 2) else if op = 0 ∨ op = 2 then (0, 0)
  else if 7 ≤ op ∧ op ≤ 0xB then (4, 12) else if op = 0x11 then (5, 8) else if op = 0x12 then (5, 20) else (1, 4)
/-- The fields that a vector opcode uses (Tables 5.1 and 5.2). -/
def vecFields (op : Nat) : List (Nat × Nat) :=
  if op = 0 then []
  else if op = 1 then [(14, 10), (31, 30), (32, 32), (50, 34)]
  else if op = 2 then [(19, 15), (31, 30), (50, 34)]
  else if op = 6 then [(14, 10), (19, 15), (24, 20), (29, 25), (31, 30), (32, 32), (33, 33)]
  else if (8 ≤ op ∧ op ≤ 0xB) ∨ op = 0x11 then [(14, 10), (19, 15), (31, 30), (32, 32)]
  else if op = 0xE then [(19, 15), (24, 20), (29, 25), (31, 30), (33, 33)]
  else if op = 0x10 then [(14, 10), (19, 15), (29, 25), (31, 30), (32, 32)]
  else [(14, 10), (19, 15), (24, 20), (31, 30), (32, 32), (33, 33)]
/-- The types that Table 5.2 allows: 0 FP32, 1 BF16, 2 INT32. -/
def vecTypes (op : Nat) : List Nat :=
  if op = 0 then [0] else if op = 1 ∨ op = 2 ∨ op = 0xF ∨ op = 0x10 then [0, 1, 2]
  else if (3 ≤ op ∧ op ≤ 5) ∨ (0xC ≤ op ∧ op ≤ 0xE) ∨ op = 0x11 then [0, 2] else [0]
/-- A vector word is well formed. -/
def vecOk (w : BitVec 64) : Bool :=
  let op := bits w 5 0
  Nat.ble op 0x12 && bits w 9 6 == 1 && onlyFields w ((5, 0) :: (9, 6) :: vecFields op) && (vecTypes op).contains (bits w 31 30) &&
  (op != 0xE || Nat.ble (bits w 29 25) 3) && (op != 0x10 || Nat.ble (bits w 29 25) 5) &&
  ((op != 1 && op != 2) || bits w 50 34 % 128 == 0)
/-- A vector turn, by the beat in the layer (R122). -/
def vecTurn (beat : Nat) : Bool := beat % 4 == 3 && beat / 4 % 2 == 0
/-- The registers that a vector command reads; 32 stands for the predicate. VD counts as one where the command keeps a part of it:
under PRED, and in a VCVT that writes one half (log 57). -/
def vecReads (w : BitVec 64) : List Nat :=
  let op := bits w 5 0
  let a := bits w 19 15
  let b := bits w 24 20
  let keep := (if bit w 32 then [32, bits w 14 10] else [])
  if op = 0 then [] else if op = 1 then keep else if op = 2 then [a]
  else if op = 6 then a :: b :: bits w 29 25 :: keep
  else if (8 ≤ op ∧ op ≤ 0xB) ∨ op = 0x11 then a :: keep
  else if op = 0xE then (if bits w 29 25 = 3 then [a] else [a, b])
  else if op = 0xF then 32 :: a :: b :: keep
  else if op = 0x10 then (if bits w 29 25 = 2 ∨ bits w 29 25 = 3 then a :: bits w 14 10 :: keep else a :: keep)
  else a :: b :: keep
/-- The register that a vector command writes. -/
def vecWrites (w : BitVec 64) : Option Nat :=
  let op := bits w 5 0
  if op = 0 ∨ op = 2 then none else if op = 0xE then some 32 else some (bits w 14 10)
/-- Sources are ready and the arithmetic unit is free: ready holds the beat from which each register may be read. -/
def vecReplay : List (Nat × Nat) → Nat → List (Nat × BitVec 64) → Bool
  | _, _, [] => true
  | ready, free, (b, w) :: rest =>
    let (issue, lat) := vecCost (bits w 5 0)
    (vecReads w).all (fun r => Nat.ble (Map.get 0 ready r) b) && (issue == 0 || Nat.ble free b) &&
    vecReplay (match vecWrites w with
      | some d => Map.set ready d (b + lat)
      | none => ready) (if issue = 0 then free else b + issue) rest
/-- The vector commands of a core's layer pass (R126). -/
def vecCheck (foot : Byte) (os : List (Nat × CmdWord)) : Bool :=
  let vs := os.filterMap (fun e => match e.2 with
    | .vector w => some (e.1, w)
    | _ => none)
  vs.all (fun e => vecOk e.2 && ((bits e.2 5 0 != 1 && bits e.2 5 0 != 2) ||
    (vecTurn e.1 && inSections foot (bits e.2 50 34) 128))) && vecReplay [] 0 vs

/-! ### Tensor commands (R72, R117) -/

/-- The fields that a tensor opcode uses (Table 4.1). A load has no tile group: it uses the one dimension that its panel's rows or
columns need, and neither the other nor TILE_MASK, so item 3 of R117 counts no tiles of it (log 53). -/
def tensorFields (op : Nat) : List (Nat × Nat) :=
  match op with
  | 1 => [(11, 8), (25, 24), (28, 28), (31, 29), (41, 32), (58, 42), (80, 64)]
  | 2 => [(11, 8), (27, 26), (28, 28), (41, 32), (58, 42), (80, 64)]
  | 3 => [(23, 16), (25, 24), (27, 26), (58, 42)]
  | 4 => [(11, 8), (15, 12), (23, 16), (25, 24), (27, 26), (28, 28), (31, 29), (41, 32), (81, 81)]
  | 5 => [(11, 8), (23, 16), (25, 24), (27, 26), (58, 42), (81, 81)]
  | 6 => [(11, 8), (23, 16), (25, 24), (27, 26), (58, 42), (80, 64), (83, 82), (85, 84), (93, 86)]
  | _ => []
/-- KC of a load or MMA (R117, item 4). -/
def kcOk (c : TCmd) (q : Nat) : Bool :=
  let k := c.kc.toNat
  k != 0 && (!isExactFmt c.fmt.toNat || k % 32 == 0) && (match c.sparse.toNat with
    | 1 => k % 4 == 0
    | 2 => k % 4 == 0
    | 3 => k % 16 == 0
    | _ => true) && k % q == 0
/-- The byte at a bonded address that the image's mask records write (R349, KIND 2). -/
def maskByte (img : Image) (a : Nat) : Option Byte :=
  match img.records.find? (fun r => r.kind == 2 && Nat.ble r.target.toNat a && Nat.blt a (r.target.toNat + r.bytes.length)) with
  | some r => some (r.bytes.getD (a - r.target.toNat) 0)
  | none => none
/-- The mask of panel p of a compressing WRITE, as the image holds it (R237). -/
def maskOf (img : Image) (d : Desc) (p : Nat) : Nat :=
  let mb := maskBlocks d
  ofBytes ((List.range (512 * mb)).map (fun a => (maskByte img (dMaskBase d + 512 * mb * p + a)).getD 0))
/-- The byte at a core-memory address that the image's records write (R349, KIND 0). -/
def coreByte (img : Image) (core a : Nat) : Option Byte :=
  match img.records.find? (fun r => r.kind == 0 && r.core.toNat == core && Nat.ble r.target.toNat a &&
      Nat.blt a (r.target.toNat + r.bytes.length)) with
  | some r => some (r.bytes.getD (a - r.target.toNat) 0)
  | none => none
/-- Bytes of a panel that say how much it holds: bitmaps of B16, row headers of RUBBLE (Table 8.3). -/
def headBytes (c : TCmd) : Nat := if c.sparse.toNat = 3 then 8 * cmdTr c else if c.sparse.toNat = 4 then 32 * cmdTr c else 0
/-- The bonded address of panel p of a sparse stream (R239). -/
def panelBase (d : Desc) (p : Nat) : Int := Int.ofNat (dBase d) + dOffset d (p * dTileRuns d)
/-- The panel that stands in a ring slot of a sparse READ at a beat: the first of those not yet released that lies there. -/
def ringPanel (m : Stream) (beat addr : Nat) : Option Nat :=
  let r := (m.tiles.filter (fun t => Nat.blt t beat)).length
  ((List.range (dRing m.desc)).map (fun k => r + k)).find? (fun j => Nat.blt j (dTiles m.desc) && slotAddr m.desc j == addr)
/-- What the head of a compressed panel that a LOAD_A reads holds, where the program says it: the image's own bytes, or the mask by
which a WRITE of the program stores the panel that a READ brings into the slot (Table 8.3, R237, R239). -/
def panelHead (img : Image) (x : StepSched) (core i beat : Nat) (c : TCmd) : Option Nat :=
  let n := headBytes c
  let a := c.addr.toNat
  let brought := (layerStreams x core i).findSome? (fun m =>
    if dKind m.desc = 0 ∧ dSparse m.desc = c.sparse.toNat ∧ m.asked ≤ beat then
      (ringPanel m beat a).map (fun j => panelBase m.desc j)
    else none)
  let writers := img.steps.flatMap (fun y => y.lists.flatMap (fun l => l.descs.filter (fun d =>
    dKind d == 1 && dSparse d == c.sparse.toNat && !bit d 36)))
  match brought with
  | some base => writers.findSome? (fun d => ((List.range (dTiles d)).find? (fun p => panelBase d p == base)).map (fun p =>
      ofBytes (((compressData d (maskOf img d p) (fun _ _ => 0)).1).take n)))
  | none =>
    if (List.range n).all (fun k => (coreByte img core (a + k)).isSome) then
      some (ofBytes ((List.range n).map (fun k => (coreByte img core (a + k)).getD 0)))
    else none
/-- Data bytes and scale bytes that a tensor command moves, or that an MMA's operands hold for A (R109 to R113); head is the
panel's head. Where the program does not say what a B16 or RUBBLE panel holds, only its head counts (log 33). -/
def tensorBytes (op : Nat) (c : TCmd) (head : Nat) : Nat × Nat :=
  let n := (cmdSel c).length
  let f := c.fmt.toNat
  match op with
  | 1 => (panelDataBytes c.sparse.toNat f (16 * cmdTr c) c.kc.toNat head, if isExactFmt f then 16 * cmdTr c * cmdKBlocks c else 0)
  | 2 => (elemBytes f (16 * cmdTc c * c.kc.toNat), if isExactFmt f then 16 * cmdTc c * cmdKBlocks c else 0)
  | 3 => (64 * n, 0)
  | 5 => (elemBytes f (256 * n), 0)
  | 6 => (elemBytes f (256 * n), if isMxFmt f then 8 * n else 0)
  | _ => (0, 0)
/-- Item 5 of R117 for a panel: at most 2,048 bytes of data and 128 of scales. -/
def panelFits (b : Nat × Nat) : Bool := Nat.ble b.1 2048 && Nat.ble b.2 128
/-- A tensor word is well formed: items 1 to 4 of R117, and the alignments of item 6. -/
def tensorOk (w : BitVec 128) : Bool :=
  let op := bits w 3 0
  let c := tcmdOf w
  let f := c.fmt.toNat
  Nat.ble op 6 && bits w 7 4 == 1 && onlyFields w ((3, 0) :: (7, 4) :: tensorFields op) && Nat.ble c.sparse.toNat 4 &&
  c.sat.toNat != 3 &&
  (match op with
   | 1 => Nat.ble f 0xB && kcOk c 1
   | 2 => Nat.ble f 0xB && kcOk c 1
   | 4 => mayPair f c.fmtB.toNat && kcOk c (mmaQ f c.fmtB.toNat)
   | 5 => f == 0xC || f == 0
   | 6 => Nat.ble f 0xC && (!isMxFmt f || Nat.ble 2 (cmdTc c))
   | _ => true) &&
  (Nat.blt op 3 || (Nat.ble (cmdTr c * cmdTc c) 8 && (cmdSel c).length == cmdTr c * cmdTc c)) &&
  (op == 0 || op == 4 || (c.addr.toNat % 128 == 0 && c.scaleAddr.toNat % 128 == 0))
/-- A tensor command in its place: its layer, its start beat in the step, its beats, opcode, fields, and the head of the panel that
it loads or multiplies. -/
structure TUse where
  layer : Nat
  start : Nat
  beats : Nat
  op : Nat
  cmd : TCmd
  head : Nat
deriving DecidableEq, Repr
/-- Items 5 and 6 of R117: the sizes of the panels that a command loads or that an MMA's fields imply, and its place. -/
def TUse.sizesOk (u : TUse) (foot : Byte) : Bool :=
  let (data, scale) := tensorBytes u.op u.cmd u.head
  (match u.op with
   | 1 => panelFits (data, scale)
   | 2 => panelFits (data, scale)
   | 4 => panelFits (tensorBytes 1 u.cmd u.head) && panelFits (tensorBytes 2 { u.cmd with fmt := u.cmd.fmtB } 0)
   | _ => true) &&
  (u.op == 4 || (inSections foot u.cmd.addr.toNat data && inSections foot u.cmd.scaleAddr.toNat scale))
/-- Beats of a tensor command: a memory-port command's slots (R109) or an MMA's count (R115). -/
def tensorBeats (op : Nat) (c : TCmd) (head : Nat) : Nat :=
  if op = 0 then 0 else if op = 4 then mmaBeats c head
  else 4 * ceilDiv (ceilDiv (tensorBytes op c head).1 128 + ceilDiv (tensorBytes op c head).2 128) 2
/-- The tensor words of a core in a step, in order: layer, beat in the layer, word. -/
def tensorWords (x : StepSched) (core : Nat) : List (Nat × Nat × BitVec 128) :=
  (List.range x.layers.length).flatMap (fun i => (schedOccs x core i).filterMap (fun e => match e.2 with
    | .tensor w => if bits w 3 0 = 0 then none else some (i, e.1, w)
    | _ => none))
/-- The tensor commands of a core in their places; halves holds the heads of the panels loaded into the halves of the A buffer. -/
def placeUses (img : Image) (x : StepSched) (core : Nat) : List (Nat × Nat) → List (Nat × Nat × BitVec 128) → List TUse
  | _, [] => []
  | halves, (i, b, w) :: rest =>
    let op := bits w 3 0
    let c := tcmdOf w
    let head := if op = 1 then (panelHead img x core i b c).getD 0 else Map.get 0 halves (cmdHalf c)
    { layer := i, start := layerBase x i + b, beats := tensorBeats op c head, op := op, cmd := c, head := head } ::
      placeUses img x core (if op = 1 then Map.set halves (cmdHalf c) head else halves) rest
/-- The tensor commands of a core in a step. -/
def tensorUses (img : Image) (x : StepSched) (core : Nat) : List TUse := placeUses img x core [] (tensorWords x core)
/-- Whether every pair of a list, the earlier first, satisfies p. -/
def allPairs {α : Type} (p : α → α → Bool) : List α → Bool
  | [] => true
  | x :: xs => xs.all (p x) && allPairs p xs
/-- Two tensor commands, the earlier first, that may stand together: items 7, 8 and 12 of R117. -/
def tensorPair (a b : TUse) : Bool :=
  let clash := Nat.blt b.start (a.start + a.beats) && Nat.blt a.start (b.start + b.beats)
  let loads (x : TUse) : Bool := x.op == 1 || x.op == 2
  let shared := (cmdSel a.cmd).any (fun t => (cmdSel b.cmd).contains t) && Nat.ble 3 a.op && Nat.ble 3 b.op
  !(clash && ((a.op == 4) == (b.op == 4))) &&
  !(clash && ((loads a && b.op == 4) || (a.op == 4 && loads b)) && a.cmd.half == b.cmd.half) && !(clash && shared) &&
  !(a.op == 4 && (b.op == 5 || b.op == 6) && shared && Nat.blt b.start (a.start + a.beats + 5))
/-- What the replay knows of a tile: initialised, on the 16-bit path, a LOAD_ANCHOR since the last INIT, and whether that
LOAD_ANCHOR was its last use. -/
structure TileSeen where
  init : Bool := false
  path16 : Bool := false
  anchored : Bool := false
  fresh : Bool := false
deriving DecidableEq, Repr
/-- One command's use of one tile: whether items 9 to 11 of R117 allow it, and the tile after it. -/
def tileUse (u : TUse) (t : TileSeen) : Bool × TileSeen :=
  let p16 := if u.op = 4 then !isExactFmt u.cmd.fmt.toNat else u.cmd.fmt.toNat == 0
  match u.op with
  | 3 => (true, { t with anchored := true, fresh := true })
  | 6 => (t.init && !(u.cmd.fmt.toNat == 0xC && t.path16), { t with fresh := false })
  | _ =>
    if u.cmd.init then
      (if p16 then !t.fresh else t.anchored, { init := true, path16 := p16, anchored := false, fresh := false })
    else (t.init && t.path16 == p16, { t with fresh := false })
/-- The replay of a core's tiles over its commands in order. -/
def tilesReplay : List (Nat × TileSeen) → List TUse → Bool
  | _, [] => true
  | m, u :: us =>
    let step (r : Bool × List (Nat × TileSeen)) (t : Nat) : Bool × List (Nat × TileSeen) :=
      let x := tileUse u (Map.get {} r.2 t)
      (r.1 && x.1, Map.set r.2 t x.2)
    let r := (if Nat.ble 3 u.op then cmdSel u.cmd else []).foldl step (true, m)
    r.1 && tilesReplay r.2 us
/-- The tensor commands of a core in a step pass (R117): two of them may meet across the gap of a layer. -/
def tensorCheck (img : Image) (x : StepSched) (core : Nat) : Bool :=
  let foot := (schedMask x core).footprint
  let us := tensorUses img x core
  (List.range x.layers.length).all (fun i => (schedOccs x core i).all (fun e => match e.2 with
    | .tensor w => tensorOk w && (bits w 3 0 == 0 || bits w 3 0 == 4 || e.1 % 4 == 0)
    | _ => true)) &&
  us.all (fun u => u.sizesOk foot) && allPairs tensorPair us && tilesReplay [] us

/-! ### Counters and predicates (R200) -/

/-- The counter, or 16 and the number of the predicate, that a steering word writes. -/
def steerWrites (w : BitVec 64) : Option Nat :=
  match bits w 4 0 with
  | 1 => some (bits w 12 9)
  | 2 => some (bits w 12 9)
  | 3 => some (16 + bits w 19 17)
  | 8 => some (bits w 12 9)
  | _ => none
/-- The counters, and the predicates as 16 and their number, that a steering word uses. -/
def steerUses (w : BitVec 64) : List Nat :=
  match bits w 4 0 with
  | 2 => [bits w 12 9]
  | 3 => [bits w 12 9]
  | 4 => if bit w 23 then [bits w 12 9] else []
  | 5 => [16 + bits w 19 17]
  | 9 => if bit w 23 then [bits w 12 9] else []
  | _ => []
/-- Two steering commands of a layer with their beats: neither uses in a beat what the other writes in it (R192 item 8, R200). -/
def steerPair (a b : Nat × BitVec 64) : Bool :=
  let meets (u v : BitVec 64) : Bool := match steerWrites u with
    | some n => (steerUses v).contains n
    | none => false
  a.1 != b.1 || !(meets a.2 b.2 || meets b.2 a.2)
/-- The steering commands of a core's layer with their beats. -/
def steerOccs (os : List (Nat × CmdWord)) : List (Nat × BitVec 64) :=
  os.filterMap (fun e => match e.2 with
    | .steer w => some (e.1, w)
    | _ => none)

/-- Every command of a core in a step is well formed and in its place, but for its streams (R117, R126, R200, R202, R236,
R265). -/
def commandsOk (x : StepSched) (img : Image) (core : Nat) : Bool :=
  (x.cmds.filter (fun c => c.core == core)).all (fun c => match c.word with
    | .steer w => steerOk w
    | .dma w => dmaOk w
    | .router w => routerOk img x core w
    | _ => true) &&
  (List.range x.layers.length).all (fun i =>
    let os := schedOccs x core i
    windowsOk (schedOwn x core i) && vecCheck (schedMask x core).footprint os && allPairs steerPair (steerOccs os)) && tensorCheck img x core

end Sys2Proof.Machine
end

