-- ==== Sys2Proof/Machine/MeshCmds.lean ====
section
/-!
DEFINITION. The meanings of the mesh's events (R248 to R258), of what arrives at a core (R193 to R217, R263, R267 to
R272), and of the broadcast buses (R262, R263).
-/

namespace Sys2Proof.Machine

/-- An acknowledgement frees the packets up to its LSEQ, a re-send request sends from it again (R256). -/
def State.takeAck (s : State) (core link : Nat) (scheduled nak : Bool) (lseq : BitVec 6) : State :=
  let c := s.core core
  let x := c.mlink link
  let k := x.kind scheduled
  if k.replay.any (fun r => r.1 == lseq) then
    if nak then s.resendFrom core link scheduled lseq
    else s.setCore core (c.setMlink link (x.setKind scheduled { k with
      replay := (k.replay.dropWhile (fun r => r.1 != lseq)).drop 1 }))
  else s
/-- The answers that the sidebands of arriving flits carry for the packets of the other direction (Table 9.1, R256). -/
def State.takeAcks (s : State) (core link : Nat) (side : List (BitVec 96)) : State :=
  side.foldl (fun t b => if sideOk b && bit b 11 then
    t.takeAck core link (!bit b 13) (bit b 12) (BitVec.ofNat 6 (bits b 19 14)) else t) s
/-- Changes one kind of traffic of a link, with an answer for the other direction (R256). -/
def Core.answer (c : Core) (link : Nat) (sched : Bool) (k : LinkKind) (nak : Bool) (lseq : BitVec 6) : Core :=
  let x := (c.mlink link).setKind sched k
  c.setMlink link { x with answers := x.answers ++ [ackWord nak sched lseq] }

/-- MESH_PACKET_RECEIVE (R249 to R251, R254, R256): a good packet in sequence is acknowledged and waits at its input for its beat; a
bad one is answered with a re-send request, and later ones of its kind are discarded until it comes again. One taken before is
acknowledged again, and one that finds no room stays with its sender (log 59). -/
def execMeshPacketReceive (core : Nat) (link : BitVec 2) (hop : HopIn) (side : List (BitVec 96)) (payload : List (BitVec 256))
    (s : State) : Res :=
  atCore core (.next (
    let l := link.toNat
    let s1 := s.takeAcks core l side
    let c := s1.core core
    let p := pktOf hop side payload
    let sched := pktScheduled p
    let k := (c.mlink l).kind sched
    let lseq := BitVec.ofNat 6 (bits (side.headD 0) 10 5)
    let good := posOk side && side.length == payload.length && side.all sideOk && pktCrc p == p.crc
    if lseq != k.expect then
      if good && Nat.ble (k.expect - lseq).toNat 32 then s1.setCore core (c.answer l sched k false lseq)
      else if k.discard then s1
      else s1.setCore core (c.answer l sched { k with discard := true } true k.expect)
    else if !good then s1.setCore core (c.answer l sched { k with discard := true } true lseq)
    else if !k.takes p then s1
    else (s1.setCore core (c.answer l sched { k with discard := false, expect := k.expect + 1 } false lseq)).routePkt core l p))

/-- MESH_ACK (R256): an acknowledgement or re-send request in a sideband of its own. -/
def execMeshAck (core : Nat) (link : BitVec 2) (scheduled nak : Bool) (lseq : BitVec 6) (s : State) : Res :=
  atCore core (.next (s.takeAck core link.toNat scheduled nak lseq))

/-- MESH_RESEND_TIMEOUT (R256): the oldest unanswered packet is sent again, with every later one. -/
def execMeshResendTimeout (core : Nat) (link : BitVec 2) (scheduled : Bool) (s : State) : Res :=
  atCore core (.next (
    match (((s.core core).mlink link.toNat).kind scheduled).replay with
    | [] => s
    | r :: _ => s.resendFrom core link.toNat scheduled r.1))

/-- STREAM_BLOCK: a data block arrives at a receive endpoint (R193, R196, R206, R211). -/
def execStreamBlock (core : Nat) (ep : BitVec 5) (data : List Byte) (s : State) : Res :=
  atCore core (.next (
    let e := ep.toNat % 16
    let s1 := (s.deliver (fun p => match p with
      | .block d q _ _ => d == core && q == e
      | _ => false)).dropLocal core 0 ep.toNat
    let c := s1.core core
    s1.coreStep core (if c.flow.sink then c.sinkBlock e else c.takeBlock e data)))

/-- CREDIT_PACKET: data credits and pairing credits come home (R194, R196, R211). -/
def execCreditPacket (core : Nat) (ep : BitVec 5) (data pair : Nat) (s : State) : Res :=
  atCore core (.next (
    let e := ep.toNat % 16
    let s1 := (s.deliver (fun p => match p with
      | .credit d q _ n k => d == core && q == e && n == data && k == pair
      | _ => false)).dropLocal core 4 ep.toNat
    s1.coreStep core ((s1.core core).takeCredit e data pair)))

/-- CONTROL_TOKEN (R206, R211, R216): a stale token is dropped, and the router that delivered it is to be tested. -/
def execControlToken (core : Nat) (w : BitVec 128) (s : State) : Res :=
  atCore core (.next (
    let s1 := (s.deliver (fun p => match p with
      | .token d _ v => d == core && v == w
      | _ => false)).dropLocal core 5 (bits w 9 6)
    let c := s1.core core
    let draining := (s.wing (s.lead (wingOf core))).draining
    let s2 := s1.coreStep core (c.controlToken w draining)
    if bits w 5 4 = c.flow.epoch.toNat then s2
    else s2.followUnit (wingOf core) (syncCode 7) (.core (BitVec.ofNat 22 (s2.position core)))))

/-- COURSE_MESSAGE: an arrival reaches the course's host (R267). -/
def execCourseMessage (host : Nat) (course member : BitVec 6) (sender : Nat) (order : Bool) (s : State) : Res :=
  atCore host (atCore sender (.next (
    let s1 := (s.deliver (fun p => match p with
      | .course h k m _ => h == host && k == course.toNat && m == member.toNat
      | _ => false)).dropLocal host 6 course.toNat
    s1.coreStep host ((s1.core host).courseArrival course.toNat member.toNat sender order))))

/-- COURSE_RELEASE: a release reaches a member and is held in the flag of its course number (R267). -/
def execCourseRelease (core : Nat) (course : BitVec 6) (s : State) : Res :=
  atCore core (.next (
    let s1 := (s.deliver (fun p => match p with
      | .release d k _ => d == core && k == course.toNat
      | _ => false)).dropLocal core 6 course.toNat
    s1.onCore core (fun c => c.holdRelease course.toNat)))

/-- An arrival counted at the roots of a wafer course (R268): the last one releases every core of the span; one too many
ends the step with SYNC:0x010. -/
def State.waferArrival (s : State) (w k : Nat) : State :=
  let r := Map.get {} (s.wing w).wafer k
  let put (q : WaferCourse) : State := s.onWings w (fun v => { v with wafer := Map.set v.wafer k q })
  if r.participants ≤ r.arrived then
    ((put { r with overran := true }).onWing w (fun v => { v with overCourse := BitVec.ofNat 6 k, overValid := true })).endStep w
      (syncCode 0x10) 0 0 true
  else if r.arrived + 1 = r.participants then
    (put { r with arrived := 0, gen := !r.gen }).mapCores w
      (fun c => { c with router := { c.router with waferHeld := c.router.waferHeld ||| BitVec.ofNat 64 (2 ^ k) } })
  else put { r with arrived := r.arrived + 1 }

/-- COURSE_TREE_MESSAGE (R268). -/
def execCourseTreeMessage (wing : Nat) (course : BitVec 6) (parityOk : Bool) (node : Nat) (s : State) : Res :=
  atWing wing (below 48 node (.next (
    let l := s.lead wing
    let s1 := s.deliver (fun p => match p with
      | .wafer k => k == course.toNat
      | _ => false)
    if parityOk then s1.waferArrival l course.toNat
    else (s1.followUnit l (linkCode 6) (.wire 2 (BitVec.ofNat 20 (256 * node)))).endStep l (linkCode 6) 2 node true)))

/-- TALLY_MESSAGE (R271, R272). -/
def execTallyMessage (core : Nat) (tally : BitVec 5) (countM1 : Byte) (s : State) : Res :=
  atCore core (.next (
    let n := countM1.toNat + 1
    let s1 := (s.deliver (fun p => match p with
      | .tally d t m _ => d == core && t == tally.toNat && m == n
      | _ => false)).dropLocal core 6 tally.toNat
    s1.coreStep core ((s1.core core).addProd tally.toNat n)))

/-- The flow of a packet: its source router and its destination (R258). -/
def pktFlow (p : Pkt) : Nat := p.src * 2 ^ 24 + pktDest p
/-- The unscheduled packet that an output serves next, with its input: from the inputs in turn, in the order north, east, south,
west and local, one packet per turn (R275); in level mode from the flows in turn (R258). -/
def Core.nextUnsched (c : Core) (level : Bool) (here out : Nat) : Option (Nat × Pkt) :=
  let mine (p : Pkt) : Bool := pktOut here (pktRouted p level) == out
  if level then
    let ps := (List.range 5).flatMap (fun i => ((c.inputPkts i).filter mine).map (fun p => (i, p)))
    let least (qs : List (Nat × Pkt)) : Option (Nat × Pkt) := qs.foldl (fun b q => match b with
      | none => some q
      | some r => if pktFlow q.2 < pktFlow r.2 then some q else b) none
    let last := Map.get 0 c.router.lastFlow out
    (least (ps.filter (fun q => Nat.blt last (pktFlow q.2)))).or (least ps)
  else
    let last := Map.get 4 c.router.turn out
    ((List.range 5).map (fun i => (last + 1 + i) % 5)).findSome? (fun i => match c.inputPkts i with
      | p :: _ => if mine p then some (i, p) else none
      | [] => none)
/-- Whether a link, or the local port, has no scheduled flit to carry in the present beat (R248). -/
def Core.outIdle (c : Core) (level : Bool) (here out : Nat) : Bool :=
  Nat.ble (if out = 4 then c.router.localBusy else (c.mlink out).busy) c.now && (level || (c.schedInput here out c.now).isNone)
/-- An output serves one unscheduled packet (R248, R256, R258, R275). -/
def Core.serveUnsched (c : Core) (level : Bool) (here out : Nat) : Core :=
  match c.nextUnsched level here out with
  | none => c
  | some (i, p) =>
    if c.outIdle level here out && (out == 4 || ((c.mlink out).unsched.room p && !(c.mlink out).failed)) then
      let c1 := c.takeInput i p
      let c2 : Core := { c1 with router := { c1.router with
        turn := Map.set c1.router.turn out i, lastFlow := Map.set c1.router.lastFlow out (pktFlow p) } }
      if out = 4 then c2 else c2.setMlink out ((c2.mlink out).send p c2.now)
    else c
/-- An unscheduled packet comes in by the local port; in level mode a source sends at most one flit of a flow in every 16 of its
beats (R258). -/
def Core.enterUnsched (c : Core) (level : Bool) (here : Nat) (p : Pkt) : Core :=
  let q : Pkt := { p with src := here, due := 0 }
  if pktScheduled p then c
  else if level && Nat.blt c.now (Map.get 0 c.router.flows (pktDest p)) then c
  else { c with router := { c.router with
    localIn := c.router.localIn ++ [q], flows := Map.set c.router.flows (pktDest p) (c.now + 16 * p.payload.length) } }
/-- UNSCHEDULED_PACKET (R248, R258, R275): one comes in by the local port, or an output serves one in a beat that scheduled traffic
leaves idle. -/
def execUnscheduledPacket (core : Nat) (turn : UnschedTurn) (s : State) : Res :=
  atCore core (.next (s.onCore core (fun c => match turn with
    | .enter p => c.enterUnsched (s.levelAt core) core p
    | .serve o => c.serveUnsched (s.levelAt core) core o.toNat)))

/-- A bus binding of a core. -/
def Core.bus (c : Core) (e : Nat) : BusBind := Map.get { raw := 0 } c.router.buses e
/-- Bytes of a bus block: 16 B in each data beat (Table 9.4, R259). -/
def busBytes (raw : BitVec 256) : Nat := 16 * (bits raw 12 8 + 1)
/-- The core-memory address of the ring slot of a bus block (Table 9.4, R262). -/
def busSlot (raw : BitVec 256) (i : Nat) : Nat := bits raw 144 128 + i % (bits raw 148 145 + 1) * busBytes raw

/-- Replaces a bus binding. -/
def Core.setBus (c : Core) (e : Nat) (b : BusBind) : Core := { c with router := { c.router with buses := Map.set c.router.buses e b } }
/-- The layer beat of the first data beat of block i of a bus binding (Table 9.4). -/
def busBeat (raw : BitVec 256) (i : Nat) : Nat := bits raw 95 64 + i * bits raw 55 40
/-- BUS_BLOCK_SEND (R262): at its beat the writer begins to place the next block from its ring slot on the bus, one word in each
beat. -/
def execBusBlockSend (core : Nat) (entry : BitVec 2) (s : State) : Res :=
  atCore core (.next (
    let c := s.core core
    let b := c.bus entry.toNat
    if bit b.raw 5 && s.railOn (clusterOf core) && !c.waiting && !c.flow.sink && Nat.blt b.count (bits b.raw 31 16 + 1) &&
        !b.sending && Nat.ble (c.flow.layerStart + busBeat b.raw b.count) c.time then
      s.setCore core (c.setBus entry.toNat { b with sending := true, part := [] })
    else s))
/-- The word of 16 B that a router has read at an address, or reads now where its row took no turn. -/
def Core.busWord (c : Core) (a : Nat) : Except CoreFault (List Byte) :=
  match c.router.busRows.find? (fun r => Nat.ble r.1 a && Nat.ble (a + 16) (r.1 + r.2.length)) with
  | some r => .ok (sliceBytes r.2 (a - r.1) 16)
  | none => c.readMem a 16
/-- A writer places the word of the present beat; with the last one the block is placed (R262). -/
def Core.placeWord (c : Core) (e : Nat) (b : BusBind) : Core × Option CoreFault :=
  if !b.sending then (c, none)
  else match c.busWord (busSlot b.raw b.count + b.part.length) with
    | .error f => (c.setBus e { b with sending := false }, some f)
    | .ok w =>
      let part := b.part ++ w
      (c.setBus e (if part.length < busBytes b.raw then { b with part := part }
        else { b with sending := false, part := [], placed := part, count := b.count + 1 }), none)
/-- Every block that a core places on a bus takes its word of the beat. -/
def Core.placeWords (c : Core) : Core × Option CoreFault :=
  c.router.buses.foldl (fun r e => ((r.1.placeWord e.1 e.2).1, r.2.or (r.1.placeWord e.1 e.2).2)) (c, none)

/-- LINK:0x002 on a row bus: the listener's segment, its physical row, is to be tested too (R383, Table 14.4). -/
def State.rowTest (s : State) (core : Nat) (column : Bool) : State :=
  if column || s.underTest core then s
  else s.followUnit (wingOf core) (linkCode 2) (.row (BitVec.ofNat 22 (s.position core / 256 * 256 + 255)))
/-- BUS_BLOCK (R262, R263): a listener writes a good block to its ring slot; a bad one ends the step with LINK:0x002. -/
def execBusBlock (core : Nat) (entry : BitVec 2) (data : List Byte) (crc : BitVec 32) (s : State) : Res :=
  atCore core (.next (
    let c := s.core core
    let b := c.bus entry.toNat
    if b.raw != 0 && !bit b.raw 5 && !c.flow.sink then
      let bs := padTo (busBytes b.raw) data
      if crc32c bs != crc then (s.rowTest core (bit b.raw 4)).coreFault core (.link 2 5 0)
      else s.setCore core (({ c with dma := c.dma.stage c.now (24 + entry.toNat) (busSlot b.raw b.count) bs } : Core).setBus
        entry.toNat { b with count := b.count + 1 })
    else s))

end Sys2Proof.Machine
end

