-- ==== Sys2Proof/Machine/LoadStreams.lean ====
section
/-!
DEFINITION. The load checks of what cores exchange: bindings and credit loops (R192, R195, R208), stream descriptors and
masks (R225, R236, R237), buses (R260, R262), courses (R267, R269) and link occupancy (R253), replayed at the budgeted beats
(R59, R194, R255).
-/

namespace Sys2Proof.Machine

/-! ### Endpoint bindings (R192) -/

/-- Bytes of a receive buffer, whole lines (R192, R223). -/
def bufBytes (b : BindRec) : Nat := roundUp (bindBuf b + bindDepth b * bindFlits b * 32) 64 - bindBuf b
/-- Items 1, 4 and 5 of R192: the fields of an entry. -/
def bindOk (b : BindRec) : Bool :=
  let k := bindKind b
  let between (n : Nat) : Bool := Nat.ble 1 n && Nat.ble n 16
  bits b.raw 3 0 == 1 && k != 3 && (k == 1 || !bit b.raw 6) && !bit b.raw 7 && !bit b.raw 31 && bits b.raw 127 112 == 0 &&
  bits b.raw 255 145 == 0 && bindBuf b % 128 == 0 && (k == 1 || bindBuf b == 0) && (bindGoverned b || bindTokenPeer b == 0) &&
  (if k = 2 then bindFlits b == 0 && bindPer b == 0 && bindDepth b == 0
   else between (bindFlits b) && between (bindPer b) && between (bindDepth b) && Nat.ble (bindPer b) (bindDepth b)) &&
  bindPeer b != b.core && (!bindGoverned b || bindTokenPeer b != b.core)
/-- Items 2 and 3 of R192: the entries that belong together. -/
def bindMatches (bs : List BindRec) (b : BindRec) : Bool :=
  let same (c : BindRec) : Bool := bindFlits c == bindFlits b && bindPer c == bindPer b && bindDepth c == bindDepth b &&
    bindFirings c == bindFirings b
  let back (c : BindRec) : Bool := c.core == bindPeer b && bindEp c == bindPeerEp b && bindPeer c == b.core && bindPeerEp c == bindEp b
  (match bindKind b with
   | 0 => bs.any (fun c => bindKind c == 1 && back c && same c)
   | 1 => bs.any (fun c => bindKind c == 0 && back c && same c) && (!bindGoverned b ||
       bs.any (fun c => bindKind c == 2 && c.core == bindTokenPeer b && bindPeer c == b.core && bindPeerEp c == bindEp b &&
         bindFirings c == bindFirings b))
   | _ => bs.any (fun c => bindGoverned c && c.core == bindPeer b && bindEp c == bindPeerEp b && bindTokenPeer c == b.core))
/-- Two entries of one layer that may stand together: numbers used once, receive buffers apart (R191, R192 item 6). -/
def bindPair (a b : BindRec) : Bool :=
  a.core != b.core || ((bindKind a == 1) != (bindKind b == 1)) ||
  (bindEp a != bindEp b && (bindKind a != 1 || !overlaps (bindBuf a) (bufBytes a) (bindBuf b) (bufBytes b)))
/-- The bindings of a layer (R192, items 1 to 7). -/
def bindsOk (x : StepSched) (i : Nat) : Bool :=
  let bs := layerBinds x i false
  bs.all (fun b => bindOk b && bindMatches bs b &&
    (bindKind b != 1 || inSections (schedMask x b.core).footprint (bindBuf b) (bufBytes b)) &&
    Nat.ble (bs.filter (fun c => bindGoverned c && c.core == b.core)).length 8) && allPairs bindPair bs

/-! ### Credit loops and pairing, replayed (R193, R195, R207, R208) -/

/-- How many of a list of beats lie at or before a beat. -/
def upTo (bs : List Nat) (t : Nat) : Nat := (bs.filter (fun b => Nat.ble b t)).length
/-- Whether each FIRE finds its credits and each block a free slot; fires and consumes in order, hop the beats of the route in
each direction. -/
def loopOk (b : BindRec) (fires consumes : List Nat) (hop : Nat) : Bool :=
  let n := bindPer b
  fires.zipIdx.all (fun (f, j) =>
    Nat.ble (n * (j + 1)) (bindDepth b + n * upTo (consumes.map (· + hop)) f) &&
    (List.range n).all (fun i =>
      let arrives := f + (i + 1) * bindFlits b - 1 + hop
      Nat.ble (n * j + i + 1) (bindDepth b + n * upTo consumes arrives)))
/-- Whether each half of a governed endpoint's firings leaves with a pairing credit and arrives in the pairing window; takes are
in order, arrive gives the beat of half j, hop the beats of the pairing credit's way back. -/
def pairingOk (sent takes : List Nat) (arrive : Nat → Nat) (hop : Nat) : Bool :=
  sent.zipIdx.all (fun (f, j) =>
    Nat.blt j (4 + upTo (takes.map (· + hop)) f) &&
    (let k := (takes.filter (fun t => Nat.blt t (arrive j))).length
     Nat.ble k j && Nat.ble j (k + 3)))
/-- The engine reads of core memory of a core's layer: beat, address, bytes; a memory-port command moves one row in each of its
turns, two in a slot, its data before its scales (R109). -/
def engineReads (img : Image) (x : StepSched) (core i : Nat) : List (Nat × Nat × Nat) :=
  ((tensorUses img x core).filter (fun u => u.layer == i)).flatMap (fun u =>
    let (d, s) := tensorBytes u.op u.cmd u.head
    let t := u.start - layerBase x i
    let rows (a n : Nat) : List (Nat × Nat) := (List.range (ceilDiv n 128)).map (fun k => (a + 128 * k, min 128 (n - 128 * k)))
    if u.op = 4 ∨ u.op = 6 then []
    else (rows u.cmd.addr.toNat d ++ rows u.cmd.scaleAddr.toNat s).zipIdx.map (fun (r, k) => (t + 4 * (k / 2) + k % 2, r))) ++
  (schedOccs x core i).filterMap (fun e => match e.2 with
    | .vector w => if bits w 5 0 = 1 then some (e.1, bits w 50 34, 128) else none
    | _ => none)
/-- The engine writes of core memory of a core's layer: beat, address, bytes. -/
def engineWrites (x : StepSched) (core i : Nat) : List (Nat × Nat × Nat) :=
  (schedOccs x core i).flatMap (fun e => match e.2 with
    | .tensor w =>
      let c := tcmdOf w
      let (d, s) := tensorBytes 6 c 0
      if bits w 3 0 = 6 then [(e.1, c.addr.toNat, d), (e.1, c.scaleAddr.toNat, s)] else []
    | .vector w => if bits w 5 0 = 2 then [(e.1, bits w 50 34, 128)] else []
    | _ => [])
/-- A governed firing's slots are read only from the beat after its TAKE on (R208). -/
def takenFirst (b : BindRec) (fires takes : List Nat) (hop : Nat) (reads : List (Nat × Nat × Nat)) : Bool :=
  (fires.zip takes).zipIdx.all (fun (e, j) => (List.range (bindPer b)).all (fun i =>
    let slot := bindBuf b + (j * bindPer b + i) % bindDepth b * (bindFlits b * 32)
    reads.all (fun r => !overlaps r.2.1 r.2.2 slot (bindFlits b * 32) || Nat.blt r.1 (e.1 + hop) || Nat.blt e.2 r.1)))
/-- The steering commands of a layer use its endpoints as bound, each exactly FIRINGS times (R190, R192 item 8). -/
def countsOk (x : StepSched) (i : Nat) (b : BindRec) : Bool :=
  let n (op : Nat) : Nat := (steerBeats x b.core i op (bindEp b)).length
  match bindKind b with
  | 0 => n 6 == bindFirings b && n 9 == 0
  | 1 => n 7 == bindFirings b && n 8 == (if bindGoverned b then bindFirings b else 0)
  | _ => n 9 == bindFirings b && n 6 == 0
/-- Steering commands name bound endpoints only. -/
def namesBound (x : StepSched) (i : Nat) : Bool :=
  let bs := layerBinds x i false
  x.cmds.all (fun c => c.layer != i || (match c.word with
    | .steer w =>
      let ep := bits w 16 13
      (match bits w 4 0 with
       | 6 => bs.any (fun b => b.core == c.core && bindKind b == 0 && bindEp b == ep)
       | 7 => bs.any (fun b => b.core == c.core && bindKind b == 1 && bindEp b == ep)
       | 8 => bs.any (fun b => b.core == c.core && bindGoverned b && bindEp b == ep)
       | 9 => bs.any (fun b => b.core == c.core && bindKind b == 2 && bindEp b == ep)
       | _ => true)
    | _ => true))
/-- The replay of the loops of one receive entry. -/
def recvReplay (split : Bool) (x : StepSched) (i : Nat) (b : BindRec) : Bool :=
  let fires := steerBeats x (bindPeer b) i 6 (bindPeerEp b)
  let consumes := steerBeats x b.core i 7 (bindEp b)
  let hop := hopBeats split 6 (bindPeer b) b.core
  loopOk b fires consumes hop &&
  (!bindGoverned b ||
    (let takes := steerBeats x b.core i 8 (bindEp b)
     let dataAt (j : Nat) : Nat := fires.getD j 0 + bindPer b * bindFlits b - 1 + hop
     let back := hopBeats split 6 b.core (bindTokenPeer b)
     (consumes.zip takes).all (fun e => Nat.blt e.2 e.1) && pairingOk fires takes dataAt hop &&
     (match (layerBinds x i false).find? (fun c => bindKind c == 2 && c.core == bindTokenPeer b && bindPeer c == b.core &&
         bindPeerEp c == bindEp b) with
      | some c =>
        let tokens := steerBeats x c.core i 9 (bindEp c)
        pairingOk tokens takes (fun j => tokens.getD j 0 + back) back
      | none => false)))
/-- The stream checks of a layer (R192, R195, R207). -/
def loopsOk (split : Bool) (x : StepSched) (i : Nat) : Bool :=
  let bs := layerBinds x i false
  bindsOk x i && bs.all (countsOk x i) && namesBound x i && (bs.filter (fun b => bindKind b == 1)).all (recvReplay split x i)

/-! ### Stream descriptors (R225, R228, R231 to R233, R236, R237) -/

/-- The fields of Table 8.2 that a KIND uses: a SEND has no elements, and neither it nor a PRESCAN has tiles. -/
def descFields (d : Desc) : List (Nat × Nat) :=
  let sparse := dSparse d != 0
  let tiled := [(11, 8), (34, 32)]
  [(3, 0), (7, 4), (127, 112), (143, 128), (159, 144), (175, 160), (191, 176), (223, 192), (255, 224), (287, 256),
   (319, 288), (336, 320)] ++
  (match dKind d with
   | 0 => tiled ++ [(14, 12), (15, 15), (19, 16), (31, 24), (35, 35), (43, 40), (111, 64)] ++ (if sparse then [(46, 44)] else [])
   | 1 => tiled ++ [(14, 12), (19, 16), (31, 24), (43, 40), (111, 64)] ++
       (if sparse then [(36, 36), (46, 44), (431, 384), (383, 352)] else [(383, 352)])
   | 2 => [(23, 20)]
   | 3 => [(11, 8), (15, 15), (31, 24), (37, 37), (43, 40), (111, 64), (449, 448), (451, 450)]
   | _ => tiled ++ [(19, 16), (31, 24), (43, 40), (55, 48), (111, 64)])
/-- The runs of a descriptor satisfy the alignment of their kind (R228, R231, R232, R239; R236 item 4). -/
def runsOk (d : Desc) : Bool :=
  let k := dKind d
  let f := dFmt d
  (!(isMxFmt f && (k == 0 || k == 1 || k == 3)) || dBase d % 512 == 0) &&
  (!(isExactFmt f && k != 2) || dRun d * 8 % (32 * fmtBits f) == 0) &&
  (k != 2 || (dRun d % 32 == 0 && dCoreAddr d % 32 == 0 && (List.range 4).all (fun i => dStride d (i + 1) % 32 == 0))) &&
  (!(k == 1 && dSparse d == 0) || (dRun d % blockUnit d == 0 &&
    (List.range (dRuns d)).all (fun t => (dRunPos d t).1 % Int.ofNat (blockUnit d) == 0))) &&
  (dSparse d == 0 || dStride d 1 == 0)
/-- The core-memory ranges of a descriptor's ring, source or output (R236, item 6). -/
def descRanges (d : Desc) : List (Nat × Nat) :=
  match dKind d with
  | 2 => (List.range (dRuns d)).map (fun t => ((Int.ofNat (dCoreAddr d) + dOffset d t).toNat, dRun d))
  | 3 => [(dCoreAddr d, 64 * (dPsTr d * dPsTc d))]
  | _ => [(dCoreAddr d, dRing d * slotSize d)]
/-- One descriptor is well formed (R236, items 1, 4, 5 and 6); BASE at an optical gateway has bits [47:44] zero (R317). -/
def descOk (foot : Byte) (d : Desc) : Bool :=
  let k := dKind d
  bits d 3 0 == 1 && Nat.ble k 5 && onlyFields d (descFields d) && Nat.ble (dFmt d) 0xC && Nat.ble (dSparse d) 4 &&
  Nat.ble (bits d 19 16) 8 && (k == 2 || k == 3 || (Nat.ble 1 (dTileDims d) && Nat.ble (dTileDims d) 5)) &&
  Nat.ble (dGateway d) 64 && (!dOptical d || bits d 111 108 == 0) && dCoreAddr d % 128 == 0 && (!bit d 35 || (k == 0 && dTileDims d == 2)) &&
  (dSparse d == 0 || ((k == 0 || k == 1) && dTileDims d == 2 && dFmt d != 0xC)) && dMaskBase d % 512 == 0 && runsOk d &&
  (k != 2 || (List.range (dRuns d)).all (fun t => decide (0 ≤ Int.ofNat (dCoreAddr d) + dOffset d t))) &&
  (descRanges d).all (fun r => inSections foot r.1 r.2)
/-- A descriptor list of a core and layer: its place (R225) and its descriptors. -/
def listOk (x : StepSched) (l : DescList) : Bool :=
  let m := schedMask x l.core
  l.addr % 128 == 0 && Nat.ble l.descs.length 512 && inSections (m.footprint &&& m.entry &&& m.keep) l.addr (64 * l.descs.length) &&
  l.descs.all (descOk m.footprint)
/-- The second half of a PRESCAN pair (R233). -/
def scanPair (ds : List Desc) (n : Nat) (d : Desc) : Bool :=
  match ds[n + 1]? with
  | some e => bit d 37 && n % 8 != 7 && dKind e == 3 && !bit e 37 && dCount d 1 == 16 * dPsTr d && dCount e 1 == 16 * dPsTc d
  | none => false
/-- What is open in a stream slot: the descriptor and the tiles acted on. -/
structure Open where
  desc : Desc
  tiles : Nat
deriving DecidableEq, Repr
/-- Whether a stream may have moved every block once so many of its tiles have been acted on: an outgoing tile moves when it is
handed over, a tile of a ring when the one before it in its slot is released (R224, R230). -/
def Open.mayEnd (o : Open) : Bool :=
  !takesTiles o.desc || Nat.ble (dTiles o.desc) (if dKind o.desc = 1 ∨ dKind o.desc = 5 then o.tiles else o.tiles + dRing o.desc)
/-- The DMA and FIRE commands of a core's layer, in order (R224, R235; R236 items 2 and 3). The streams stand in the order of their
DSTARTs: a DTILE acts on the oldest tile of its slot. -/
def dmaReplay (ds : List Desc) : List (Nat × Open) → List (Nat × CmdWord) → Bool
  | m, [] => m.all (fun e => !takesTiles e.2.desc || e.2.tiles == dTiles e.2.desc)
  | m, e :: rest =>
    match e.2 with
    | .dma w =>
      let slot := bits w 10 8
      if bits w 3 0 = 1 then
        match ds[bits w 19 11]? with
        | none => false
        | some d => (dKind d != 3 || scanPair ds (bits w 19 11) d) &&
            m.all (fun o => o.1 != slot || (dKind o.2.desc != 2 && o.2.mayEnd)) && dmaReplay ds (m ++ [(slot, ⟨d, 0⟩)]) rest
      else if bits w 3 0 = 2 then
        match m.find? (fun o => o.1 == slot && takesTiles o.2.desc && Nat.blt o.2.tiles (dTiles o.2.desc)) with
        | none => false
        | some o => dmaReplay ds (m.map (fun p => if p == o then (p.1, { p.2 with tiles := p.2.tiles + 1 }) else p)) rest
      else dmaReplay ds m rest
    | .steer w =>
      (bits w 4 0 != 6 || m.any (fun o => dKind o.2.desc == 2 && dEndpoint o.2.desc == bits w 16 13)) && dmaReplay ds m rest
    | _ => dmaReplay ds m rest
/-- Whether a compressing WRITE stores its panel in the dense form under a mask (R241). -/
def fallsBack (d : Desc) (mask : Nat) : Bool := (storedPanel d mask []).2.2
/-- The masks of a compressing WRITE that the image holds: at most 2 of 4 in S24, at most 1 of 4 in S14, no bit beyond the panel
(R237), and no fallback panel beyond the limits of R117 (R241). -/
def masksOk (img : Image) (d : Desc) : Bool :=
  let (rows, kc) := panelShape d
  let n := rows * kc
  let most := if dSparse d = 1 then 2 else 1
  dKind d != 1 || dSparse d == 0 || (List.range (dTiles d)).all (fun p =>
    let mask := maskOf img d p
    let bitAt (i : Nat) : Bool := mask / 2 ^ i % 2 == 1
    (Nat.ble 3 (dSparse d) || (List.range (n / 4)).all (fun g =>
      Nat.ble ((List.range 4).filter (fun j => bitAt (4 * g + j))).length most)) &&
    (if dSparse d = 3 then (List.range 4096).all (fun b => !bitAt b || (Nat.blt (b / 64) (rows / 16) && Nat.blt (b % 64) (kc / 16)))
     else (List.range (4096 * maskBlocks d - n)).all (fun j => !bitAt (n + j))) &&
    (bit d 36 || !fallsBack d mask || (panelFits (dTileBytes d, slotScales d) && Nat.ble kc 1023)))
/-- The stream checks of a step (R225, R235 to R237). -/
def descsOk (img : Image) (x : StepSched) : Bool :=
  x.lists.all (fun l => listOk x l && l.descs.all (masksOk img)) &&
  (schedCores x).all (fun c => (List.range x.layers.length).all (fun i => dmaReplay (descsOf x c i) [] (schedOccs x c i)))
/-- Whether a descriptor's bonded blocks lie in the space (R171). -/
def descInSpace (split : Bool) (d : Desc) : Bool :=
  let first (t : Nat) : Int := if dSparse d ≠ 0 then Int.ofNat (dBase d) + dOffset d (t * dTileRuns d)
    else Int.ofNat (dRunPos d t).2 + (dRunPos d t).1 / Int.ofNat (blockUnit d) * 512
  let top := Int.ofNat (bondedTop split)
  !(dKind d == 0 || dKind d == 1 || dKind d == 3) ||
  ((List.range (dVisits d)).all (fun t => decide (0 ≤ first t) && decide (first t + Int.ofNat (512 * dRunBlocks d t) ≤ top)) &&
    (dKind d != 1 || dSparse d == 0 || Nat.ble (dMaskBase d + 512 * maskBlocks d * dTiles d) (bondedTop split)))

/-! ### Buses (R260 to R262) -/

/-- A bus binding entry is well formed (Table 9.4). -/
def busOk (split : Bool) (foot : Byte) (b : BindRec) : Bool :=
  let top := if bit b.raw 4 then 5 else if split then 3 else 7
  bits b.raw 3 0 == 1 && bits b.raw 7 6 == 0 && bits b.raw 15 13 == 0 && bits b.raw 39 38 == 0 && bits b.raw 63 56 == 0 &&
  bits b.raw 255 149 == 0 && Nat.ble (bits b.raw 34 32) (bits b.raw 37 35) && Nat.ble (bits b.raw 37 35) top &&
  Nat.ble (bits b.raw 12 8 + 1) (bits b.raw 55 40) && bits b.raw 144 128 % 128 == 0 &&
  (!bit b.raw 5 || bits b.raw 127 96 == b.core) &&
  inSections foot (bits b.raw 144 128) (busBytes b.raw * (bits b.raw 148 145 + 1))
/-- The place of a core along a bus: its cluster column or row. -/
def busPlace (b : BindRec) (core : Nat) : Nat := if bit b.raw 4 then coreY core / 136 else coreX core / 104
/-- Whether a core lies on the bus that a writer feeds, within the span. -/
def onSpan (b : BindRec) (writer core : Nat) : Bool :=
  (if bit b.raw 4 then coreX core == coreX writer else coreY core == coreY writer) &&
  Nat.ble (bits b.raw 34 32) (busPlace b core) && Nat.ble (busPlace b core) (bits b.raw 37 35)
/-- A listener lies on the span and has a write entry at its writer with the same blocks (R262). -/
def listensOk (bs : List BindRec) (b : BindRec) : Bool :=
  onSpan b (bits b.raw 127 96) b.core && (bit b.raw 5 || bs.any (fun c => bit c.raw 5 && c.core == bits b.raw 127 96 &&
    bit c.raw 4 == bit b.raw 4 && bits c.raw 39 32 == bits b.raw 39 32 && bits c.raw 31 16 == bits b.raw 31 16 &&
    bits c.raw 12 8 == bits b.raw 12 8 && bits c.raw 55 40 == bits b.raw 55 40 && bits c.raw 95 64 == bits b.raw 95 64))
/-- The separation of two writers along a bus: 12 + j + b + 5s (R260). -/
def busGap (split : Bool) (b : BindRec) (p q : Nat) : Nat :=
  12 + hopsOf p q + ((busPlace b p - busPlace b q) + (busPlace b q - busPlace b p)) +
  5 * (if bit b.raw 4 then 0 else seamHops split p q)
/-- The first and last data beats of a write entry's blocks. -/
def busWords (b : BindRec) : List (Nat × Nat) :=
  (List.range (bits b.raw 31 16 + 1)).map (fun i =>
    let t := bits b.raw 95 64 + i * bits b.raw 55 40
    (t, t + bits b.raw 12 8))
/-- Two write entries whose spans share a segment keep apart (R260). -/
def busPair (split : Bool) (a b : BindRec) : Bool :=
  let share := bit a.raw 5 && bit b.raw 5 && bit a.raw 4 == bit b.raw 4 &&
    (if bit a.raw 4 then coreX a.core == coreX b.core else coreY a.core == coreY b.core) &&
    Nat.ble (bits a.raw 34 32) (bits b.raw 37 35) && Nat.ble (bits b.raw 34 32) (bits a.raw 37 35)
  let gap := busGap split a a.core b.core
  !share || (busWords a).all (fun u => (busWords b).all (fun v => Nat.ble (u.2 + gap) v.1 || Nat.ble (v.2 + gap) u.1))
/-- A ring slot of a listener is not read from the first word's budgeted beat of a block to the last's: reads are beat, address,
bytes (R262). -/
def busReads (split : Bool) (reads : List (Nat × Nat × Nat)) (b : BindRec) : Bool :=
  let gap := busGap split b (bits b.raw 127 96) b.core
  bit b.raw 5 || (busWords b).zipIdx.all (fun (w, i) => reads.all (fun r =>
    !overlaps r.2.1 r.2.2 (busSlot b.raw i) (busBytes b.raw) || Nat.blt r.1 (w.1 + gap) || Nat.blt (w.2 + gap) r.1))
/-- The bus checks of a layer. -/
def busesOk (split : Bool) (x : StepSched) (i : Nat) : Bool :=
  let bs := layerBinds x i true
  bs.all (fun b => busOk split (schedMask x b.core).footprint b && listensOk bs b &&
    Nat.ble (bs.filter (fun c => c.core == b.core)).length 4) &&
  allPairs (busPair split) bs

/-! ### Courses (R267, R269) -/

/-- The router commands of a core over a step, with their beats in the step. -/
def routerOccs (x : StepSched) (core : Nat) : List (Nat × BitVec 64) :=
  (List.range x.layers.length).flatMap (fun i => (schedOccs x core i).filterMap (fun e => match e.2 with
    | .router w => some (layerBase x i + e.1, w)
    | _ => none))
/-- The ARRIVEs of a member at a host's course, in order: beat and order. -/
def arrivesAt (x : StepSched) (member host k : Nat) : List (Nat × Bool) :=
  (routerOccs x member).filterMap (fun e =>
    if bits e.2 3 0 = 1 ∧ bit e.2 8 = false ∧ bits e.2 14 9 = k ∧ routerTarget e.2 = host then some (e.1, bit e.2 21) else none)
/-- The members of a host's course with their indices, as the commands name them. -/
def courseMembers (x : StepSched) (host k : Nat) : List (Nat × Nat) :=
  ((schedCores x).flatMap (fun c => (routerOccs x c).filterMap (fun e =>
    if bits e.2 3 0 = 1 ∧ bit e.2 8 = false ∧ bits e.2 14 9 = k ∧ routerTarget e.2 = host then some (bits e.2 27 22, c) else none))).eraseDups
/-- The beat after the last budgeted arrival of a generation of a course (R267). -/
def lastArrival (split : Bool) (x : StepSched) (host k g : Nat) : Nat :=
  ((courseMembers x host k).map (fun m => match (arrivesAt x m.2 host k)[g]? with
    | some a => a.1 + hopBeats split 6 m.2 host
    | none => 0)).foldl max 0 + 1
/-- The budgeted beat of a generation's release at a member (R267). -/
def releaseBeat (split : Bool) (x : StepSched) (host k g : Nat) (m : Nat × Nat) : Nat :=
  lastArrival split x host k g + m.1 + hopBeats split 4 host m.2
/-- A member's next ARRIVE comes no earlier than its release from the generation before (R267). -/
def courseOk (split : Bool) (x : StepSched) (host k : Nat) : Bool :=
  (courseMembers x host k).all (fun m =>
    ((arrivesAt x m.2 host k).drop 1).zipIdx.all (fun (a, g) => Nat.ble (releaseBeat split x host k g m) a.1))
/-- A core never awaits two courses of one number at a time: open holds the courses arrived at and not yet awaited. -/
def oneAwait : List (Nat × Nat) → List (Nat × BitVec 64) → Bool
  | _, [] => true
  | open_, e :: rest =>
    let k := bits e.2 14 9
    if bit e.2 8 then oneAwait open_ rest
    else if bits e.2 3 0 = 1 then
      open_.all (fun o => o.1 != k || o.2 == routerTarget e.2) && oneAwait ((k, routerTarget e.2) :: open_) rest
    else if bits e.2 3 0 = 2 then oneAwait (open_.filter (fun o => o.1 != k)) rest
    else oneAwait open_ rest
/-- The wafer courses of a step: each AWAIT that is no external wait point is budgeted late enough (R269). -/
def waferOk (x : StepSched) (k : Nat) : Bool :=
  let at_ (c op : Nat) : List (Nat × Bool) := (routerOccs x c).filterMap (fun e =>
    if bits e.2 3 0 = op ∧ bit e.2 8 = true ∧ bits e.2 14 9 = k then some (e.1, bit e.2 15) else none)
  let parts := (schedCores x).filter (fun c => !(at_ c 1).isEmpty)
  let far := (parts.flatMap (fun a => parts.map (fun b => hopsOf a b))).foldl max 0
  let both := parts.any (fun c => Nat.blt (coreX c) 416) && parts.any (fun c => Nat.ble 416 (coreX c))
  (schedCores x).all (fun c => (at_ c 2).zipIdx.all (fun (a, g) =>
    let last := (parts.map (fun p => ((at_ p 1).getD g (0, false)).1)).foldl max 0
    a.2 || Nat.ble (last + (if both then 36 else 24) + far) a.1))
/-- The course checks of a step. -/
def coursesOk (split : Bool) (img : Image) (x : StepSched) : Bool :=
  img.courses.all (fun e => courseOk split x e.1 e.2.1) && (schedCores x).all (fun c => oneAwait [] (routerOccs x c)) &&
  img.waferCourses.all (fun e => waferOk x e.1)

/-! ### Link occupancy (R253) -/

/-- A scheduled packet as it is budgeted: from, to, order, flits, and the beat in which its first flit is accepted. -/
structure Budgeted where
  src : Nat
  dest : Nat
  order : Bool
  flits : Nat
  beat : Nat
deriving DecidableEq, Repr
/-- The next link of a route: X first, or Y first (R251). -/
def nextLink (order : Bool) (c dest : Nat) : Option Nat :=
  let alongX := if coreX c < coreX dest then some 1 else if coreX dest < coreX c then some 3 else none
  let alongY := if coreY c < coreY dest then some 2 else if coreY dest < coreY c then some 0 else none
  if order then alongY <|> alongX else alongX <|> alongY
/-- The links that a packet uses with the beat of its first flit on each: core, link, beat; f bounds the hops. -/
def linkUses (split order : Bool) (dest : Nat) : Nat → Nat → Nat → List (Nat × Nat × Nat)
  | 0, _, _ => []
  | f + 1, c, beat =>
    match nextLink order c dest with
    | none => []
    | some l => match linkTo split c l with
      | none => [(c, l, beat)]
      | some n => (c, l, beat) :: linkUses split order dest f n (beat + (if seamHops split c n = 1 then 6 else 2))
/-- The links of a budgeted packet. -/
def Budgeted.uses (split : Bool) (p : Budgeted) : List (Nat × Nat × Nat) :=
  linkUses split p.order p.dest (hopsOf p.src p.dest) p.src p.beat
/-- Two packets that use no link in one beat. -/
def apart (split : Bool) (p q : Budgeted) : Bool :=
  (p.uses split).all (fun a => (q.uses split).all (fun b =>
    !(a.1 == b.1 && a.2.1 == b.2.1 && overlaps a.2.2 p.flits b.2.2 q.flits)))
/-- The blocks, tokens, credits and pairing credits of a layer's bindings (R193, R194, R204, R208). The router accepts a TAKE's two
pairing credits in the TAKE's beat; where both leave on one link, the second takes it in the next beat (log 33). -/
def bindPackets (x : StepSched) (i : Nat) (b : BindRec) : List Budgeted :=
  let o := orderWord x b.core i
  let ep := bindEp b
  let at_ (op : Nat) : List Nat := (steerBeats x b.core i op ep).map (· + layerBase x i)
  match bindKind b with
  | 0 => (at_ 6).flatMap (fun f => (List.range (bindPer b)).map (fun n =>
      ⟨b.core, bindPeer b, o.getLsbD ep, bindFlits b, f + n * bindFlits b⟩))
  | 1 => (at_ 7).map (fun f => ⟨b.core, bindPeer b, o.getLsbD (16 + ep), 1, f⟩) ++
      (if bindGoverned b then (at_ 8).flatMap (fun f =>
        let r := o.getLsbD (16 + ep)
        let one := nextLink r b.core (bindPeer b) == nextLink r b.core (bindTokenPeer b)
        [⟨b.core, bindPeer b, r, 1, f⟩, ⟨b.core, bindTokenPeer b, r, 1, if one then f + 1 else f⟩]) else [])
  | _ => (at_ 9).map (fun f => ⟨b.core, bindPeer b, o.getLsbD ep, 1, f⟩)
/-- The course and tally messages that a core sends (R267, R271). -/
def messagePackets (x : StepSched) (core : Nat) : List Budgeted :=
  (routerOccs x core).filterMap (fun e =>
    if (bits e.2 3 0 = 1 ∧ bit e.2 8 = false) ∨ (bits e.2 3 0 = 3 ∧ bit e.2 28 = true)
    then some ⟨core, routerTarget e.2, bit e.2 21, 1, e.1⟩ else none)
/-- The release messages of a host's course (R267). -/
def releasePackets (split : Bool) (x : StepSched) (host k : Nat) : List Budgeted :=
  (courseMembers x host k).flatMap (fun m => (arrivesAt x m.2 host k).zipIdx.map (fun (a, g) =>
    ⟨host, m.2, a.2, 1, lastArrival split x host k g + m.1⟩))
/-- A core's router sends at most one course or tally message in a beat, its releases as a host among them (R265). -/
def oneMessage (split : Bool) (img : Image) (x : StepSched) (core : Nat) : Bool :=
  let own := (routerOccs x core).filterMap (fun e =>
    if bits e.2 3 0 = 1 ∨ (bits e.2 3 0 = 3 ∧ bit e.2 28 = true) then some e.1 else none)
  let releases := (img.courses.filter (fun e => e.1 == core)).flatMap (fun e => (releasePackets split x core e.2.1).map (·.beat))
  allPairs (fun a b => a != b) (own ++ releases)
/-- The packets of a step, but for the traffic of the memory channels. -/
def stepPackets (split : Bool) (img : Image) (x : StepSched) : List Budgeted :=
  (x.binds.filter (fun b => !b.bus)).flatMap (fun b => bindPackets x b.layer b) ++ (schedCores x).flatMap (messagePackets x) ++
  img.courses.flatMap (fun e => releasePackets split x e.1 e.2.1)

end Sys2Proof.Machine
end

