-- ==== Sys2Proof/Machine/LoadReplay.lean ====
section
/-!
DEFINITION. The replay of a layer's DMA turns and of the traffic of the memory channels at the budgeted beats (R221 to R223, R229
to R232, R235, R236 item 7, R253, R262), which PROGRAM_LOAD makes. Blocks of EXT streams, whose beats are external wait points
(R62, R234), and reads of masks, whose beats no rule gives, are not in it (log 34).
-/

namespace Sys2Proof.Machine

/-! ### Blocks and requests (R230) -/

/-- A block of a stream as it is budgeted: its core, the place of its stream among the layer's, the half of a PRESCAN pair, its
place in the visiting order, the tile that it belongs to, its global block, the allocate hint, its ORDER, and the beat of its
issue, n where it never issues in the layer. -/
structure Asked where
  core : Nat
  stream : Nat
  half : Bool
  cur : Cursor
  tile : Nat
  block : Nat
  alloc : Bool
  order : Bool
  issue : Nat
deriving DecidableEq, Repr
/-- The channel of a budgeted block (R171). -/
def Asked.chan (a : Asked) : Nat := blockChan a.block
/-- The blocks of a descriptor in visiting order. -/
def visitBlocks (d : Desc) : List Cursor :=
  (List.range (dVisits d)).flatMap (fun t => (List.range (dRunBlocks d t)).map (fun b => { run := t, blk := b }))
/-- The kept values of panel p of a compressing WRITE, by the mask that the image holds (R237). -/
def keptOf (img : Image) (d : Desc) (p : Nat) : Nat := (keptValues d (maskOf img d p) (fun _ _ => 0)).length
/-- The blocks of a VALUES_ONLY write, each with the tile that fills it (R241). -/
def valueBlocks (img : Image) (d : Desc) : List (Cursor × Nat) :=
  let bitsTo (j : Nat) : Nat := ((List.range j).map (keptOf img d)).sum * fmtBits (dFmt d)
  (List.range (ceilDiv (bitsTo (dTiles d)) 4096)).map (fun b =>
    ({ run := 0, blk := b }, ((List.range (dTiles d)).find? (fun j => Nat.ble (4096 * (b + 1)) (bitsTo (j + 1)))).getD (dTiles d - 1)))
/-- The blocks of one half of a stream with their tiles, in the order of their issue. -/
def streamBlocks (img : Image) (m : Stream) (half : Bool) : List (Cursor × Nat) :=
  let d := if half then m.pair else m.desc
  if dKind m.desc = 3 then (if dMx d then (visitBlocks d).map (fun c => (c, 0)) else [])
  else if half then []
  else if dKind d = 0 ∨ dKind d = 1 then
    (if dValuesOnly d then valueBlocks img d else (visitBlocks d).map (fun c => (c, c.tile d)))
  else []
/-- The bonded address of a block of a stream. -/
def blockAddr (d : Desc) (c : Cursor) : Nat := if dValuesOnly d then dBase d + 512 * c.blk else dBlockAddr d c.run c.blk
/-- The blocks that a core's stream moves, each at issue(b) (R230). -/
def askedBy (split : Bool) (img : Image) (x : StepSched) (core i k : Nat) (m : Stream) : List Asked :=
  [false, true].flatMap (fun half =>
    let d := if half then m.pair else m.desc
    (streamBlocks img m half).zipIdx.map (fun (e, b) =>
      let gate := match ({ desc := m.desc, start := m.start, released := m.tiles } : DmaSlot).gate e.2 with
        | some g => g
        | none => layerBeats x i
      { core := core, stream := k, half := half, cur := e.1, tile := e.2,
        block := globalAddr split 0 (blockAddr d e.1) / 512, alloc := bit d 15, order := (orderWord x core i).getLsbD (32 + m.slot),
        issue := max (m.start + 4 * dIssueSlots d * b) gate }))
/-- A stream among the streams of a core's layer. -/
def streamAt (ms : List Stream) (k : Nat) : Stream := ms.getD k ⟨0, 0, 0, 0, 0, []⟩
/-- Every block that a layer's streams move, in order of the cores. -/
def layerAsked (split : Bool) (img : Image) (x : StepSched) (i : Nat) : List Asked :=
  (schedCores x).flatMap (fun c => (layerStreams x c i).zipIdx.flatMap (fun (m, k) => askedBy split img x c i k m))
/-- Whether a budgeted block is read. -/
def Asked.reads (x : StepSched) (i : Nat) (a : Asked) : Bool := dKind (streamAt (layerStreams x a.core i) a.stream).desc != 1

/-! ### Channels (R176) -/

/-- The beats of a route between a core and the attach core of a channel. -/
def chanHop (split : Bool) (core chan : Nat) : Nat := hopBeats split 6 core (attachCore chan)
/-- A read with the beat at which its channel accepts it. -/
structure Accepted where
  ask : Asked
  beat : Nat
deriving DecidableEq, Repr
/-- The slot in which a request reaches its channel, and the link on which it comes (R183). -/
def Asked.reaches (split : Bool) (a : Asked) : Nat × Nat :=
  (ceilDiv (a.issue + chanHop split a.core a.chan) 4, arrivalLink a.order a.core (attachCore a.chan))
/-- Inserts a read by its slot and its link, after those of the same slot and link. -/
def insertRead (split : Bool) (a : Asked) : List Asked → List Asked
  | [] => [a]
  | b :: bs =>
    let (s, l) := a.reaches split
    let (s', l') := b.reaches split
    if s < s' ∨ (s = s' ∧ l < l') then a :: b :: bs else b :: insertRead split a bs
/-- A channel accepts one read in each slot, at its phase-0 beat, in the order in which they come (R176, R183); next is the first
slot that is free, dram the slots of its reads of DRAM, the newest first: a miss waits for a slot in which at most two of the
three slots before have one. The reuse cache starts the layer empty (R182). -/
def acceptReads (split : Bool) : Nat → List Nat → Chan → List Asked → List Accepted
  | _, _, _, [] => []
  | next, dram, x, a :: rest =>
    let n := max (a.reaches split).1 next
    match x.lookup a.block with
    | some b => ⟨a, 4 * n⟩ :: acceptReads split (n + 1) dram (x.touch a.block b) rest
    | none =>
      let m := match dram[2]? with
        | some d => max n (d + 4)
        | none => n
      ⟨a, 4 * m⟩ :: acceptReads split (m + 1) ((m :: dram).take 3)
        (if a.alloc then x.place a.block { data := [], crc := 0, tag := 0 } else x) rest
/-- The reads of a layer with the beats at which their channels accept them. -/
def layerReads (split : Bool) (img : Image) (x : StepSched) (i : Nat) : List Accepted :=
  let rs := (layerAsked split img x i).filter (fun a => a.reads x i)
  ((rs.map (·.chan)).eraseDups).flatMap (fun c =>
    acceptReads split 0 [] {} ((rs.filter (fun a => a.chan == c)).foldl (fun m a => insertRead split a m) []))
/-- The beat at which the first flit of a read's block reaches its core (R176, R255). -/
def Accepted.first (split : Bool) (r : Accepted) : Nat := r.beat + 160 + chanHop split r.ask.core r.ask.chan

/-! ### The staging buffer (R221 to R223) -/

/-- A row that waits in the staging buffer for its turn: the beat of its last flit, its rank among rows of the same beat (stream
slots, then receive endpoints, then bus blocks), and a key that names it. -/
structure StagedRow where
  ready : Nat
  rank : Nat
  key : Nat × Nat × Nat
deriving DecidableEq, Repr
/-- Bytes that the staging buffer holds from a beat on, until the rows that they belong to have moved; none: until the end of the
layer. -/
structure Held where
  beat : Nat
  bytes : Nat
  keys : List (Nat × Nat × Nat)
  keep : Bool := false
deriving DecidableEq, Repr
/-- Where the bytes of a READ's block go in the slot of its tile: offset in the slot, bytes, offset in the block (R228, R229). -/
def readParts (d : Desc) (c : Cursor) : List (Nat × Nat × Nat) :=
  if dSparse d ≠ 0 then [(512 * c.blk, 512, 0)]
  else
    let (_, off, n, inBlk) := dBlock d c.run c.blk
    let a := c.run % dTileRuns d * dRun d + off
    let g := 4 * fmtBits (dFmt d)
    if dMx d then [(a, n, inBlk), (slotData d + a / g, (a + n + g - 1) / g - a / g, 480 + inBlk / g)] else [(a, n, inBlk)]
/-- The rows of its tile's slot to which flit m of a READ's block brings bytes; every row of a tile that is transposed. -/
def flitRows (d : Desc) (c : Cursor) (m : Nat) : List Nat :=
  let parts := (readParts d c).filter (fun p => Nat.blt p.2.2 (32 * m + 32) && Nat.blt (32 * m) (p.2.2 + p.2.1))
  if bit d 35 then (if parts.isEmpty then [] else List.range (slotSize d / 128))
  else (parts.flatMap (fun p =>
    let lo := p.1 + (max (32 * m) p.2.2 - p.2.2)
    let hi := p.1 + (min (32 * m + 32) (p.2.2 + p.2.1) - p.2.2)
    (List.range (ceilDiv hi 128 - lo / 128)).map (fun r => lo / 128 + r))).eraseDups
/-- The flits that a READ stream's blocks bring: tile, beat, rows. -/
def readFlits (split : Bool) (d : Desc) (rs : List Accepted) : List (Nat × Nat × List Nat) :=
  rs.flatMap (fun (r : Accepted) => (List.range 16).map (fun f => (r.ask.tile, r.first split + f, flitRows d r.ask.cur f)))
/-- What stream k of a core's layer brings to the staging buffer: the flits of its blocks, and the rows of its tiles; a row of padding
or of tensor scales alone is due with its tile's last flit (R229). A block that a pre-scan reads is held when it is whole. -/
def readStaging (split : Bool) (k : Nat) (m : Stream) (rs : List Accepted) : List StagedRow × List Held :=
  let flits : List (Nat × Nat × List Nat) := if dKind m.desc = 0 then readFlits split m.desc rs else []
  let pieces (j : Nat) : List StagedRow :=
    let mine := flits.filter (fun f => f.1 == j)
    (List.range (slotSize m.desc / 128)).map (fun row =>
      let own := mine.filter (fun f => f.2.2.contains row)
      { ready := ((if own.isEmpty then mine else own).map (fun f => f.2.1)).foldl max 0, rank := m.slot, key := (k, j, row) })
  ((flits.map (fun f => f.1)).eraseDups.flatMap pieces,
   (flits.filter (fun f => !f.2.2.isEmpty)).map (fun f => { beat := f.2.1, bytes := 32, keys := f.2.2.map (fun r => (k, f.1, r)) }) ++
   (if dKind m.desc = 3 then rs.map (fun (r : Accepted) => { beat := r.first split + 15, bytes := 512, keys := [] }) else []))
/-- What the blocks of a receive endpoint bring to the staging buffer. A line that holds bytes of two receive slots is written with
the later one; one that runs beyond the last slot, or whose second slot receives nothing more, waits for the end of the layer
(R223). -/
def recvStaging (split : Bool) (x : StepSched) (i : Nat) (b : BindRec) : List StagedRow × List Held :=
  let n := bindFlits b
  let fires := steerBeats x (bindPeer b) i 6 (bindPeerEp b)
  let total := fires.length * bindPer b
  let hop := hopBeats split 6 (bindPeer b) b.core
  let flits := fires.zipIdx.flatMap (fun (f, j) => (List.range (bindPer b)).flatMap (fun k => (List.range n).map (fun m =>
    let q := j * bindPer b + k
    let a := bindBuf b + q % max 1 (bindDepth b) * (32 * n) + 32 * m
    let shared := m + 1 == n && a % 64 == 0
    let lastSlot := q % max 1 (bindDepth b) + 1 == bindDepth b
    let keep := shared && (lastSlot || q + 1 == total)
    (f + k * n + m + hop, (32 + bindEp b, if shared then q + 1 else q, a / 128), keep, lastSlot && Nat.ble (bindDepth b) q))))
  let moved := flits.filter (fun f => !f.2.2.1)
  (((moved.map (·.2.1)).eraseDups).map (fun key =>
      { ready := ((moved.filter (fun f => f.2.1 == key)).map (·.1)).foldl max 0, rank := 8 + bindEp b, key := key }),
    flits.filterMap (fun f => if f.2.2.1 && f.2.2.2 then none
      else some { beat := f.1, bytes := 32, keys := [f.2.1], keep := f.2.2.1 }))
/-- What the bus blocks of a listener bring to the staging buffer, row by row (R262). -/
def busStaging (split : Bool) (e : Nat) (b : BindRec) : List StagedRow × List Held :=
  let gap := busGap split b (bits b.raw 127 96) b.core
  let words := (busWords b).zipIdx.flatMap (fun (w, i) => (List.range (bits b.raw 12 8 + 1)).map (fun k =>
    (w.1 + k + gap, (64 + e, i, (busSlot b.raw i + 16 * k) / 128))))
  (((words.map (·.2)).eraseDups).map (fun key =>
      { ready := ((words.filter (fun w => w.2 == key)).map (·.1)).foldl max 0, rank := 24 + e, key := key }),
    words.map (fun w => { beat := w.1, bytes := 16, keys := [w.2] }))

/-! ### DMA turns (R221 items 3 and 4) -/

/-- A row of an outgoing block: its stream slot, the stream among the layer's, its block, and the first beat of its turn. -/
structure OutRow where
  slot : Nat
  stream : Nat
  blk : Nat
  row : Nat
  issue : Nat
deriving DecidableEq, Repr
/-- The rows of the WRITE blocks of a core's layer, four to a block, in order of their issue. -/
def outRows (ms : List Stream) (as_ : List Asked) : List OutRow :=
  ms.zipIdx.flatMap (fun (m, k) => if dKind m.desc = 1 then
      (as_.filter (fun a => a.stream == k)).zipIdx.flatMap (fun (a, b) => (List.range 4).map (fun r => ⟨m.slot, k, b, r, a.issue⟩))
    else [])
/-- The staged row that a turn moves: the one whose last flit came first, ties by rank. -/
def duePiece (t : Nat) (ps : List StagedRow) : Option StagedRow :=
  (ps.filter (fun p => Nat.blt p.ready t)).foldl (fun best p => match best with
    | none => some p
    | some q => if p.ready < q.ready ∨ (p.ready = q.ready ∧ p.rank < q.rank) then some p else best) none
/-- The outgoing row that a turn reads: the first of the lowest slot whose next block has issued. -/
def dueRow (t : Nat) (rows : List OutRow) : Option OutRow :=
  let heads := rows.foldl (fun (m : List OutRow) r => if m.any (fun q => q.stream == r.stream) then m else m ++ [r]) []
  (heads.filter (fun r => Nat.ble r.issue t)).foldl (fun best r => match best with
    | none => some r
    | some q => if r.slot < q.slot then some r else best) none
/-- The turns that are left after SEND rows and burst fetches, each with what it does: the staged rows moved and the outgoing rows
read, with their turns. -/
def runTurns : List Nat → List StagedRow → List OutRow → List (Nat × StagedRow) × List (Nat × OutRow)
  | [], _, _ => ([], [])
  | t :: ts, ps, rows =>
    match duePiece t ps with
    | some p =>
      let (a, b) := runTurns ts (ps.filter (· != p)) rows
      ((t, p) :: a, b)
    | none => match dueRow t rows with
      | some r =>
        let (a, b) := runTurns ts ps (rows.filter (· != r))
        (a, (t, r) :: b)
      | none => runTurns ts ps rows
/-- The turns that burst fetches take, those of each DSTART that found its burst not held, with the address of the row read. -/
def fetchRows (x : StepSched) (core i : Nat) : List (Nat × Nat) :=
  let busy := sendTurns x core i
  let list := match x.lists.find? (fun l => l.core == core && l.layer == i) with
    | some l => l.addr
    | none => 0
  ((layerStreams x core i).zip (layerStarts x core i)).flatMap (fun (m, e) =>
    if m.start = m.asked then []
    else (((layerTurns (layerBeats x i)).filter (fun t => Nat.blt t m.start && !busy.contains t)).reverse.take 4).reverse.zipIdx.map
      (fun (t, k) => (t, list + 512 * (e.2.2 / 8) + 128 * k)))
/-- The turns that burst fetches take. -/
def fetchTurns (x : StepSched) (core i : Nat) : List Nat := (fetchRows x core i).map (·.1)

/-- The replay of a core's layer: its streams, the reads that come to it, its writes, the rows moved and read with their turns, and
what its staging buffer holds. -/
structure CoreReplay where
  streams : List Stream
  reads : List Accepted
  writes : List Asked
  moved : List (Nat × StagedRow)
  read : List (Nat × OutRow)
  held : List Held
/-- The replay of a core's layer. -/
def coreReplay (split : Bool) (img : Image) (x : StepSched) (i : Nat) (rs : List Accepted) (core : Nat) : CoreReplay :=
  let ms := layerStreams x core i
  let mine := rs.filter (fun r => r.ask.core == core)
  let ws := ms.zipIdx.flatMap (fun (m, k) => if dKind m.desc = 1 then askedBy split img x core i k m else [])
  let parts := ms.zipIdx.map (fun (m, k) => readStaging split k m (mine.filter (fun r => r.ask.stream == k))) ++
    ((layerBinds x i false).filter (fun b => b.core == core && bindKind b == 1)).map (recvStaging split x i) ++
    ((layerBinds x i true).filter (fun b => b.core == core && !bit b.raw 5)).zipIdx.map (fun (b, e) => busStaging split e b)
  let busy := sendTurns x core i ++ fetchTurns x core i
  let turns := (layerTurns (layerBeats x i)).filter (fun t => !busy.contains t)
  let (moved, read) := runTurns turns (parts.flatMap (·.1)) (outRows ms ws)
  { streams := ms, reads := mine, writes := ws, moved := moved, read := read, held := parts.flatMap (·.2) }
/-- The turn in which row r of block b of a WRITE is read, n where the layer has none. -/
def CoreReplay.rowTurn (c : CoreReplay) (n stream blk row : Nat) : Nat :=
  match c.read.find? (fun e => e.2.stream == stream && e.2.blk == blk && e.2.row == row) with
  | some e => e.1
  | none => n
/-- The beat at which the first of the 16 flits of a WRITE's block leaves: each flit follows the read of its row, and they leave one
in each beat (R235). -/
def CoreReplay.sendBeat (c : CoreReplay) (n stream blk : Nat) : Nat :=
  ((List.range 4).map (fun r => c.rowTurn n stream blk r + 1 - 4 * r)).foldl max 0
/-- The beat at which the acknowledgement of a WRITE's block leaves its channel (R176). -/
def CoreReplay.ackBeat (split : Bool) (c : CoreReplay) (n : Nat) (a : Asked) (blk : Nat) : Nat :=
  c.sendBeat n a.stream blk + 15 + chanHop split a.core a.chan + 48
/-- The blocks of a WRITE stream with their numbers. -/
def CoreReplay.blocks (c : CoreReplay) (stream : Nat) : List (Asked × Nat) := (c.writes.filter (fun a => a.stream == stream)).zipIdx
/-- The bytes that the staging buffer holds at a beat: flits of rows not yet moved, rows of SEND firings and of WRITE blocks until
their last flit has left. -/
def CoreReplay.staged (c : CoreReplay) (rows : List SendRow) (n t : Nat) : Nat :=
  ((c.held.filter (fun h => Nat.ble h.beat t && (h.keep || (if h.keys.isEmpty then h.beat == t
      else h.keys.any (fun k => match c.moved.find? (fun e => e.2.key == k) with
        | some e => Nat.blt t e.1
        | none => true))))).map (·.bytes)).sum +
  128 * (rows.filter (fun r => match r.turn with
    | some u => Nat.ble u t && Nat.blt t r.last
    | none => false)).length +
  128 * (c.read.filter (fun e => Nat.ble e.1 t && Nat.blt t (c.sendBeat n e.2.stream e.2.blk + 4 * e.2.row + 3))).length
/-- The writes of core memory by a core's engines, its receive endpoints and its listeners: beat, address, bytes. -/
def producerWrites (split : Bool) (x : StepSched) (core i : Nat) : List (Nat × Nat × Nat) :=
  engineWrites x core i ++
  ((layerBinds x i false).filter (fun b => b.core == core && bindKind b == 1)).flatMap (fun b =>
    (recvStaging split x i b).1.map (fun p => (p.ready, 128 * p.key.2.2, 128))) ++
  ((layerBinds x i true).filter (fun b => b.core == core && !bit b.raw 5)).zipIdx.flatMap (fun (b, e) =>
    (busStaging split e b).1.map (fun p => (p.ready, 128 * p.key.2.2, 128)))

/-! ### The checks (R235, R236 item 7, R253, R262) -/

/-- No producer writes a ring slot from the DTILE that hands its tile over until the engine has read the tile's last row (R231,
R236 item 7). -/
def CoreReplay.ringsOk (c : CoreReplay) (n : Nat) (ws : List (Nat × Nat × Nat)) : Bool :=
  c.streams.zipIdx.all (fun (m, k) => dKind m.desc != 1 || m.tiles.zipIdx.all (fun (t, j) =>
    let last := ((c.blocks k).filter (fun b => b.1.tile == j)).foldl (fun l b => max l (c.rowTurn n k b.2 3)) t
    ws.all (fun w => Nat.blt w.1 t || Nat.blt last w.1 || !overlaps w.2.1 w.2.2 (slotAddr m.desc j) (slotSize m.desc))))
/-- Before the layer's last beat every read is delivered, every write acknowledged, and every tile acted on (R235). -/
def CoreReplay.doneOk (split : Bool) (c : CoreReplay) (n : Nat) : Bool :=
  c.reads.all (fun r => Nat.blt (r.first split + 15 + 1) n) &&
  c.streams.zipIdx.all (fun (m, k) => m.tiles.all (fun t => Nat.blt (t + 1) n) && (c.blocks k).all (fun b =>
    Nat.blt (c.ackBeat split n b.1 b.2 + chanHop split b.1.core b.1.chan + 1) n))
/-- A DSTART finds its slot's last stream finished: every block delivered, or acknowledged at the core (R224, R236 item 2). -/
def CoreReplay.slotsOk (split : Bool) (c : CoreReplay) (n : Nat) : Bool :=
  c.streams.zipIdx.all (fun (m, k) => match c.streams.find? (fun g => g.slot == m.slot && Nat.blt m.asked g.asked) with
    | none => true
    | some g => Nat.ble m.start g.asked && (c.reads.filter (fun r => r.ask.stream == k)).all (fun r => Nat.blt (r.first split + 15) g.asked) &&
        (c.blocks k).all (fun b => Nat.blt (c.ackBeat split n b.1 b.2 + chanHop split b.1.core b.1.chan) g.asked))
/-- Each SEND row has a turn of its own (R232, R236 item 7). -/
def sendsOk (rows : List SendRow) : Bool := rows.all (fun r => r.turn.isSome) && allPairs (fun a b => a.turn != b.turn) rows
/-- The rows of every firing are read once their SEND stream has started (R225, R232, R236 item 7). -/
def firesOk (x : StepSched) (core i : Nat) (ms : List Stream) : Bool :=
  ((layerBinds x i false).filter (fun b => b.core == core && bindKind b == 0)).all (fun b =>
    (steerBeats x core i 6 (bindEp b)).all (fun f =>
      match (ms.filter (fun m => Nat.ble m.asked f && dKind m.desc == 2 && dEndpoint m.desc == bindEp b)).getLast? with
      | none => false
      | some m => match turnBy (f - 1) with
        | some u => Nat.ble m.start u
        | none => false))
/-- The staging buffer never holds more than 2 KiB (R221, R236 item 7). -/
def CoreReplay.stagingOk (c : CoreReplay) (rows : List SendRow) (n : Nat) : Bool :=
  (List.range n).all (fun t => Nat.ble (c.staged rows n t) 2048)
/-- The router reads the rows of bus blocks one in each of its turns, the latest first: last is the turn after those still free. Each
row comes with the beat of its first word, its address and its bytes, and its turn stands first in the answer; none where a row finds
no turn. -/
def rowsBy : Nat → List (Nat × Nat × Nat) → Option (List (Nat × Nat × Nat))
  | _, [] => some []
  | last, d :: ds =>
    let v := min d.1 last
    if v < 8 then none
    else (rowsBy (v - 1 - (v + 8) % 16) ds).map (fun m => (v - 1 - (v + 8) % 16, d.2) :: m)
/-- Inserts a row into a list whose beats fall. -/
def insertDown (a : Nat × Nat × Nat) : List (Nat × Nat × Nat) → List (Nat × Nat × Nat)
  | [] => [a]
  | b :: bs => if b.1 < a.1 then a :: b :: bs else b :: insertDown a bs
/-- The rows of a writer's bus block i whose first word is due at beat t: beat of the row's first word, address, bytes; a slot may
begin within a row (R262). -/
def busRows (b : BindRec) (i t : Nat) : List (Nat × Nat × Nat) :=
  let a := busSlot b.raw i
  let n := busBytes b.raw
  (List.range ((a + n - 1) / 128 + 1 - a / 128)).map (fun k =>
    let lo := max a (128 * (a / 128 + k))
    (t + (lo - a) / 16, lo, min (a + n) (128 * (a / 128 + k) + 128) - lo))
/-- The rows that a core's router reads in its turns for the bus blocks it writes; none where a word would be placed before its row
has been read (R262, Table 2.1). -/
def routerRows (x : StepSched) (core i : Nat) : Option (List (Nat × Nat × Nat)) :=
  let ws := (layerBinds x i true).filter (fun b => b.core == core && bit b.raw 5)
  let rows := ws.flatMap (fun b => (busWords b).zipIdx.flatMap (fun (w, k) => busRows b k w.1))
  rowsBy ((rows.map (·.1)).foldl max 0) (rows.foldl (fun m a => insertDown a m) [])

/-! ### What the DMA engine and the router read and write (R165, R208, R262) -/

/-- The reads of core memory by a core's DMA engine and router: beat, address, bytes. -/
def CoreReplay.reads' (c : CoreReplay) (x : StepSched) (core i : Nat) : List (Nat × Nat × Nat) :=
  (sendRows x core i).flatMap (fun r => match r.turn with
    | some t => r.flits.map (fun a => (t, a, 32))
    | none => []) ++
  (fetchRows x core i).map (fun r => (r.1, r.2, 128)) ++ ((routerRows x core i).getD []) ++
  c.read.flatMap (fun e =>
    let d := (streamAt c.streams e.2.stream).desc
    match (c.writes.filter (fun a => a.stream == e.2.stream))[e.2.blk]? with
    | none => []
    | some a =>
      if dSparse d ≠ 0 then [(e.1, slotAddr d a.tile, slotSize d)]
      else
        let (_, off, n, _) := dBlock d a.cur.run a.cur.blk
        let lo := a.cur.run % dTileRuns d * dRun d + off
        [(e.1, slotAddr d a.tile + lo + min n (128 * e.2.row), min n (128 * e.2.row + 128) - min n (128 * e.2.row))])
/-- The writes of core memory by a core's READ, PRESCAN and EXT_IN streams: the beat from which the bytes may be read, address,
bytes. An EXT_IN has no budgeted beats, and counts as writing until the end of the layer (R234). -/
def CoreReplay.writes' (split : Bool) (c : CoreReplay) (n : Nat) : List (Nat × Nat × Nat) :=
  c.streams.zipIdx.flatMap (fun (m, k) =>
    let mine := c.reads.filter (fun r => r.ask.stream == k)
    match dKind m.desc with
    | 0 => (readStaging split k m mine).1.map (fun p => (p.ready, slotAddr m.desc p.key.2.1 + 128 * p.key.2.2, 128))
    | 3 => [((mine.map (fun r => r.first split + 16)).foldl max m.start, dCoreAddr m.desc, 64 * (dPsTr m.desc * dPsTc m.desc))]
    | 4 => [(n, dCoreAddr m.desc, dRing m.desc * slotSize m.desc)]
    | _ => [])
/-- A governed firing's slots are read only from the beat after its TAKE on, by any engine (R208). -/
def CoreReplay.takenOk (split : Bool) (c : CoreReplay) (img : Image) (x : StepSched) (core i : Nat) : Bool :=
  let reads := engineReads img x core i ++ c.reads' x core i
  ((layerBinds x i false).filter (fun b => b.core == core && bindGoverned b)).all (fun b =>
    takenFirst b (steerBeats x (bindPeer b) i 6 (bindPeerEp b)) (steerBeats x core i 8 (bindEp b))
      (hopBeats split 6 (bindPeer b) core) reads)
/-- No ring slot of a listener is read while a block arrives in it, by any engine (R262). -/
def CoreReplay.busOk (split : Bool) (c : CoreReplay) (img : Image) (x : StepSched) (core i : Nat) : Bool :=
  let reads := engineReads img x core i ++ c.reads' x core i
  ((layerBinds x i true).filter (fun b => b.core == core)).all (busReads split reads)
/-- The packets of a core's channel traffic in a layer, by the beats of the step: requests, read blocks, written blocks and
acknowledgements (R176, R230, R251). -/
def CoreReplay.packets (split : Bool) (c : CoreReplay) (base n : Nat) : List Budgeted :=
  c.reads.flatMap (fun r =>
    let a := attachCore r.ask.chan
    [⟨r.ask.core, a, r.ask.order, 1, base + r.ask.issue⟩, ⟨a, r.ask.core, !r.ask.order, 16, base + r.beat + 160⟩]) ++
  c.streams.zipIdx.flatMap (fun (_, k) => (c.blocks k).flatMap (fun b =>
    let a := attachCore b.1.chan
    [⟨b.1.core, a, b.1.order, 16, base + c.sendBeat n k b.2⟩,
     ⟨a, b.1.core, !b.1.order, 1, base + c.ackBeat split n b.1 b.2⟩]))
/-- The replays of a layer's cores. -/
def layerReplay (split : Bool) (img : Image) (x : StepSched) (i : Nat) : List (Nat × CoreReplay) :=
  let rs := layerReads split img x i
  (schedCores x).map (fun c => (c, coreReplay split img x i rs c))
/-- The replay of a layer breaks no rule of R236 item 7, R208, R262 and R265. -/
def replayOk (split : Bool) (img : Image) (x : StepSched) (i : Nat) : Bool :=
  let n := layerBeats x i
  (layerReplay split img x i).all (fun (core, c) =>
    let rows := sendRows x core i
    sendsOk rows && firesOk x core i c.streams && c.stagingOk rows n && c.doneOk split n && c.slotsOk split n && c.ringsOk n (producerWrites split x core i) &&
    (routerRows x core i).isSome && c.takenOk split img x core i && c.busOk split img x core i && oneMessage split img x core)
/-- The packets of the memory channels in a step. -/
def chanPackets (split : Bool) (img : Image) (x : StepSched) : List Budgeted :=
  (List.range x.layers.length).flatMap (fun i =>
    (layerReplay split img x i).flatMap (fun e => e.2.packets split (layerBase x i) (layerBeats x i)))
/-- No two scheduled packets of a step use one link direction in one beat (R253). -/
def linksOk (split : Bool) (img : Image) (x : StepSched) : Bool :=
  allPairs (apart split) (stepPackets split img x ++ chanPackets split img x)

end Sys2Proof.Machine
end

