-- ==== Sys2Proof/Machine/SteerCmds.lean ====
section
/-!
DEFINITION. The meanings of the steering commands (Table 7.3) and the router commands (Table 9.6).
-/

namespace Sys2Proof.Machine

/-- SNOP (Table 7.3): nothing. -/
def execSnop (core : Nat) (s : State) : Res := atCore core (.next s)
/-- SET (Table 7.3). -/
def execCtrSet (core : Nat) (ctr : BitVec 4) (imm : BitVec 16) (s : State) : Res :=
  s.actAt core (.ctrSet core ctr imm) (fun x => stSet x ctr.toNat imm)
/-- ADD (Table 7.3, R203). -/
def execCtrAdd (core : Nat) (ctr : BitVec 4) (imm : BitVec 16) (s : State) : Res :=
  s.actAt core (.ctrAdd core ctr imm) (fun x => stAdd x ctr.toNat imm)
/-- TEST (Table 7.3). -/
def execCtrTest (core : Nat) (pred : BitVec 3) (ctr : BitVec 4) (c : Cond) (imm : BitVec 16) (s : State) : Res :=
  s.actAt core (.ctrTest core pred ctr c imm) (fun x => stTest x pred.toNat ctr.toNat c imm)
/-- LOOP (R201, R203). -/
def execLoopCmd (core : Nat) (src : Bool) (ctr : BitVec 4) (imm len : BitVec 16) (s : State) : Res :=
  s.actAt core (.loopCmd core src ctr imm len) (fun x => stLoop x src ctr.toNat imm len)
/-- GATE (R201). -/
def execGate (core : Nat) (pred : BitVec 3) (sense : Bool) (len : BitVec 16) (s : State) : Res :=
  s.actAt core (.gate core pred sense len) (fun x => stGate x pred.toNat sense len)
/-- FIRE (R193). -/
def execFire (core : Nat) (ep : BitVec 4) (s : State) : Res := s.actAt core (.fire core ep) (fun x => stFire x ep.toNat)
/-- CONSUME (R193, R208). -/
def execConsume (core : Nat) (ep : BitVec 4) (s : State) : Res := s.actAt core (.consume core ep) (fun x => stConsume x ep.toNat)

/-- The core before a destination on the route from a sender: ORDER 0 goes along X first, ORDER 1 along Y first
(R251). -/
def lastHopFrom (order : Bool) (src dst : Nat) : Nat :=
  let x := coreX dst
  let y := coreY dst
  let alongY := if coreY src < y then mkCore x (y - 1) else mkCore x (y + 1)
  let alongX := if coreX src < x then mkCore (x - 1) y else mkCore (x + 1) y
  if order then (if coreX src = x then alongY else alongX) else (if coreY src = y then alongX else alongY)

/-- The cause of a wait for data from a sender: the kind of the last hop of its route, 3 for the keystone seam, 2 for a
bypass hop of the repair state, otherwise 1 (Table 2.5); the route's order is SEND_ORDER of the sender (Table 9.2). -/
def State.dataCause (s : State) (peer ep core : Nat) : BitVec 3 :=
  if peer = core then 1
  else
    let from_ := lastHopFrom ((s.core peer).router.order.getLsbD ep) peer core
    let seam := (coreX from_ == 415 && coreX core == 416) || (coreX from_ == 416 && coreX core == 415)
    let p := s.position core
    let q := s.position from_
    let far := p / 65536 == q / 65536 &&
      (Nat.blt 1 ((p % 256 - q % 256) + (q % 256 - p % 256)) ||
       Nat.blt 1 ((p / 256 % 256 - q / 256 % 256) + (q / 256 % 256 - p / 256 % 256)))
    if seam then 3 else if far then 2 else 1

/-- TAKE (R203, R208). -/
def execTake (core : Nat) (ep ctr : BitVec 4) (s : State) : Res :=
  s.actAt core (.take core ep ctr) (fun x => stTake x ep.toNat ctr.toNat (s.dataCause (x.recvEp ep.toNat).peer (x.recvEp ep.toNat).peerEp core))
/-- TOKEN: VALUE is IMM, or C[CTR] when SRC is 1 (R204, R207). -/
def execToken (core : Nat) (ep : BitVec 4) (src : Bool) (ctr : BitVec 4) (imm : BitVec 16) (s : State) : Res :=
  s.actAt core (.token core ep src ctr imm) (fun x => stToken x ep.toNat ((if src then x.ctr ctr.toNat else imm).setWidth 32))

/-- RNOP (Table 9.6): nothing. -/
def execRnop (core : Nat) (s : State) : Res := atCore core (.next s)
/-- ARRIVE (R267, R268); the host is named as the program names it. -/
def execArrive (core : Nat) (wafer : Bool) (course member : BitVec 6) (order : Bool) (host : Nat) (s : State) : Res :=
  s.actAt core (.arrive core wafer course member order host) (fun x => rtArrive x wafer course.toNat member.toNat
    ((globalCore s.split (wingOf core) host).getD host) order)
/-- AWAIT (R267). -/
def execAwait (core : Nat) (wafer : Bool) (course : BitVec 6) (ext : Bool) (s : State) : Res :=
  s.actAt core (.await core wafer course ext) (fun x => rtAwait x wafer course.toNat ext)
/-- TPROD (R252, R271, R272). -/
def execTprod (core : Nat) (tally : BitVec 5) (countM1 : Byte) (remote order : Bool) (target : Nat) (s : State) : Res :=
  s.actAt core (.tprod core tally countM1 remote order target) (fun x => rtTprod x tally.toNat (countM1.toNat + 1) remote
    ((globalCore s.split (wingOf core) target).getD target) order)
/-- TCONS (R271, R272). -/
def execTcons (core : Nat) (tally : BitVec 5) (countM1 : Byte) (s : State) : Res :=
  s.actAt core (.tcons core tally countM1) (fun x => x.addCons tally.toNat (countM1.toNat + 1))
/-- TWAIT (R271). -/
def execTwait (core : Nat) (tally : BitVec 5) (countM1 : Byte) (ext : Bool) (s : State) : Res :=
  s.actAt core (.twait core tally countM1 ext) (fun x => rtTwait x tally.toNat (countM1.toNat + 1) ext)

end Sys2Proof.Machine
end

