-- ==== Sys2Proof/Machine/TensorOps.lean ====
section
/-!
DEFINITION. What the tensor engine's commands do to one core (R109 to R116): each operation answers the core
after it and the fault it found, if any. A command that found a fault leaves the engine's stores as they were.
-/

namespace Sys2Proof.Machine

/-- What the checkers find at an export, a conversion or a merge: on the exact path the lane's residue is compared, and no 16-bit
product is formed (R97, R98, Table 3.7). -/
def chkFault (c : Core) (path16 : Bool) : TChk → Option CoreFault
  | .residue t l => if path16 then none else some (.check 1 t.toNat l.toNat false)
  | .store h => some (storeFault c h)
  | _ => none

/-- What the checkers find in an MMA of n beats: on the 16-bit paths the residue of every product is compared, and the duplicate
adder looks at lane (t mod 256) in the t-th beat of 16-bit work of the step, t counting from 1; an exact MMA compares no residue
(R97, R98, Table 3.7). -/
def mmaFault (c : Core) (path16 : Bool) (n : Nat) : TChk → Option CoreFault
  | .sigProd t l => if path16 then some (.check 2 t.toNat l.toNat true) else none
  | .adderDup t l =>
    if path16 ∧ (l - c.tensor.dupTurn - 1).toNat < n then some (.check 3 t.toNat l.toNat true) else none
  | .store h => some (storeFault c h)
  | _ => none

/-- The fault of a store check alone. -/
def storeChk (c : Core) : TChk → Option CoreFault
  | .store h => some (storeFault c h)
  | _ => none

/-- Bytes of the A panel that LOAD_A moves, its metadata being read first (R110). -/
def loadABytes (c : Core) (cmd : TCmd) : Except CoreFault Nat :=
  let rows := 16 * cmdTr cmd
  let sp := cmd.sparse.toNat
  let hdr := if sp = 3 then 8 * cmdTr cmd else if sp = 4 then 2 * rows else 0
  match c.readMem cmd.addr.toNat hdr with
  | .error f => .error f
  | .ok h => .ok (panelDataBytes sp cmd.fmt.toNat rows cmd.kc.toNat (ofBytes h))

/-- Reads a panel and its scales from core memory as one buffer half (R109, R110). -/
def loadHalf (c : Core) (cmd : TCmd) (dataBytes units : Nat) : Except CoreFault OpHalf :=
  let scaleBytes := if isExactFmt cmd.fmt.toNat then units * cmdKBlocks cmd else 0
  match c.readMem cmd.addr.toNat dataBytes with
  | .error f => .error f
  | .ok d => match c.readMem cmd.scaleAddr.toNat scaleBytes with
    | .error f => .error f
    | .ok s => .ok ⟨BitVec.ofNat 16384 (ofBytes d), BitVec.ofNat 1024 (ofBytes s)⟩

/-- LOAD_A: replaces half HALF of the A buffer (R110). -/
def teLoadA (c : Core) (cmd : TCmd) (k : TChk) : Core × Option CoreFault :=
  match storeChk c k with
  | some f => (c, some f)
  | none => match loadABytes c cmd with
    | .error f => (c, some f)
    | .ok n => match loadHalf c cmd n (16 * cmdTr cmd) with
      | .error f => (c, some f)
      | .ok h => ({ c with tensor := { c.tensor with a := Map.set c.tensor.a (cmdHalf cmd) h } }, none)

/-- LOAD_B: replaces half HALF of the B buffer (R110). -/
def teLoadB (c : Core) (cmd : TCmd) (k : TChk) : Core × Option CoreFault :=
  match storeChk c k with
  | some f => (c, some f)
  | none =>
    let cols := 16 * cmdTc cmd
    match loadHalf c cmd (elemBytes cmd.fmt.toNat (cmd.kc.toNat * cols)) cols with
    | .error f => (c, some f)
    | .ok h => ({ c with tensor := { c.tensor with b := Map.set c.tensor.b (cmdHalf cmd) h } }, none)

/-- A tile of a core. -/
def Core.tile (c : Core) (t : Nat) : Tile := Map.get {} c.tensor.tiles t

/-- A lane of a tile. -/
def Tile.lane (t : Tile) (l : Nat) : Lane := t.lanes.getD l {}

/-- The sixteen signed 16-bit maxima at byte i of an anchor line (R111). -/
def maximaAt (bs : List Byte) (i : Nat) : List (BitVec 16) :=
  (List.range 16).map (fun j => BitVec.ofNat 16 (ofBytes (sliceBytes bs (i + 2 * j) 2)))

/-- LOAD_ANCHOR: 64 B for each selected tile, row maxima then column maxima (R111). -/
def teLoadAnchor (c : Core) (cmd : TCmd) (k : TChk) : Core × Option CoreFault :=
  match storeChk c k with
  | some f => (c, some f)
  | none => match c.readMem cmd.addr.toNat (64 * (cmdSel cmd).length) with
    | .error f => (c, some f)
    | .ok bs =>
      let tiles := (cmdSel cmd).zipIdx.foldl (fun m (t, i) =>
        Map.upd {} m t (fun x => { x with rowMax := maximaAt bs (64 * i), colMax := maximaAt bs (64 * i + 32) }))
        c.tensor.tiles
      ({ c with tensor := { c.tensor with tiles := tiles } }, none)

/-- The anchor of lane (r, c) from the tile's latest maxima (R111). -/
def Tile.anchor (t : Tile) (l : Nat) : BitVec 16 :=
  let rm := t.rowMax.getD (l / 16) 0
  let cm := t.colMax.getD (l % 16) 0
  if rm = noAnchor ∨ cm = noAnchor then noAnchor else rm + cm

/-- Initialises a tile for an MMA: empty, with the lane anchors on the exact path (R111, R114). -/
def Tile.initMma (t : Tile) (path16 : Bool) : Tile :=
  { t with init := true, path16 := path16,
           lanes := (List.range 256).map (fun l =>
             if path16 then { st := 0 }
             else { e := t.anchor l, st := if t.anchor l = noAnchor then stNan else stEmpty }) }

/-- Initialises a tile for a MERGE: empty, V = 0, C = 0 and EMPTY, or +0 (R112). -/
def Tile.initMerge (t : Tile) (path16 : Bool) : Tile :=
  { t with init := true, path16 := path16,
           lanes := (List.range 256).map (fun l =>
             if path16 then { st := 0 } else { e := t.anchor l, st := stEmpty }) }

/-- The path that a multiplication's formats select (R114). -/
def mmaPath16 (cmd : TCmd) : Bool := !isExactFmt cmd.fmt.toNat

/-- One lane's terms on the exact path: blocks below the limit, those with a NaN scale setting NAN instead
(R79, R81, R114). -/
def exactLane (l : Lane) (terms : List (Nat × Num)) (bcol : Nat → Num) (sa sb : Nat → Nat)
    (limit : Nat) : Lane × Bool :=
  let isNan (b : Nat) := sa b == 255 || sb b == 255
  let (l', inx) := terms.foldl (fun (p : Lane × Bool) t =>
    let b := t.1 / 32
    if limit ≤ b || isNan b then p
    else
      let (x, i) := p.1.addTerm t.2 (bcol t.1) (Int.ofNat (sa b) + Int.ofNat (sb b) - 254)
      (x, p.2 || i)) (l, false)
  (if (List.range limit).any isNan then l'.mark stNan else l', inx)

/-- One lane's terms on the 16-bit path, in increasing k (R88, R89). -/
def lane16 (l : Lane) (terms : List (Nat × Num)) (bcol : Nat → Num) : Lane :=
  terms.foldl (fun x t => x.addProd16 t.2 (bcol t.1)) l

/-- One lane's terms on the split-precision path, three passes for each k (R90). The passes are taken as
R90 writes them out: an infinity times an operand whose lo is 0 meets infinity times 0 in one of them, which is NaN (log 51). -/
def laneSplit (l : Lane) (terms : List (Nat × (Num × Num))) (bcol : Nat → Num × Num) : Lane :=
  terms.foldl (fun x t =>
    let (ah, al) := t.2
    let (bh, bl) := bcol t.1
    ((x.addProd16 ah bh).addProd16 ah bl).addProd16 al bh) l

/-- The scale byte of row r and block b of the A half, or of column c and block b of the B half (R104). -/
def aScaleAt (h : OpHalf) (nb r b : Nat) : Nat := eltAt h.scale.toNat 0 8 (r * nb + b)
/-- The scale byte of column c and block b of the B half, k-major (R104). -/
def bScaleAt (h : OpHalf) (cols c b : Nat) : Nat := eltAt h.scale.toNat 0 8 (b * cols + c)

/-- The first block, tile and lane whose combined scale exceeds the anchor in force (R78). -/
def anchorExceeded (cmd : TCmd) (ha hb : OpHalf) (tiles : List (Nat × Tile)) : Option (Nat × Nat × Nat) :=
  let nb := cmdKBlocks cmd
  let tc := cmdTc cmd
  (List.range nb).findSome? (fun b => tiles.zipIdx.findSome? (fun ((t, x), i) =>
    (List.range 256).findSome? (fun l =>
      let sa := aScaleAt ha nb (16 * (i / tc) + l / 16) b
      let sb := bScaleAt hb (16 * tc) (16 * (i % tc) + l % 16) b
      if sa ≠ 255 ∧ sb ≠ 255 ∧ (x.lane l).e.toInt < Int.ofNat sa + Int.ofNat sb - 254
      then some (b, t, l) else none)))

/-- One tile of an MMA; i is its place in the tile group; answers whether a product was rounded. -/
def mmaTile (cmd : TCmd) (ha hb : OpHalf) (limit i : Nat) (x : Tile) : Tile × Bool :=
  let fa := cmd.fmt.toNat
  let fb := cmd.fmtB.toNat
  let kc := cmd.kc.toNat
  let nb := cmdKBlocks cmd
  let tr := cmdTr cmd
  let tc := cmdTc cmd
  let da := ha.data.toNat
  let db := hb.data.toNat
  let row (r : Nat) := aRow cmd.sparse.toNat fa (16 * tr) kc da (16 * (i / tc) + r)
  let bElt (c k : Nat) := eltAt db 0 (fmtBits fb) (k * (16 * tc) + 16 * (i % tc) + c)
  let res : List (Lane × Bool) := (List.range 16).flatMap (fun r =>
    let raw := row r
    if isExactFmt fa then
      let terms := raw.map (fun t => (t.1, decodeElem fa t.2))
      (List.range 16).map (fun c => exactLane (x.lane (16 * r + c)) terms
        (fun k => decodeElem fb (bElt c k)) (aScaleAt ha nb (16 * (i / tc) + r))
        (bScaleAt hb (16 * tc) (16 * (i % tc) + c)) limit)
    else if fa = 0 then
      let terms := raw.map (fun t => (t.1, split32 (BitVec.ofNat 32 t.2)))
      (List.range 16).map (fun c =>
        (laneSplit (x.lane (16 * r + c)) terms (fun k => split32 (BitVec.ofNat 32 (bElt c k))), false))
    else
      let terms := raw.map (fun t => (t.1, decodeElem fa t.2))
      (List.range 16).map (fun c =>
        (lane16 (x.lane (16 * r + c)) terms (fun k => decodeElem fb (bElt c k)), false)))
  ({ x with lanes := res.map (·.1) }, res.any (·.2))

/-- Whether an MMA or MERGE may continue a tile as it stands: initialised in the step and on its path (R114). -/
def Tile.ready (t : Tile) (path16 : Bool) : Bool := t.init && (t.path16 == path16)

/-- Replaces tiles of a core. -/
def Core.setTiles (c : Core) (ts : List (Nat × Tile)) : Core :=
  { c with tensor := { c.tensor with tiles := ts.foldl (fun m t => Map.set m t.1 t.2) c.tensor.tiles } }

/-- MMA: multiplies half HALF of A by half HALF of B into the tile group (R114), and counts its beats (R115, R120).
An MMA that ends part-way with CHECK:0x004 has counted its beats whole (log 54). -/
def teMma (c : Core) (cmd : TCmd) (k : TChk) : Core × Option CoreFault :=
  let p16 := mmaPath16 cmd
  let ha := Map.get {} c.tensor.a (cmdHalf cmd)
  let hb := Map.get {} c.tensor.b (cmdHalf cmd)
  let n := mmaBeats cmd ha.data.toNat
  match mmaFault c p16 n k with
  | some f => (c, some f)
  | none =>
    let ts := (cmdSel cmd).map (fun t => (t, if cmd.init then (c.tile t).initMma p16 else c.tile t))
    if !ts.all (fun t => t.2.ready p16) then (c, none)
    else
      let bad := if p16 then none else anchorExceeded cmd ha hb ts
      let limit := match bad with
        | some (b, _) => b
        | none => cmdKBlocks cmd
      let rs := ts.zipIdx.map (fun ((t, x), i) => (t, mmaTile cmd ha hb limit i x))
      let c' := c.setTiles (rs.map (fun r => (r.1, r.2.1)))
      let (mb, ms) := satAdd c.tensor.mmaBeats c.tensor.mmaSat n
      let t' := { c'.tensor with mmaBeats := mb, mmaSat := ms,
                                 dupTurn := if p16 then c.tensor.dupTurn + BitVec.ofNat 8 n else c.tensor.dupTurn }
      ({ c' with tensor := t', arith := c'.arith.flag 3 (rs.any (·.2.2)) },
       bad.map (fun (_, t, l) => .check 4 t l false))

/-- Merges one tile's partials; answers whether a partial was rounded and whether scales differed (R112). -/
def mergeTile (p16 : Bool) (words : List (BitVec 128)) (t : Tile) : Tile × Bool × Bool :=
  let rs : List (Lane × Bool × Bool) := words.zipIdx.map (fun (w, l) =>
    if p16 then
      let x : F32 := BitVec.ofNat 32 w.toNat
      ((t.lane l).addF32 x (numOfF32 x).finite, false, false)
    else (t.lane l).merge w)
  ({ t with lanes := rs.map (·.1) }, rs.any (·.2.1), rs.any (·.2.2))

/-- MERGE: merges EP128 or FP32 partials from core memory into the selected tiles (R84, R85, R112). -/
def teMerge (c : Core) (cmd : TCmd) (k : TChk) : Core × Option CoreFault :=
  let p16 := cmd.fmt.toNat == 0
  let wb := if p16 then 4 else 16
  match chkFault c p16 k with
  | some f => (c, some f)
  | none => match c.readMem cmd.addr.toNat (256 * wb * (cmdSel cmd).length) with
    | .error f => (c, some f)
    | .ok bs =>
      let x := ofBytes bs
      let word (i l : Nat) : BitVec 128 := BitVec.ofNat 128 (eltAt x 0 (8 * wb) (256 * i + l))
      let ts := (cmdSel cmd).map (fun t => (t, if cmd.init then (c.tile t).initMerge p16 else c.tile t))
      if !ts.all (fun t => t.2.ready p16) then (c, none)
      else
        let bad := if p16 then none else ts.zipIdx.findSome? (fun ((t, _), i) =>
          ((List.range 256).find? (fun l => epMalformed (word i l))).map (fun l => (t, l)))
        match bad with
        | some (t, l) => (c, some (.check 5 t l false))
        | none =>
          let rs := ts.zipIdx.map (fun ((t, y), i) => (t, mergeTile p16 ((List.range 256).map (word i)) y))
          let c' := c.setTiles (rs.map (fun r => (r.1, r.2.1)))
          ({ c' with arith := (c'.arith.flag 3 (rs.any (·.2.2.1))).flag 4 (rs.any (·.2.2.2)) }, none)

/-- The rounding mode of a STORE (R91, Table 3.9). -/
def storeMode (c : Core) (cmd : TCmd) : Nat :=
  let m := if cmd.rmode.toNat = 3 then c.arith.rmodeDefault.toNat else cmd.rmode.toNat
  if m = 3 then 0 else m

/-- Saturation of a STORE (Table 4.1). -/
def storeSat (c : Core) (cmd : TCmd) : Bool :=
  if cmd.sat.toNat = 2 then c.arith.satDefault else cmd.sat.toNat == 1

/-- The lanes of a tile group as a row-major panel, each with its tile (R113). -/
def panelLanes (c : Core) (cmd : TCmd) : List (Tile × Lane) :=
  let sel := cmdSel cmd
  let tc := cmdTc cmd
  (List.range (16 * cmdTr cmd)).flatMap (fun r => (List.range (16 * tc)).map (fun col =>
    let t := c.tile (sel.getD (r / 16 * tc + col / 16) 0)
    (t, t.lane (r % 16 * 16 + col % 16))))

/-- Cuts a list into pieces of n. -/
def chunks {α : Type} (n : Nat) : Nat → List α → List (List α)
  | 0, _ => []
  | f + 1, xs => if xs.isEmpty then [] else xs.take n :: chunks n f (xs.drop n)

/-- What a STORE produces: data bytes, scale bytes, conversion flags and values converted (R92 to R95, R113). -/
structure StoreOut where
  data : List Byte
  scale : List Byte
  flags : ConvFlags
  conv : Nat

/-- The export or conversion of a panel (R113). -/
def storeOut (c : Core) (cmd : TCmd) (pword : Nat) (ls : List (Tile × Lane)) : StoreOut :=
  let fmt := cmd.fmt.toNat
  let mode := storeMode c cmd
  let sat := storeSat c cmd
  let rnd (i : Nat) : Nat := if mode = 2 then
    srBits c.arith.srSeed c.arith.srStep.toNat pword c.flow.layer.toNat (c.arith.convCount + i) else 0
  if fmt = 0xC then ⟨ls.flatMap (fun x => toBytes 16 x.2.word.toNat), [], {}, 0⟩
  else if fmt = 0 ∧ ls.all (fun x => x.1.path16) then
    ⟨ls.flatMap (fun x => toBytes 4 x.2.f32.toNat), [], {}, 0⟩
  else
    let vals := ls.map (fun x => x.2.value x.1.path16)
    if isMxFmt fmt then
      let bl := (chunks 32 (ls.length / 32) vals).zipIdx.map (fun (v, i) =>
        convertMx fmt v mode (fun j => rnd (32 * i + j)))
      ⟨packElems (fmtBits fmt) (bl.flatMap (·.2.1)), bl.map (·.1), bl.foldl (fun a y => a.or y.2.2) {}, ls.length⟩
    else
      let ys := vals.zipIdx.map (fun (v, i) => convertOne fmt v.1 v.2 mode (rnd i) sat cmd.outShift.toInt)
      ⟨packElems (fmtBits fmt) (ys.map (·.1)), [], ys.foldl (fun a y => a.or y.2) {}, ls.length⟩

/-- Whether R113 allows the form. -/
def storeAllowed (cmd : TCmd) (ls : List (Tile × Lane)) : Bool :=
  ls.all (fun x => x.1.init) &&
  (if cmd.fmt.toNat = 0xC then ls.all (fun x => !x.1.path16) else true) &&
  (if isMxFmt cmd.fmt.toNat then decide (2 ≤ cmdTc cmd) else true)

/-- Fills a byte string with free bytes up to a whole line; the first free byte is number ctr (R162). -/
def padLine (ctr : Nat) (bs : List Byte) : List Byte :=
  bs ++ (List.range (roundUp bs.length 64 - bs.length)).map (fun i => Config.freeByte (ctr + i))

/-- STORE: exports or converts the selected tiles to core memory (R113). Free bytes are taken from number ctr
on; the last component is how many were taken. -/
def teStore (c : Core) (cmd : TCmd) (k : TChk) (pword ctr : Nat) : Core × Option CoreFault × Nat :=
  let ls := panelLanes c cmd
  match chkFault c (ls.all (fun x => x.1.path16)) k with
  | some f => (c, some f, 0)
  | none =>
    if !storeAllowed cmd ls then (c, none, 0)
    else
      let o := storeOut c cmd pword ls
      let c1 := c.writeMem cmd.addr.toNat o.data
      let c2 := c1.writeMem cmd.scaleAddr.toNat (padLine ctr o.scale)
      let ar := ls.foldl (fun a x => a.accFlags x.1.path16 x.2) c.arith
      ({ c2 with arith := { (ar.convFlags o.flags) with convCount := c.arith.convCount + o.conv } }, none,
       (padLine ctr o.scale).length - o.scale.length)

end Sys2Proof.Machine
end

