-- ==== Sys2Proof/Machine/EngineOps.lean ====
section
/-!
DEFINITION. Memory-port commands whose data is late (R109): what a DMA stream, a receive endpoint or a pre-scan has still to write,
and the wait for it (R62, R63).
-/

namespace Sys2Proof.Machine

/-- Why a command waits: the cause of Table 2.5, whether the point is external, and where the arrival comes from. -/
structure Lateness where
  cause : BitVec 3
  ext : Bool := false
  sender : Option LatePath := none
deriving DecidableEq, Repr

/-- Whether a range of a list meets one of another. -/
def meets (as bs : List (Nat × Nat)) : Bool := as.any (fun a => bs.any (fun b => overlaps a.1 a.2 b.1 b.2))
/-- The core-memory ranges that a memory-port command reads: its data and its scales (R105, R109). The head of a B16 or RUBBLE panel
is read as memory holds it. -/
def Core.portRanges (c : Core) (op : Nat) (cmd : TCmd) : List (Nat × Nat) :=
  let head := ofBytes ((List.range (headBytes cmd)).map (fun i => c.byteAt (cmd.addr.toNat + i)))
  let (d, n) := tensorBytes op cmd head
  [(cmd.addr.toNat, d), (cmd.scaleAddr.toNat, n)]

/-- A READ or EXT_IN slot that has still to bring bytes of a range into its ring: of the tiles that may be in it now (R229, R230,
R234). Data of an EXT_IN is an external wait point, other data comes from bonded memory. -/
def State.slotLate (s : State) (core : Nat) (rs : List (Nat × Nat)) (e : Nat × DmaSlot) : Option Lateness :=
  let x := e.2
  let n := x.released.length
  if x.fetching || x.desc == 0 then none
  else if dKind x.desc = 0 ∨ dKind x.desc = 4 then
    ((List.range (min (dRing x.desc) (dTiles x.desc - n))).findSome? (fun i =>
      if meets rs (x.lacks (n + i)) then some (n + i) else none)).map (fun j =>
        let cur := ((tileCursors (x.cur false) j).find? (fun k => !x.got.contains k)).getD {}
        let blk := globalAddr s.split (wingOf core) (dBlockAddr x.desc cur.run cur.blk) / 512
        { cause := 4, ext := dKind x.desc == 4,
          sender := if dKind x.desc = 4 then none
            else some (.routed (attachCore (blockChan blk)) (!(s.core core).orderBit (32 + e.1))) })
  else if dKind x.desc = 3 ∧ (s.core core).slotBusy e.1 = true ∧
      meets rs [(dCoreAddr x.desc, 64 * (dPsTr x.desc * dPsTc x.desc))] = true then some { cause := 4 }
  else none
/-- A receive endpoint that has still to receive a block of a range: in each slot of its buffer the first block of a firing not yet
consumed (R193). -/
def State.recvLate (s : State) (core : Nat) (rs : List (Nat × Nat)) (e : Nat × RecvEp) : Option Lateness :=
  let x := e.2
  if !x.bound || x.depth == 0 then none
  else
    let first := x.consumed.toNat * x.perFiring
    let wait := (List.range x.depth).any (fun i => Nat.ble x.arrived (first + i) && Nat.blt (first + i) (x.firings * x.perFiring) &&
      meets rs [(x.bufAddr + (first + i) % x.depth * (32 * x.flits), 32 * x.flits)])
    if wait then some { cause := s.dataCause x.peer x.peerEp core, sender := some (.sent x.peer x.peerEp) } else none
/-- Why a memory-port command of a core must wait in this beat, if it must (R109): a slot of a stream first, then an endpoint. -/
def State.portLate (s : State) (core op : Nat) (cmd : TCmd) : Option Lateness :=
  let c := s.core core
  let rs := c.portRanges op cmd
  (c.dma.slots.findSome? (s.slotLate core rs)).or (c.flow.recv.findSome? (s.recvLate core rs))

/-- A memory-port command: its opcode, its fields, and what it does to its core. -/
structure PortCmd where
  op : Nat
  cmd : TCmd
  run : Core → Core × Option CoreFault
/-- The memory-port command that an instruction is (Table 4.2). -/
def portOf (i : Instr) : Option PortCmd :=
  match i with
  | .loadA _ c k => some ⟨1, c, fun x => teLoadA x c k⟩
  | .loadB _ c k => some ⟨2, c, fun x => teLoadB x c k⟩
  | .loadAnchor _ c k => some ⟨3, c, fun x => teLoadAnchor x c k⟩
  | .merge _ c k => some ⟨5, c, fun x => teMerge x c k⟩
  | _ => none
/-- A memory-port command at its beat: it runs, or begins to wait for its data (R63, R109). -/
def State.portStart (s : State) (core : Nat) (i : Instr) (p : PortCmd) : State :=
  match s.portLate core p.op p.cmd with
  | none => s.coreStep core (p.run (s.core core))
  | some l => s.onCore core (fun c => c.waitOn { what := .engine i, ext := l.ext } l.cause l.sender)
/-- A beat of a memory-port command's wait: it runs when its data is there (R63, R109). -/
def State.portWait (s : State) (core : Nat) (w : Wait) (p : PortCmd) : State :=
  if w.past then s.onCore core (fun c => c.waitOn w 4 none)
  else match s.portLate core p.op p.cmd with
    | none => s.coreStep core (Core.finishWait (p.run (s.core core)))
    | some l => s.onCore core (fun c => c.waitOn { w with ext := l.ext } l.cause l.sender)
/-- Runs a memory-port command that acts (R48, R109); word is the command as its schedule holds it. -/
def State.portAt (s : State) (core : Nat) (word i : Instr) : Res :=
  atCore core (.next (
    match portOf i with
    | some p => if s.acting core word then s.portStart core i p else s
    | none => s))

/-! ### Words of a bus that are late (R260) -/

/-- The layer beat in which the last word of block i of a bus is budgeted at a listener (R260). -/
def busDue (split : Bool) (core : Nat) (raw : BitVec 256) (i : Nat) : Nat :=
  busBeat raw i + bits raw 12 8 + busGap split ⟨core, 0, true, raw⟩ (bits raw 127 96) core
/-- Whether a block of a bus is late at a listener that is about to begin its next beat (R63, R260). -/
def State.busLate (s : State) (core : Nat) : Bool :=
  let c := s.core core
  c.pace.wait.isNone && !c.flow.sink && c.router.buses.any (fun e =>
    let b := e.2
    !bit b.raw 5 && Nat.blt b.count (bits b.raw 31 16 + 1) &&
    Nat.ble (c.flow.layerStart + busDue s.split (localCore s.split (wingOf core) core) b.raw b.count) c.time)

end Sys2Proof.Machine
end

