-- ==== Sys2Proof/Machine/BeatCmds.lean ====
section
/-!
DEFINITION. Beats, layers and the layer-end sample (R45 to R67, R197, R221, R270).
-/

namespace Sys2Proof.Machine

/-- The logical neighbours of a core to which it is coupled (R50): inside the array, and across the seam only in
whole-wafer mode. -/
def neighbours (split : Bool) (c : Nat) : List Nat :=
  let x := coreX c
  let y := coreY c
  (if x = 0 ∨ (split = true ∧ x = 416) then [] else [mkCore (x - 1) y]) ++
  (if x = 831 ∨ (split = true ∧ x = 415) then [] else [mkCore (x + 1) y]) ++
  (if y = 0 then [] else [mkCore x (y - 1)]) ++ (if y = 815 then [] else [mkCore x (y + 1)])

/-- Whether a core may begin its next beat (R50): coupling is released, and every neighbour has begun its present one. -/
def State.mayBeat (s : State) (c : Nat) : Bool :=
  let w := s.wing (s.lead (wingOf c))
  w.coupled && !w.halted && (neighbours s.split c).all (fun n => Nat.ble (s.core c).now (s.core n).now)

/-- Whether a beat of a core lies in a step: its counts of waits stay as the step left them otherwise (R69; log 47). -/
def State.inStep (s : State) (core : Nat) : Bool :=
  match (s.wing (s.lead (wingOf core))).run with
  | some r => r.began && (r.layer != 0 || Nat.ble (s.core core).flow.layerStart (s.core core).now)
  | none => false

/-- The beat counter advances, with the beats and the waits of the pace window, and in a step the counts of waits outside the
modelled ones (R45, R51, R54, R62, R63, R65, R71). -/
def Core.tick (c : Core) (i : BeatIn) (inStep : Bool) : Core :=
  let p := c.pace
  let c1 : Core := { c with pace := { p with
    beat := p.beat + 1, winBeats := p.winBeats + 1, winWaits := if i.coupleWait then p.winWaits + 1 else p.winWaits,
    idle := i.late.isSome || i.ext } }
  if inStep then
    let c2 := if i.coupleWait then c1.coupleBeat else c1
    let c3 := match i.late with
      | some k => let d := c2.late k (i.lateFrom.map (fun f => .routed f.1 f.2))
                  { d with pace := { d.pace with lateRun := d.pace.lateRun + 1 } }
      | none => { c2 with pace := { c2.pace with lateRun := 0 } }
    if i.ext then c3.extBeat else c3
  else c1

/-- The flags that a core places for a layer-end sample: late when LATE_COUNT is nonzero, or when it waits or has commands of its
schedule still before it; its loops; and what an unpaired half is met with at the other end (R64, R197, R270). A core at an
external wait point has not reached the end of its schedule, so it raises the late flag (R64; log 48). -/
def Core.flagsNow (c : Core) (behind : Bool) (peer : SendEp → RecvEp) : LayerFlags :=
  { late := c.pace.lateCount != 0 || c.pace.wait.isSome || c.pace.idle || behind, away := c.loopsAway,
    unpaired := c.onlyUnpaired peer, dir := c.awayEp.1, ep := c.awayEp.2 }
/-- Whether a core has commands of its layer's schedule still before it. -/
def State.behind (s : State) (core : Nat) : Bool :=
  let c := s.core core
  match s.sched (wingOf core) with
  | some (_, x) => c.pace.shift != 0 && (schedOccs x (localCore s.split (wingOf core) core) c.flow.layer.toNat).any
      (fun e => Nat.ble c.time (c.flow.layerStart + e.1))
  | none => false
/-- The flags of a core in its present layer. -/
def State.flagsNow (s : State) (core : Nat) : LayerFlags :=
  (s.core core).flagsNow (s.behind core) (fun e => (s.core e.peer).recvEp e.peerEp)
/-- Places a core's flags of its present layer, once (R64, R270). -/
def State.placeFlags (s : State) (core : Nat) : State :=
  let c := s.core core
  let n := c.flow.layer.toNat
  if (Map.find? c.pace.placed n).isSome then s
  else s.setCore core { c with pace := { c.pace with placed := Map.set c.pace.placed n (s.flagsNow core) } }
/-- The flags of a core for a layer: those it has placed, or those it would place now (R64; log 12). -/
def State.flagsOf (s : State) (core layer : Nat) : LayerFlags :=
  (Map.find? (s.core core).pace.placed layer).getD (s.flagsNow core)
/-- The listed cores of the wings that a controller directs. -/
def State.listed (s : State) (w : Nat) : List Nat := (s.wings w).flatMap (fun v => (s.wing v).cores.map (·.1))

/-- The address of the descriptor list of a core in its present layer (R225). -/
def State.listAddr (s : State) (c : Nat) : Nat :=
  let w := wingOf c
  match s.sched w with
  | none => 0
  | some (r, x) =>
    match x.lists.find? (fun l => s.named w l.core == c && l.layer == r.layer) with
    | some l => l.addr
    | none => 0

/-- The row that a FIRE of the next beats needs in this turn: the row of a flit that is injected 1 to 4 beats later (R221 item 1,
R232). Its endpoint, the slot of its stream, and the flits that the row gives. -/
def State.fireDue (s : State) (core : Nat) : Option (Nat × Nat × List Nat) :=
  let c := s.core core
  match s.sched (wingOf core) with
  | none => none
  | some (_, x) =>
    let t := c.time - c.flow.layerStart
    let fires := (schedOccs x (localCore s.split (wingOf core) core) c.flow.layer.toNat).filterMap (fun e => match e.2 with
      | .steer w => if bits w 4 0 = 6 ∧ t ≤ e.1 ∧ e.1 ≤ t + 4 ∧ c.suppressedAt (c.flow.layerStart + e.1) = false
          then some (e.1, bits w 16 13) else none
      | _ => none)
    fires.findSome? (fun (f, ep) =>
      let e := c.sendEp ep
      let before := (fires.filter (fun g => g.2 == ep && Nat.blt g.1 f)).length
      let as := c.nextFlits { e with sentBytes := e.sentBytes + 32 * e.flits * e.perFiring * before }
      if !e.bound || e.token then none
      else (as.zipIdx.find? (fun (a, k) => Nat.ble (t + 1) (f + k) && Nat.ble (f + k) (t + 4) && (c.dma.heldFlit ep a).isNone)).map
        (fun (a, _) => (ep, e.stream.getD 0, as.filter (fun b => b / 128 == a / 128 && (c.dma.heldFlit ep b).isNone))))
/-- The row of a SEND firing that takes the turn (R221 item 1): of a firing in progress, or of one to come unless the core waits. -/
def State.sendDue (s : State) (core : Nat) : Option (Nat × Nat × List Nat) :=
  let c := s.core core
  c.firingDue.or (if c.waiting then none else s.fireDue core)
/-- A turn of a burst fetch (R221 item 2, R225). -/
def State.burstTurn (s : State) (core : Nat) (f : BurstFetch) (rest : List BurstFetch) : State :=
  let c := s.core core
  let s1 := s.coreStep core (c.fetchTurn (s.listAddr core) c.time f rest)
  if (c.slot f.slot).fetching && !((s1.core core).slot f.slot).fetching then s1.openExt core f.slot else s1
/-- Whether a step runs on a core's wing. -/
def State.stepAt (s : State) (core : Nat) : Bool :=
  match s.sched (wingOf core) with
  | some (r, _) => r.began
  | none => false
/-- The DMA engine's turn at phase 2 (R221): a row of a SEND firing; else, where the core does not wait (R63), a burst fetch, a staged
row, or a row of an outgoing block, the lowest stream slot first. -/
def State.dmaTurn (s : State) (core : Nat) : State :=
  let c := s.core core
  if bankOwner c.now = .dma ∧ s.stepAt core = true ∧ c.flow.sink = false ∧ s.railOn (clusterOf core) = true then
    match s.sendDue core with
    | some (ep, slot, as) => s.coreStep core (c.sendRow ep slot as)
    | none =>
      if c.waiting then s
      else match c.dma.fetch with
        | f :: rest => s.burstTurn core f rest
        | [] =>
          if c.dma.dueRow.isSome then s.setCore core c.stagedTurn
          else match (List.range 8).find? (fun n => (c.slot n).rowsDue) with
            | some n => s.rowTurn core n
            | none => s
  else s
/-- The router's turn (Table 2.1): the row of a bus block that the layer's schedule gives this turn is read (R262). -/
def State.routerTurn (s : State) (core : Nat) : State :=
  let c := s.core core
  match s.sched (wingOf core) with
  | none => s
  | some (r, x) =>
    if bankOwner c.now = .router ∧ r.began = true ∧ c.acts = true ∧ c.router.buses.any (fun e => bit e.2.raw 5) = true ∧
        s.railOn (clusterOf core) = true then
      match ((routerRows x (localCore s.split (wingOf core) core) c.flow.layer.toNat).getD []).find? (fun r =>
          r.1 == c.time - c.flow.layerStart) with
      | none => s
      | some (_, a, n) => match c.readMem a n with
        | .error f => s.coreFault core f
        | .ok bs => s.setCore core { c with router := { c.router with
            busRows := (a, bs) :: c.router.busRows.filter (fun q => q.1 != a) } }
    else s
/-- What goes out of a core in its present beat, before the next begins: a flit of each firing in progress, and a word of each block
that it places on a bus (R193, R262). -/
def State.sendTurn (s : State) (core : Nat) : State :=
  if s.railOn (clusterOf core) then
    let s1 := s.coreStep core ((s.core core).injectAll (s.stepAt core))
    s1.coreStep core (s1.core core).placeWords
  else s
/-- What a beat meets: a bus block that is late makes it a late beat with cause 7, its writer's row or column bus being no mesh path
(R63, R260). -/
def State.beatInput (s : State) (core : Nat) (i : BeatIn) : BeatIn :=
  if i.late.isNone && !i.ext && s.busLate core then { i with late := some 7, lateFrom := none } else i

/-- The router's beat: the answers of its channels come in, its outputs serve the scheduled packets whose beat it is, unless its wing
is in level mode, and answers that wait go out in the sideband (R176, R253, R256, R258). -/
def State.meshTurn (s : State) (core : Nat) : State :=
  let s1 := s.answersDue core
  s1.onCore core (fun c => (if s1.levelAt core then c else c.forwardTurn core).answerTurn)

/-- A wait in progress takes its beat (R63). -/
def State.waitTurn (s : State) (core : Nat) : State :=
  let c := s.core core
  match c.pace.wait with
  | none => s
  | some w =>
    if c.flow.sink || !s.railOn (clusterOf core) then s
    else match w.what with
      | .take ep _ => s.coreStep core (c.tryWait w (s.dataCause (c.recvFor ep).peer (c.recvFor ep).peerEp core))
      | .engine i => match portOf i with
        | some p => s.portWait core w p
        | none => s
      | _ => s.coreStep core (c.tryWait w 1)

/-- At its layer-end beat a core places its flags, and the lines left in the staging buffer are written with zeros in what is
missing (R64, R223). -/
def State.endTurn (s : State) (core : Nat) : State :=
  let w := wingOf core
  match s.sched w with
  | none => s
  | some (r, x) =>
    let c := s.core core
    if r.began = true ∧ c.now = c.flow.layerStart + layerBeats x c.flow.layer.toNat ∧ c.flow.sink = false then
      (s.placeFlags core).onCore core Core.flushStaging
    else s

/-- The errors that a beat's checks find (R158, R386). -/
def State.beatFaults (s : State) (core : Nat) (i : BeatIn) : State :=
  let s1 := match i.err with
    | some .handshake => s.coreFault core (.core 2)
    | some .controlStore => s.coreFault core (.core 3)
    | none => s
  match i.hit with
  | some h => s1.coreFault core (storeFault (s1.core core) h)
  | none => s1

/-- BEAT (R45, R50 to R52, R63, R64, R193, R221, R253, R260, R262). -/
def execBeat (core : Nat) (i : BeatIn) (s : State) : Res :=
  atCore core (.next (
    if s.mayBeat core then
      let j := s.beatInput core i
      let s1 := (s.sendTurn core).onCore core (fun c => c.tick j (s.inStep core))
      (((((s1.waitTurn core).dmaTurn core).routerTurn core).meshTurn core).endTurn core).beatFaults core j
    else s))

/-- ENGINE_TIMEOUT (R386). -/
def execEngineTimeout (core : Nat) (s : State) : Res := atCore core (.next (s.coreFault core (.core 1)))
/-- COMPUTE_RAIL (R386). -/
def execComputeRail (core : Nat) (s : State) : Res := atCore core (.next (s.coreFault core (.core 4)))

/-- The start beat of a step's first layer: the one that a control word has brought, or the first slot boundary that lies far
enough ahead (R53, R166, R264, R290). -/
def State.firstStart (s : State) (w : Nat) (r : Run) (img : Image) (x : StepSched) : Nat :=
  if r.start = 0 ∨ r.start < s.maxBeat w then roundUp (s.maxBeat w + startLead s.split img x) 4 else r.start
/-- Whether every core of a wing has reached the end of the layer in force (R53, R64). -/
def State.layerOver (s : State) (w : Nat) (r : Run) (x : StepSched) : Bool :=
  s.allCores w (fun c => Nat.ble (r.start + layerBeats x r.layer) c.now)

/-- LAYER_START (R53): the first layer of a step that has been prepared, once the power controller lets it start (R415,
R416), or the next layer of one that runs, once the layer before is over at every core. -/
def execLayerStart (wing : Nat) (s : State) : Res :=
  atWing wing (.next (
    let l := s.lead wing
    match s.sched l with
    | none => s
    | some (r, x) =>
      if r.began then
        if r.layer + 1 < x.layers.length ∧ s.layerOver l r x = true then
          let start := r.start + 4 * ceilDiv (layerBeats x r.layer + 64) 4
          let s1 := (s.listed l).foldl (fun t c => t.placeFlags c) s
          (s1.enterLayer l (r.layer + 1) start x).onWing l (fun v => { v with run := some { r with layer := r.layer + 1, start := start } })
        else s
      else
        match s.prog l r.handle, (s.wing l).power.startWaits with
        | none, _ => s
        | _, true => s
        | some p, false =>
          let start := s.firstStart l r p.image x
          (((s.enterStep l p.image).enterLayer l 0 start x).sampleTables l).onWing l (fun v => { v with
            run := some { r with began := true, layer := 0, start := start } })))

/-- The core that a late flag names: the smallest FIRST_BEAT, then the lowest Y, then the lowest X (R64). A core that raises the
flag without a late beat has FIRST_BEAT 0, the smallest (log 48). -/
def State.pickLate (s : State) (layer : Nat) : List Nat → Option (Nat × Nat) → Option (Nat × Nat)
  | [], best => best
  | c :: cs, best =>
    let b := (s.core c).pace.firstBeat.toNat
    if (s.flagsOf c layer).late then
      match best with
      | none => s.pickLate layer cs (some (b, c))
      | some (b', d) => s.pickLate layer cs (if b < b' ∨ (b = b' ∧ c < d) then some (b, c) else best)
    else s.pickLate layer cs best
/-- The core with the lowest Y, then the lowest X, among those of a list that satisfy p. -/
def lowestCore (p : Nat → Bool) (cs : List Nat) : Option Nat :=
  (cs.filter p).foldl (fun b c => match b with
    | none => some c
    | some d => some (min c d)) none

/-- LAYER_END_SAMPLE (R64, R197, R270), of the first layer not yet sampled, once every core has placed its flags of that layer: a
late flag ends the step with PACE:0x001, loops not home with SYNC:0x003 or SYNC:0x009; otherwise the step goes on, or after its
last layer is ready for its commit point. A core that runs no command and has no endpoint raises no flag. -/
def execLayerEndSample (wing : Nat) (s : State) : Res :=
  atWing wing (.next (
    let l := s.lead wing
    match s.sched l with
    | none => s
    | some (r, x) =>
      if r.began && Nat.ble r.sampled r.layer && !(s.wing l).draining && (Nat.blt r.sampled r.layer || s.layerOver l r x) then
        let cs := s.listed l
        match s.pickLate r.sampled cs none with
        | some (_, c) => s.coreFault c (.pace 1)
        | none =>
          match lowestCore (fun c => (s.flagsOf c r.sampled).away) cs with
          | some c =>
            let only := cs.all (fun k => !(s.flagsOf k r.sampled).away || (s.flagsOf k r.sampled).unpaired)
            let g := s.flagsOf c r.sampled
            s.coreFault c (.sync (if only then 9 else 3) g.dir g.ep 0)
          | none =>
            let s1 := s.onWing l (fun v => { v with run := some { r with sampled := r.sampled + 1 } })
            if r.sampled + 1 = x.layers.length then s1.onFlight r.ring r.seq (fun f => { f with ready := true }) else s1
      else s))

/-- STALL (R65): one wait has reached 65,536 late beats. -/
def execStall (core : Nat) (s : State) : Res :=
  atCore core (.next (
    let c := s.core core
    let n := match c.pace.wait with
      | some w => max w.late c.pace.lateRun
      | none => c.pace.lateRun
    if 65536 ≤ n then
      (s.setCore core { c with pace := { c.pace with stall := true } }).coreFault core (.pace 2)
    else s))

/-- REF_LOST (R56). -/
def execRefLost (wing : Nat) (s : State) : Res :=
  atWing wing (.next (
    let l := s.lead wing
    (s.onWing l (fun x => { x with paceValid := false, refFault := true, paceDirty := true, refWait := 16 })).endStep l (paceCode 3) 0 0 true))

/-- REFERENCE_RESTORED (R56): REF_FAULT clears; the 16 windows of the recovery follow. -/
def execReferenceRestored (wing : Nat) (s : State) : Res :=
  atWing wing (.next (s.onWing (s.lead wing) (fun x => { x with refFault := false })))

/-- Coupling halts in a wing after a coupling timeout: no drain runs, no snapshot is taken, and a re-form follows (R66). -/
def State.couplingLost (s : State) (n : Nat) : State :=
  let l := s.lead (wingOfCluster n)
  if (s.wing l).coupled && !(s.wing l).halted then
    let s1 := (s.endStep l (paceCode 4) 2 n false).followUnit l (paceCode 4) (.transit n)
    s1.onWing l (fun x => { x with coupled := false, queuesLost := true })
  else s

/-- COUPLING_TIMEOUT and the skew comparison (R66); a debug halt freezes coupling and raises neither (R476). -/
def execCouplingTimeout (e : CouplingEvent) (s : State) : Res :=
  match e with
  | .noBeat n => below 48 n (.next (s.couplingLost n))
  | .skew c => atCore c (.next (if (s.wing (s.lead (wingOf c))).halted then s else s.coreFault c (.pace 5)))

end Sys2Proof.Machine
end

