-- ==== Sys2Proof/Machine/BootCmds.lean ====
section
/-!
DEFINITION. Pins, supplies, bring-up and re-form (R363 to R379, R451 to R453, R459).
-/

namespace Sys2Proof.Machine

/-- COLD_RST_N_ASSERT: an assertion that has lasted 100 µs (R367, R378, R423, R452). -/
def execColdRstAssert (s : State) : Res :=
  .next { s.cold with pins := { s.pins with coldRst := true, thermTrip := false, attn := false } }
/-- COLD_RST_N_DEASSERT: cold bring-up starts where PWR_OK is asserted (R363, R364, R443, R453). -/
def execColdRstDeassert (s : State) : Res :=
  .next (
    let s1 := { s with pins := { s.pins with coldRst := false } }
    if s.pins.coldRst && s.pins.pwrOk && s.pins.housekeeping then
      { s1 with west := { s1.west with phase := 1, lastKind := 1 }, east := { s1.east with phase := 1, lastKind := 1 },
                sec := { s1.sec with unlockPending := false }, sb := { s1.sb with plinthReady := false } }
    else s1)
/-- WARM_RST_N_ASSERT, as the module recognises it (R374, R375, R378, R453). -/
def execWarmRstAssert (s : State) : Res :=
  .next (if s.capstoned && s.pins.housekeeping && s.pins.pwrOk && !s.pins.coldRst && !s.power.tripped then s.warmReset else s)
/-- PWR_OK_DEASSERT: the module powers down and posts nothing (R452, R453). -/
def execPwrOkDeassert (s : State) : Res :=
  .next (if s.pins.pwrOk then { s.cold with pins := { s.pins with pwrOk := false, attn := false },
                                            power := { s.cold.power with tripped := s.power.tripped } } else s)
/-- PWR_OK_ASSERT: the module stays off until a cold reset cycle (R452, R453). -/
def execPwrOkAssert (s : State) : Res := .next (if s.pins.housekeeping then { s with pins := { s.pins with pwrOk := true } } else s)
/-- A wing that waits for flow goes on (R369, Table 13.5). -/
def WingState.flowBack (x : WingState) : WingState :=
  if x.phase = 11 then { x with phase := if x.warmPhase ≠ 0 then 8 else if x.reform.isSome then 9 else 5 } else x
/-- FLOW_OK_N_ASSERT (R369, R424). -/
def execFlowOkAssert (s : State) : Res :=
  .next { s with pins := { s.pins with flowOk := true }, west := s.west.flowBack, east := s.east.flowBack }
/-- HOUSEKEEPING_UP: the housekeeping supply comes up and the sideband registers reset (R451, R459). -/
def execHousekeepingUp (s : State) : Res :=
  .next (if s.pins.housekeeping then s else { s.cold with sb := {}, tap := {}, pins := { s.cold.pins with housekeeping := true } })
/-- HOUSEKEEPING_SUPPLY_FAIL: everything is off, the trip is released and the open-drain outputs float (R451, R452). -/
def execHousekeepingSupplyFail (s : State) : Res :=
  .next { s.cold with sb := {}, tap := {}, pins := { s.pins with housekeeping := false, thermTrip := false, attn := false } }

/-- COLD_PHASE (R363 to R370). -/
def execColdPhase (wing dur10ms : Nat) (fwOk : List Nat) (reports : List TestReport) (s : State) : Res :=
  atWing wing (.next (s.coldPhase wing dur10ms fwOk reports))
/-- PORT_PHASE_END: 400 ms after the ports started (R368). -/
def execPortPhaseEnd (wing : Nat) (s : State) : Res :=
  atWing wing (.next (if (s.wing wing).phase = 4 then
    { ((s.noteTime wing 4 (Config.freeTime s.freeCtr).toNat).nextCold wing 5) with freeCtr := s.freeCtr + 1 } else s))
/-- WARM_PHASE (R374). -/
def execWarmPhase (wing : Nat) (reports : List TestReport) (s : State) : Res := atWing wing (.next (s.warmPhase wing reports))
/-- REFORM_START (R376). -/
def execReformStart (wing : Nat) (s : State) : Res := atWing wing (.next (s.startReform wing))
/-- REFORM_PHASE (R376, R377). -/
def execReformPhase (wing : Nat) (reports : List TestReport) (kats : List Kat) (s : State) : Res :=
  atWing wing (.next (s.reformPhase wing reports kats))
/-- CAPSTONE (R371); a wafer whose seam has failed enters it in split mode (R30). -/
def execCapstone (wing elapsedMs : Nat) (s : State) : Res := atWing wing (.next (s.seamSplit.capstone wing elapsedMs))

end Sys2Proof.Machine
end

