-- ==== Sys2Proof/Machine/ChanCmds.lean ====
section
/-!
DEFINITION. The meanings of the memory channels' events (R173 to R188) and what they give back to a stream slot.
-/

namespace Sys2Proof.Machine

/-- The first outgoing request of a core's slot for a block. -/
def Core.findReq (c : Core) (slot n : Nat) : Option (Nat × Nat) :=
  c.router.out.findSome? (fun p => match p with
    | .readReq t m r i _ _ _ => if t = slot ∧ m = n then some (r, i) else none
    | _ => none)
/-- Whether an outgoing packet is the request of a slot for a block. -/
def isReq (slot n : Nat) (p : OutPkt) : Bool :=
  match p with
  | .readReq t m _ _ _ _ _ => t == slot && m == n
  | _ => false

/-- The ORDER of an outgoing request or write. -/
def OutPkt.ordered : OutPkt → Bool
  | .readReq _ _ _ _ _ o _ => o
  | .write _ _ o _ _ _ => o
  | _ => false
/-- The panel that a request of a core's slot belongs to, 0 when it is of no sparse stream (Table 8.6). -/
def Core.panelOf (c : Core) (slot run : Nat) : Nat :=
  if dSparse (c.slot slot).desc = 0 then 0 else ({ run := run % secondRun, blk := 0 } : Cursor).tile (c.slot slot).desc
/-- When a request reaches its channel by its budget, in slots, and the link on which it comes (R176, R183, R255). -/
def State.reqKey (s : State) (core chan : Nat) (order : Bool) (beat : Nat) : Nat × Nat :=
  (ceilDiv (beat + hopBeats s.split 6 core (attachCore chan)) 4, arrivalLink order core (attachCore chan))
/-- The requests on their way to a channel: core, slot, block and key. -/
def State.chanReqs (s : State) (chan : Nat) : List (Nat × Nat × Nat × (Nat × Nat)) :=
  (s.west.cores ++ s.east.cores).flatMap (fun e => e.2.router.out.filterMap (fun p => match p with
    | .readReq t m _ _ _ o b => if blockChan m = chan then some (e.1, t, m, s.reqKey e.1 chan o b) else none
    | _ => none))
/-- Whether a channel accepts a request in its present slot: at the slot's phase-0 beat, one in a slot, not before its budgeted
slot, the requests in order of their slots and then of their links, and a miss where the slot has room for its DRAM operation
(R176, R183). -/
def State.mayAccept (s : State) (chan core slot block : Nat) : Bool :=
  let now := s.chanSlot chan
  let x := s.chan chan
  let rs := s.chanReqs chan
  (s.core (attachCore chan)).pace.beat.toNat % 4 == 0 && x.readSlot != some now &&
  (match rs.find? (fun r => r.1 == core && r.2.1 == slot && r.2.2.1 == block) with
   | none => false
   | some r => Nat.ble r.2.2.2.1 now && rs.all (fun q => Nat.blt r.2.2.2.1 q.2.2.2.1 ||
       (r.2.2.2.1 == q.2.2.2.1 && Nat.ble r.2.2.2.2 q.2.2.2.2))) &&
  ((x.lookup block).isSome || x.room now)

/-- READ_ACCEPT (R176, R178, R181, R183): the request is taken from the core's router, the cache looked up, and the block held
as it stands for its delivery; a request for which the slot has no room waits for a later one. -/
def execReadAccept (chan core : Nat) (slot : BitVec 3) (block : Nat) (alloc : Bool) (s : State) : Res :=
  below 1536 chan (atCore core (.next (
    let c := s.core core
    match c.findReq slot.toNat block with
    | none => s
    | some (run, blk) =>
      if blockChan block = chan ∧ s.mayAccept chan core slot.toNat block = true then
        let order := c.router.out.any (fun p => isReq slot.toNat block p && p.ordered)
        let (s1, b, miss) := ((s.setCore core (c.dropOut (isReq slot.toNat block))).dropPort (attachCore chan) 1 slot.toNat).lookRead
          block alloc
        let r : ChanRead := ⟨core, slot.toNat, run, blk, block, b, miss, s.chanSlot chan⟩
        let s2 := s1.onChan chan (fun x =>
          { (if miss then x.useDram (s.chanSlot chan) else x) with
            readSlot := some (s.chanSlot chan),
            answers := x.answers ++ [⟨core, slot.toNat, !order, (s.core (attachCore chan)).now + 160, some (run, blk, block)⟩] })
        if miss || b.good then s2.onChan chan (fun x => { x with reads := x.reads ++ [r] })
        else s2.chanFault chan block core slot.toNat (c.panelOf slot.toNat run) 1 0xA 4
      else s)))

/-- A good block delivered to the stream slot that asked for it (R229, R233, R242); at a core in sink mode, or whose slot
serves it no more, it is discarded (R211). -/
def State.deliverRead (s : State) (r : ChanRead) : State :=
  let c := s.core r.core
  let x := c.slot r.slot
  let d := x.desc
  if c.flow.sink || !c.slotBusy r.slot then s
  else if dKind d = 3 then
    let second := Nat.ble secondRun r.run
    s.setCore r.core (c.setSlot r.slot (x.takeScan second { run := r.run % secondRun, blk := r.blk } r.content.data))
  else if dKind d = 0 then
    let cur : Cursor := { run := r.run, blk := r.blk }
    let p := cur.tile d
    if dSparse d != 0 && badPanelTag d p r.content.tag (Map.find? x.tags p) then
      (s.recordMap (wingOf r.core) (mapCode 5) 0 0).coreFault r.core (.dma (mapCode 5) r.slot x.index p 1)
    else
      let c1 := c.takeRead r.slot c.now { x with tags := if dSparse d = 0 then x.tags else Map.set x.tags p r.content.tag } cur r.content.data
      s.setCore r.core (c1.settleSlot r.slot)
  else s

/-- READ_DELIVERY (R174, R176): the oldest accepted read is delivered; one that missed the cache and fails its CRC
delivers nothing and ends the step with MEM:0x009. -/
def execReadDelivery (chan : Nat) (s : State) : Res :=
  below 1536 chan (.next (
    match (s.chan chan).reads with
    | [] => s
    | r :: rest =>
      let s1 := ((s.onChan chan (fun x => { x with reads := rest })).dropLocal r.core 2 r.slot).dropPort r.core 2 r.slot
      if r.miss && !r.content.good then s1.chanFault chan r.block r.core r.slot ((s.core r.core).panelOf r.slot r.run) 0 9 4
      else s1.deliverRead r))

/-- The oldest outgoing write of a core's slot: its block, data, tag and CRC. -/
def Core.findWrite (c : Core) (slot : Nat) : Option (Nat × BitVec 4096 × BitVec 32 × BitVec 32) :=
  c.router.out.findSome? (fun p => match p with
    | .write t n _ d g k => if t = slot then some (n, d, g, k) else none
    | _ => none)
/-- Whether an outgoing packet is a write of a slot. -/
def isWrite (slot : Nat) (p : OutPkt) : Bool :=
  match p with
  | .write t _ _ _ _ _ => t == slot
  | _ => false

/-- Whether a channel takes a write in its present slot: one scheduled block in a slot, and room for its DRAM operation; an
unscheduled one takes what the schedule leaves (R176, R179). -/
def State.mayWrite (s : State) (chan : Nat) (scheduled : Bool) : Bool :=
  (s.chan chan).room (s.chanSlot chan) && (!scheduled || (s.chan chan).writeSlot != some (s.chanSlot chan))

/-- WRITE_ACCEPT (R174, R176, R179, R182, R211): a block whose CRC passes is written with its side field, and the matching
cache line goes; otherwise MEM:0x00B, and the block stays as it was. An attach router in sink mode discards the flits of a
scheduled block that the channel has not accepted yet. -/
def execWriteAccept (chan : Nat) (src : WriteSrc) (corrupt : Bool) (s : State) : Res :=
  below 1536 chan (.next (
    match src with
    | .engine core slot =>
      match (s.core core).findWrite slot with
      | none => s
      | some (n, d, g, k) =>
        if blockChan n = chan ∧ validCore core = true ∧ s.mayWrite chan true = true then
          let order := (s.core core).router.out.any (fun p => isWrite slot p && p.ordered)
          let s1 := (s.onCore core (fun c => c.dropOut (isWrite slot))).dropPort (attachCore chan) 2 slot
          let b : Block := { data := toBytes 512 d.toNat, crc := k, tag := g }
          if (s.core (attachCore chan)).flow.sink then s1
          else if corrupt || !b.good then s1.chanFault chan n core slot 0 2 0xB 5
          else (s1.putBlock n b).onChan chan (fun x => { x.useDram (s.chanSlot chan) with
            writeSlot := some (s.chanSlot chan), nWrites := (satAdd x.nWrites x.writeSat 1).1, writeSat := (satAdd x.nWrites x.writeSat 1).2,
            writes := x.writes ++ [some (core, slot)],
            answers := x.answers ++ [⟨core, slot, !order, (s.core (attachCore chan)).now + 48, none⟩] })
        else s
    | .outside n d g =>
      if blockChan n = chan ∧ s.mayWrite chan false = true then
        if corrupt then
          ((s.recordChan (512 * n) 2 0xB).followUnit (wingOfChan chan) (memCode 0xB) (.channel (chan / 32) (s.physChan chan))).endStep
            (wingOfChan chan) (memCode 0xB) 4 chan true
        else (s.extWrite n (mkBlock (toBytes 512 d.toNat) g)).onChan chan (fun x => { x with writes := x.writes ++ [none] })
      else s))

/-- WRITE_ACKNOWLEDGEMENT (R176, R224): the oldest accepted write is acknowledged to its writer. -/
def execWriteAcknowledgement (chan : Nat) (s : State) : Res :=
  below 1536 chan (.next (
    match (s.chan chan).writes with
    | [] => s
    | o :: rest =>
      let s1 := s.onChan chan (fun x => { x with writes := rest })
      match o with
      | none => s1
      | some (core, slot) =>
        ((s1.dropLocal core 3 slot).dropPort core 3 slot).onCore core (fun c => if c.slotBusy slot then
          (c.setSlot slot { c.slot slot with done := (c.slot slot).done + 1 }).settleSlot slot else c)))

/-- EXT_BLOCK_ACCESS (R179, R180): an unscheduled read, whole-block write, or line merged into its block, once the schedule leaves
room for it. -/
def execExtBlockAccess (chan : Nat) (op : ExtOp) (s : State) : Res :=
  below 1536 chan (.next (
    if !s.mayWrite chan false then s
    else match op with
    | .read n =>
      if blockChan n = chan then
        let s1 := s.countExt chan 1
        if (s.block n).good then s1 else s1.recordChan (512 * n) 0 9
      else s
    | .write n d g => if blockChan n = chan then s.extWrite n (mkBlock (toBytes 512 d.toNat) g) else s
    | .line n i d =>
      if blockChan n = chan then
        match s.mergeBlock (512 * n + 64 * i.toNat) (toBytes 64 d.toNat) with
        | some s' => s'
        | none => (s.countExt chan 1).recordChan (512 * n) 4 0xD
      else s))

/-- CHANNEL_FAIL (R186): a channel interface loses training or reports an internal error. -/
def execChannelFail (chan : Nat) (s : State) : Res :=
  below 1536 chan (.next (
    let w := wingOfChan chan
    ((s.recordChan (chan * 2 ^ 29) 3 0xC).followUnit w (memCode 0xC) (.channel (chan / 32) (s.physChan chan))).endStep
      w (memCode 0xC) 4 chan true))

end Sys2Proof.Machine
end

