-- ==== Sys2Proof/Machine/DrainCmds.lean ====
section
/-!
DEFINITION. Drains (R209 to R215) and synchronisation snapshots (R276).
-/

namespace Sys2Proof.Machine

/-- DRAIN_START: beat d (R210). Each plinth controller that takes part copies its wafer courses where a fault
or an abort is the cause (R276). -/
def execDrainStart (wing : Nat) (s : State) : Res :=
  atWing wing (.next (
    let l := s.lead wing
    let x := s.wing l
    match x.drain with
    | none => s
    | some d =>
      if d.active then s
      else
        let s1 := s.onWing l (fun v => { v with
          drain := some { d with active := true, startBeat := s.maxBeat l }, draining := true,
          drainCause := d.cause.setWidth 3, allEmpty := false })
        if d.cause = 3 then s1
        else (s1.onWing l (fun v => { v with snapValid := true, snapFault := d.code, snapStep := d.step })).onWings l (fun v => { v with
          waferSnap := v.wafer })))

/-- A drain notice at a core: while its wing drains, once (R210, R276). -/
def State.noticeAt (s : State) (core : Nat) : State :=
  let x := s.wing (s.lead (wingOf core))
  if x.draining && !(s.core core).flow.sink then
    (s.finishWrites core).onCore core (fun c => c.notice (x.drainCause != 3))
  else s

/-- DRAIN_NOTICE (R210, R211, R276). -/
def execDrainNotice (core : Nat) (s : State) : Res := atCore core (.next (s.noticeAt core))

/-- Whether a core that has had no notice holds nothing that a drain ends: no endpoint is bound and no stream is open. -/
def Core.unbound (c : Core) : Bool := c.flow.send.isEmpty && c.flow.recv.isEmpty && c.dma.busy == 0 && c.pace.wait.isNone
/-- Whether a core counts as empty at a sample (R210). -/
def Core.drained (c : Core) : Bool := c.empty && (c.flow.sink || c.unbound)

/-- DRAIN_SAMPLE (R210): the drain ends at the first sample that finds every core empty. The epoch of the re-form that it may
belong to advances in re-form phase 6 (R215, R377). -/
def execDrainSample (wing : Nat) (s : State) : Res :=
  atWing wing (.next (
    let l := s.lead wing
    let x := s.wing l
    match x.drain with
    | none => s
    | some d =>
      if !d.active then s
      else if s.allCores l (fun c => c.drained) then
        (s.mapCores l (fun c => c.restoreCredits)).onWing l (fun v => { v with
          drain := none, draining := false, allEmpty := true, drainTimeout := false,
          lastDrain := BitVec.ofNat 24 (min (s.maxBeat l - d.startBeat) 0xFFFFFF) })
      else s.onWing l (fun v => { v with allEmpty := false })))

/-- DRAIN_TIMEOUT (R212): the bound has passed without all empty. -/
def execDrainTimeout (wing : Nat) (s : State) : Res :=
  atWing wing (.next (
    let l := s.lead wing
    let x := s.wing l
    match x.drain with
    | none => s
    | some d =>
      if d.active && Nat.ble (d.startBeat + d.bound) (s.maxBeat l) && !s.allCores l (fun c => c.drained) then
        let bad := ((s.wings l).flatMap (fun v => (s.wing v).cores)).filter (fun e => !e.2.drained)
        let s1 := match s.firstCore l (fun c => !c.drained) with
          | some c => s.onCore c (fun y => y.record true (.sync 8 false 0 0))
          | none => s
        let s2 := bad.foldl (fun t e => t.followUnit l (syncCode 8) (.core (BitVec.ofNat 22 (t.position e.1)))) s1
        (s2.mapCores l (fun c => c.clearQueues)).onWing l (fun v => { v with
          drain := none, draining := false, allEmpty := false, drainTimeout := true, queuesLost := true,
          reformDue := v.reformDue <|> some (syncCode 8) })
      else s))

end Sys2Proof.Machine
end

