-- ==== Sys2Proof/Machine/PowerOps.lean ====
section
/-!
DEFINITION. The power controllers: budgets, V_common, ballast and gating (R411 to R419), junction sensors and the throttle
(R420 to R423), and rails that return (R424 to R426).
-/

namespace Sys2Proof.Machine

/-! ### Voltages and budgets (R411, R413, R428) -/

/-- n held between two limits. -/
def clampNat (lo hi n : Nat) : Nat := min hi (max lo n)
/-- V(n) in mV while the rail is on (R411). -/
def State.domainMv (s : State) (n : Nat) : Nat :=
  let x := s.cluster n
  let v := (s.wing (s.lead (wingOfCluster n))).power.vCommon
  clampNat 460 840 (Int.toNat (Int.ofNat v + x.balance - Int.ofNat x.throttle))
/-- The voltage of an operating point in mV (Table 2.2). -/
def opMv (op : Nat) : Nat := [500, 550, 620, 700, 740, 780, 800, 820].getD op 820
/-- Typical pace of an operating point in units of 10 Mbeat/s (Table 2.2). -/
def opPace (op : Nat) : Nat := [55, 72, 95, 120, 130, 138, 142, 145].getD op 145
/-- The point that bounds V_common: the followed one while it replaces the preferred one (R414, R419). -/
def WingPower.op (p : WingPower) : Nat := if p.following then min p.followOp.toNat p.prefOp.toNat else p.prefOp.toNat
/-- The cap in mW, with CAP at its nearest limit (R413, R428). -/
def State.capMw (s : State) : Nat := 100000 * clampNat 100 480 s.power.cap.toNat
/-- SLOPE in mW per millisecond (R416, R428). -/
def State.slopeMw (s : State) : Nat := 10000 * clampNat 50 1000 s.power.slope.toNat
/-- A wing's share of a power: all of it in whole-wafer mode (R413). -/
def State.share (s : State) (w p : Nat) : Nat :=
  let west := clampNat 10 90 s.power.westShare.toNat
  if s.split then p * (if w = 0 then west else 100 - west) / 100 else p
/-- The budget of a wing (R413). -/
def State.budget (s : State) (w : Nat) : Nat := s.share w s.capMw
/-- The peak limit of a wing: its share of the lower of 1.15 CAP and 58 kW (R413). -/
def State.peak (s : State) (w : Nat) : Nat := s.share w (min (s.capMw * 115 / 100) 58000000)
/-- The mean of a list of powers. -/
def meanOf (ps : List Nat) : Nat := if ps.isEmpty then 0 else ps.sum / ps.length
/-- The 1 ms power of the module: the mean of the last 100 samples (R412). -/
def Power.avg1ms (p : Power) : Nat := meanOf p.samples
/-- The 2 s power of the module: the mean of the last 2,000 values of the 1 ms power (R412). -/
def Power.avg2s (p : Power) : Nat := meanOf p.ms
/-- The 1 ms power that a wing's controller holds to its budget. -/
def State.wing1ms (s : State) (w : Nat) : Nat := if s.split then (s.wing w).power.ms.headD 0 else s.power.avg1ms
/-- The 2 s power that a wing's controller holds to its budget. -/
def State.wing2s (s : State) (w : Nat) : Nat := if s.split then meanOf (s.wing w).power.ms else s.power.avg2s

/-- Whether the plinth rail is up and the wafer out of reset: the controllers measure and act (R410, R452); a module that stays off
until its cold reset cycle is not (R453). -/
def State.powered (s : State) : Bool :=
  s.pins.housekeeping && s.pins.pwrOk && !s.pins.coldRst && !s.power.tripped && (s.west.phase != 0 || s.east.phase != 0)

/-! ### Measurement (R412) -/

/-- The sum of the reported compute-rail powers of a wing's clusters, in mW. -/
def State.clusterSum (s : State) (w : Nat) : Nat :=
  ((List.range 48).filter (fun n => wingOfCluster n == w)).foldl (fun a n => a + 1000 * (s.cluster n).powerW.toNat) 0
/-- Adds a wing's 1 ms power to its values of the last 2 s, and to the highest of its run (R412, R416). -/
def WingState.addMs (x : WingState) (own all_ : Nat) (split : Bool) : WingState :=
  { x with power := { x.power with
      ms := (own :: x.power.ms).take 2000,
      peakRun := if x.run.any (fun r => r.began) then max x.power.peakRun (if split then own else all_) else x.power.peakRun } }
/-- The plinth controllers answer the sideband from 50 ms after phase 1 starts: 5,000 samples of 10 µs (R364, R412, R457). -/
def Sideband.serve (x : Sideband) (count : Nat) : Sideband := { x with plinthReady := x.plinthReady || Nat.ble 5000 count }
/-- One sample of the busbar: p in mW; at every hundredth the 1 ms power joins the values of the last 2 s. -/
def State.sample (s : State) (vin iin : BitVec 16) : State :=
  let p := vin.toNat * iin.toNat
  let x := s.power
  let y : Power := { x with
    vin := vin, iin := iin, samples := (p :: x.samples).take 100, count := x.count + 1, energy := x.energy + p }
  if y.count % 100 = 0 then
    let z : Power := { y with ms := (y.avg1ms :: y.ms).take 2000 }
    { s with sb := s.sb.serve y.count, power := z, west := s.west.addMs (s.clusterSum 0) y.avg1ms s.split,
             east := s.east.addMs (s.clusterSum 1) y.avg1ms s.split }
  else { s with sb := s.sb.serve y.count, power := y }

/-! ### The control period (R414 to R419) -/

/-- Whether a pace window exceeds a pace, given in units of 10 Mbeat/s (R54). -/
def paceAbove (count : BitVec 32) (limit : Nat) : Bool := Nat.blt (limit * 10000000 * 65536) (count.toNat * 25000000)
/-- What a control period decides for V_common: its new value and the cause that holds it (R411, R414, R416, R418, R419,
Table 15.3). -/
def State.decideV (s : State) (l : Nat) : Nat × Nat :=
  let x := s.wing l
  let v := x.power.vCommon
  let low := max 460 (v - 5)
  let p := s.wing1ms l
  let want := opMv x.power.op
  if s.peak l < p then (low, 2)
  else if s.budget l < p then (low, 1)
  else if !x.paceValid then (v, 0)
  else if paceAbove x.paceCount 147 then (low, 3)
  else if want < v then (max want (v - 5), 5)
  else if v = want then (v, 5)
  else if s.budget l * 98 < p * 100 then (v, 1)
  else if paceAbove x.paceCount 144 then (v, 3)
  else if Config.riseOk p v s.slopeMw then (min want (v + 5), 0)
  else (v, 4)
/-- Gating begins at the floor while the projection exceeds the budget and ends above the floor (R415). -/
def State.gates (s : State) (l v : Nat) : Bool :=
  Nat.ble v 460 && ((s.wing l).power.gating || Nat.blt (s.budget l) (s.wing1ms l))
/-- The ballast floor: raised at SLOPE to E before a step, held near E during it, and falling at SLOPE otherwise (R416). -/
def State.nextBallast (s : State) (l : Nat) : Nat :=
  let p := (s.wing l).power
  let step := s.slopeMw / 10
  if p.startWaits then min p.e (max p.ballast (s.wing1ms l) + step)
  else if (s.wing l).run.any (fun r => r.began) then p.e
  else p.ballast - step
/-- One control period of a wing's controller. -/
def State.control (s : State) (l : Nat) : State :=
  let x := s.wing l
  let (v, limit) := s.decideV l
  let gates := s.gates l v
  let lowered := Nat.blt v x.power.vCommon && (limit == 1 || limit == 2)
  let e := if lowered then min x.power.e (Config.freePower s.freeCtr) else x.power.e
  let f := s.nextBallast l
  let wait := x.power.startWaits && (Nat.blt f e || (gates && Nat.blt (s.budget l * 95) (s.wing2s l * 100)))
  let p : WingPower := { x.power with
    vCommon := v, limit := BitVec.ofNat 3 limit, gating := gates, e := e, ballast := f, startWaits := wait }
  { (s.wings l).foldl (fun (t : State) w => t.onWing w (fun y => { y with power := { p with ms := y.power.ms } })) s with
    freeCtr := s.freeCtr + 1 }
/-- The expected power of a step: the highest of its last run at the same preferred point, never above the peak limit, and
the peak limit on the first run (R416). -/
def State.expectedPower (s : State) (l : Nat) (r : Run) : Nat :=
  let p := (s.wing l).power
  min (s.peak l) (Map.get (s.peak l) p.expected (runKey r p.prefOp))
/-- A step that has been prepared waits for the ramp (R415, R416). -/
def State.rampStart (s : State) (l : Nat) (r : Run) : State :=
  let e := s.expectedPower l r
  s.onWing l (fun x => { x with power := { x.power with e := e, startWaits := true, peakRun := 0 } })

/-! ### Balancing (R417) -/

/-- B(n) after a window: raised where the cluster lags and the ramp allows a rise (R416), lowered where it waits. -/
def Cluster.rebalance (x : Cluster) (rise : Bool) : Cluster :=
  { x with balance :=
      if x.lagging then (if rise then min 40 (x.balance + 5) else x.balance)
      else if 100 ≤ x.waitPermille.toNat then max (-40) (x.balance - 5)
      else x.balance }

/-! ### Sensors and the throttle (R420 to R423) -/

/-- Inserts a reading in rising order. -/
def insertInt (a : Int) : List Int → List Int
  | [] => [a]
  | x :: xs => if a ≤ x then a :: x :: xs else x :: insertInt a xs
/-- Twice the median of a list of readings (R420). -/
def median2 (xs : List Int) : Int :=
  let s := xs.foldl (fun m a => insertInt a m) []
  let n := s.length
  if n % 2 = 1 then 2 * s.getD (n / 2) 0 else s.getD (n / 2 - 1) 0 + s.getD (n / 2) 0
/-- Whether a reading lies in the range of a sensor (R420). -/
def inRange (r : Int) : Bool := decide (-20 ≤ r) && decide (r ≤ 150)
/-- The invalid sensors after a reading, judged in two passes (R420). -/
def judge (invalid : BitVec 16) (rs : List Int) : BitVec 16 :=
  let val (i : Nat) : Int := rs.getD i 0
  let ok (i : Nat) : Bool := !invalid.getLsbD i && inRange (val i)
  let bad (i : Nat) : Bool :=
    if !inRange (val i) then true
    else
      let others := ((List.range 16).filter (fun j => j != i && ok j)).map val
      !others.isEmpty && decide (40 < (2 * val i - median2 others).natAbs)
  BitVec.ofNat 16 ((List.range 16).foldl (fun a i => if invalid.getLsbD i || bad i then a + 2 ^ i else a) 0)
/-- The readings of a cluster's valid sensors. -/
def validReadings (invalid : BitVec 16) (rs : List Int) : List Int :=
  ((List.range 16).filter (fun i => !invalid.getLsbD i)).map (fun i => rs.getD i 0)
/-- A cluster after a reading: its invalid sensors, TMAX, and how long it has been off or cool (R420, R422, R423). -/
def Cluster.read (x : Cluster) (rs : List Int) : Cluster :=
  let inv := judge x.invalid rs
  let vs := validReadings inv rs
  let t := if vs.length < 4 then 95 else vs.foldl max (-20)
  { x with invalid := inv, tmax := t, offReads := if x.regionOff then x.offReads + 1 else 0,
           coolReads := if x.regionOff && decide (t ≤ 85) then x.coolReads + 1 else 0 }
/-- A region goes off: its rail drops to retention, and a running step ends with THERMAL:0x001 (R422). -/
def State.regionOff (s : State) (n : Nat) : State :=
  let s1 := (s.onCluster n (fun x => { x with regionOff := true, offReads := 0, coolReads := 0 })).recordPower (thermalCode 1) n
  s1.endStep (wingOfCluster n) (thermalCode 1) 2 n true
/-- One cluster's sensors are read. -/
def State.readCluster (s : State) (n : Nat) (rs : List Int) : State :=
  let x := s.cluster n
  let y := x.read rs
  let s1 := s.onCluster n (fun _ => y)
  let s2 := if y.invalid ≠ x.invalid then (s1.recordPower (thermalCode 2) n).attend (wingOfCluster n) else s1
  if (validReadings y.invalid rs).any (fun r => decide (105 ≤ r)) && !y.regionOff then s2.regionOff n else s2
/-- Whether the readings of a cluster call for a thermal trip (R423). -/
def State.tripsAt (s : State) (n : Nat) (rs : List Int) : Bool :=
  let x := s.cluster n
  let vs := validReadings x.invalid rs
  vs.any (fun r => decide (115 ≤ r)) || (x.regionOff && Nat.ble 500 x.offReads && vs.any (fun r => decide (105 ≤ r)))

/-- T(n) at a tick of 1 ms (R421). -/
def State.throttleCluster (s : State) (n : Nat) (x : Cluster) : Cluster :=
  if 95 ≤ x.tmax then { x with
    throttle := if 460 < s.domainMv n ∧ x.throttle < 400 then x.throttle + 5 else x.throttle, coolTicks := 0 }
  else if x.tmax ≤ 92 ∧ 0 < x.throttle then
    (if 9 ≤ x.coolTicks then { x with throttle := x.throttle - 5, coolTicks := 0 } else { x with coolTicks := x.coolTicks + 1 })
  else { x with coolTicks := 0 }

/-! ### Registers of power (Tables 15.3, 15.4) -/

/-- n in k bits, at its largest value where it does not fit. -/
def satField (k n : Nat) : Nat := min n (2 ^ k - 1)
/-- A temperature as a field of 8 bits, 0 where it lies below. -/
def tempField (t : Int) : Nat := satField 8 t.toNat
/-- The cluster of the highest reading: the lowest-numbered of those at TMAX. -/
def State.hottest (s : State) : Nat :=
  (List.range 48).foldl (fun b n => if (s.cluster b).tmax < (s.cluster n).tmax then n else b) 0
/-- PLINTH_THERM (Table 15.3). -/
def State.thermWord (s : State) : Nat :=
  tempField (s.cluster s.hottest).tmax + s.hottest * 2 ^ 8 +
  (List.range 48).foldl (fun a n => if (s.cluster n).regionOff then a + 2 ^ (14 + n) else a) 0 +
  (if s.power.tripped then 2 ^ 62 else 0) + (if s.power.flowStop then 2 ^ 63 else 0)
/-- PLINTH_PWR_ERR (Table 15.3). -/
def State.pwrErrWord (s : State) : Nat := s.power.lastFault.toNat + s.power.errCluster.toNat * 2 ^ 16
/-- PLINTH_PWR_INPUT (Table 15.3). -/
def State.pwrInputWord (s : State) : Nat := s.power.vin.toNat + s.power.iin.toNat * 2 ^ 16

/-- The thermal trip (R423): every rail off, all work discarded with no record; the housekeeping block keeps a copy of the
power registers (R457). -/
def State.trip (s : State) : State :=
  let c := s.cold
  { c with
    power := { c.power with tripped := true },
    pins := { c.pins with thermTrip := true },
    sb := { c.sb with snapTherm := BitVec.ofNat 64 (s.thermWord % 2 ^ 62 + 2 ^ 62 + (if s.power.flowStop then 2 ^ 63 else 0)),
                      snapErr := BitVec.ofNat 64 s.pwrErrWord, snapInput := BitVec.ofNat 64 s.pwrInputWord } }

/-! ### Rails that return (R422, R424 to R426) -/

/-- An input fault (R425): every compute rail drops, and a running step ends. -/
def State.inputFails (s : State) (n : Nat) : State :=
  let s1 := { s with power := { s.power with inputFault := true } }.recordPower (powerCode n) 0
  [0, 1].foldl (fun (t : State) w => if t.lead w = w then t.endStep w (powerCode n) 0 0 true else t) s1
/-- V_common of both wings falls by 20 mV at once (R425). -/
def WingState.cutV (x : WingState) : WingState :=
  { x with power := { x.power with vCommon := min x.power.vCommon (max 460 (x.power.vCommon - 20)), limit := 6 } }

end Sys2Proof.Machine
end

