-- ==== Sys2Proof/Machine/RegOps.lean ====
section
/-!
DEFINITION. What every register reads as: the register tables of the chapters, by block and offset (R8, R359, R380, R478).
-/

namespace Sys2Proof.Machine

/-- A bit at a place. -/
def flagAt (b : Bool) (n : Nat) : Nat := if b then 2 ^ n else 0

/-! ### Core block (Tables 2.5, 3.9, 4.7, 5.3, 6.7, 7.6, 8.6, 9.11, 10.3, 10.4, 14.9) -/

/-- Whether an output link of a core is an outward edge link with no gateway (R37). -/
def linkDisabled (c n : Nat) : Bool :=
  !isGatewayCore c && (match n with
    | 0 => coreY c == 0
    | 1 => coreX c == 831
    | 2 => coreY c == 815
    | _ => coreX c == 0)
/-- The tiles of a core that satisfy p, as a mask. -/
def Core.tileMask (c : Core) (p : Tile → Bool) : Nat :=
  (List.range 8).foldl (fun a t => a + flagAt (p (Map.get {} c.tensor.tiles t)) t) 0
/-- CORE_RT_LINK_n (Table 9.11). -/
def Core.rtLinkWord (c : Core) (at_ n : Nat) : Nat :=
  let l := c.mlink n
  l.resends.toNat + flagAt l.resendSat 31 + flagAt l.failed 32 + flagAt (linkDisabled at_ n) 33 + l.lastAttempts.toNat * 2 ^ 34
/-- CORE_COURSE_k (Table 9.11). -/
def Core.courseWord (c : Core) (k : Nat) : Nat :=
  let x := c.course k
  x.participants.toNat + ((List.range 64).filter (fun i => x.arrived.getLsbD i)).length * 2 ^ 7 + flagAt x.gen 14 +
  flagAt x.held 15 + flagAt x.overran 16
/-- CORE_TALLY_n and CORE_TALLY_AUX_n (Table 9.11). -/
def Core.tallyWord (c : Core) (n : Nat) (aux : Bool) : Nat :=
  let t := c.tally n
  if aux then t.buffers.toNat + flagAt t.sat 9 + flagAt t.bound 10 else t.prod.toNat + t.cons.toNat * 2 ^ 32
/-- CORE_LIMIT (Table 10.3). -/
def Limit.word (l : Limit) : Nat :=
  l.sections.toNat + l.tiles.toNat * 2 ^ 8 + l.slots.toNat * 2 ^ 12 + l.depth.toNat * 2 ^ 16 + l.sendEp.toNat * 2 ^ 21 +
  l.recvEp.toNat * 2 ^ 26 + 2 ^ 32
/-- The registers of the pace, arithmetic, tensor, vector and memory tables. -/
def Core.regLow (c : Core) (off : Nat) : Nat :=
  match off with
  | 0x100 => c.pace.beat.toNat
  | 0x108 => c.pace.lateCount.toNat + flagAt c.pace.lateSat 32 + flagAt c.pace.stall 33
  | 0x110 => c.pace.firstBeat.toNat
  | 0x118 => c.pace.firstLayer.toNat + c.pace.cause.toNat * 2 ^ 8
  | 0x120 => c.pace.extCount.toNat + flagAt c.pace.extSat 32 + flagAt c.pace.coupleSat 33 + c.pace.coupleCount.toNat * 2 ^ 34
  | 0x200 => c.arith.rmodeDefault.toNat + flagAt c.arith.satDefault 2 + 2 ^ 8
  | 0x208 => c.arith.srSeed.toNat
  | 0x210 => c.arith.srStep.toNat
  | 0x218 => c.arith.status.toNat
  | 0x220 => c.arith.chkCode.toNat + c.arith.chkLane.toNat * 2 ^ 12 + c.arith.chkTile.toNat * 2 ^ 20 + flagAt c.arith.chkPath 23
  | 0x300 => 1 + 17 * 2 ^ 8 + 16 * 2 ^ 13 + 8 * 2 ^ 18
  | 0x308 => c.tensor.bypassCol.toNat
  | 0x310 => c.tensor.mmaBeats.toNat + flagAt c.tensor.mmaSat 48
  | 0x318 => c.tileMask (fun t => t.init) + c.tileMask (fun t => t.path16) * 2 ^ 8
  | 0x400 => 1 + 32 * 2 ^ 8 + 32 * 2 ^ 14
  | 0x408 => c.vec.beats.toNat + flagAt c.vec.sat 48
  | 0x500 => 1 + 8 * 2 ^ 8 + 0x600 * 2 ^ 12
  | 0x508 => c.mem.groupBypass.toNat
  | 0x510 => c.mem.on.toNat + c.mem.retained.toNat * 2 ^ 8 + c.mem.footprint.toNat * 2 ^ 16 + c.mem.entry.toNat * 2 ^ 24 +
      c.mem.keep.toNat * 2 ^ 32 + c.mem.scrubbed.toNat * 2 ^ 40
  | 0x520 => c.mem.errCode.toNat + c.mem.errUnit.toNat * 2 ^ 12 + c.mem.errAddr.toNat * 2 ^ 16
  | _ => 0
/-- The registers of the flow, DMA, router, limit and health tables that stand alone. -/
def Core.regHigh (c : Core) (off : Nat) : Nat :=
  match off with
  | 0x600 => 1 + 16 * 2 ^ 8 + 16 * 2 ^ 13 + 8 * 2 ^ 18 + 4 * 2 ^ 22 + 16 * 2 ^ 25 + 16 * 2 ^ 30
  | 0x608 => c.flow.epoch.toNat + flagAt c.empty 2 + flagAt c.flow.sink 3 + c.flow.layer.toNat * 2 ^ 8
  | 0x610 => c.flow.errCode.toNat + flagAt c.flow.errDir 12 + c.flow.errEp.toNat * 2 ^ 13 + c.flow.errSeq.toNat * 2 ^ 17 +
      flagAt c.flow.errDrain 33
  | 0x618 => c.flow.staleCount.toNat + flagAt c.flow.staleSat 32 + c.flow.staleEpoch.toNat * 2 ^ 33
  | 0x800 => 1 + 8 * 2 ^ 8 + 16 * 2 ^ 12 + 8 * 2 ^ 17
  | 0x808 => c.dma.blocksRd.toNat + flagAt c.dma.rdSat 31 + c.dma.blocksWr.toNat * 2 ^ 32 + flagAt c.dma.wrSat 63
  | 0x810 => c.dma.panelsComp.toNat + flagAt c.dma.compSat 31 + c.dma.panelsFb.toNat * 2 ^ 32 + flagAt c.dma.fbSat 63
  | 0x818 => c.dma.errFault.toNat + c.dma.errSlot.toNat * 2 ^ 16 + c.dma.errDesc.toNat * 2 ^ 19 + c.dma.errPanel.toNat * 2 ^ 28 +
      c.dma.errKind.toNat * 2 ^ 44
  | 0x900 => 1 + 16 * 2 ^ 8 + 32 * 2 ^ 13 + 64 * 2 ^ 19
  | 0x928 => c.router.errCode.toNat + c.router.errPort.toNat * 2 ^ 12 + c.router.errDest.toNat * 2 ^ 15
  | 0xC00 => c.limit.word
  | 0xC08 => c.limit.errCode.toNat + c.limit.errResource.toNat * 2 ^ 12 + c.limit.errLayer.toNat * 2 ^ 15 +
      c.limit.errValue.toNat * 2 ^ 23
  | 0xC10 => c.groups.toNat
  | 0xD00 => flagAt c.health.observed 0 + flagAt c.health.moved 1 + flagAt c.health.testDue 2 + c.health.obsLeft.toNat * 2 ^ 4 +
      c.health.lastEvent.toNat * 2 ^ 36
  | _ => 0
/-- A register of the core block of a core. -/
def State.readCoreReg (s : State) (at_ off : Nat) : Nat :=
  let c := s.core at_
  if off < 0x600 then c.regLow off
  else if 0x700 ≤ off ∧ off < 0x800 then (c.epWord ((off - 0x700) / 8)).toNat
  else if 0x908 ≤ off ∧ off < 0x928 then c.rtLinkWord at_ ((off - 0x908) / 8)
  else if 0x940 ≤ off ∧ off < 0x9C0 then c.courseWord ((off - 0x940) / 8)
  else if 0xA00 ≤ off ∧ off < 0xC00 then c.tallyWord ((off - 0xA00) / 16) (off % 16 == 8)
  else if off = 0xD08 then s.position at_
  else c.regHigh off

/-! ### Cluster, port, ring and link blocks (Tables 6.8, 11.10, 12.14, 12.15, 15.4) -/

/-- A register of the cluster block of a cluster. -/
def State.readClusReg (s : State) (n off : Nat) : Nat :=
  let x := s.cluster n
  if 0x100 ≤ off ∧ off < 0x120 then
    (List.range 8).foldl (fun a i => a + s.physChan (32 * n + 8 * ((off - 0x100) / 8) + i) * 2 ^ (6 * i)) 0
  else if 0x200 ≤ off ∧ off < 0x400 then
    let c := s.chan (32 * n + (off - 0x200) / 16)
    if off % 16 = 0 then c.hits.toNat + flagAt c.hitSat 31 + c.misses.toNat * 2 ^ 32 + flagAt c.missSat 63
    else c.nWrites.toNat + flagAt c.writeSat 31 + c.extOps.toNat * 2 ^ 32 + flagAt c.extSat 63
  else match off with
    | 0x400 => x.memErrAddr.toNat + x.memErrKind.toNat * 2 ^ 48 + x.memErrCode.toNat * 2 ^ 52
    | 0x500 => (if s.railOn n then s.domainMv n else 0) + twos 5 (x.balance / 5) * 2 ^ 10 + x.throttle / 5 * 2 ^ 15 +
        flagAt x.regionOff 22 + tempField x.tmax * 2 ^ 23 +
        ((List.range 16).filter (fun i => x.invalid.getLsbD i)).length * 2 ^ 31
    | 0x508 => x.powerW.toNat + x.ballastW.toNat * 2 ^ 16
    | 0xFF8 => x.groups.toNat
    | _ => 0
/-- STATE of PORT_STATE (Table 11.10). -/
def PortStat.code : PortStat → Nat
  | .down => 0
  | .training => 1
  | .up => 2
  | .failed => 3
  | .retired => 4
  | .idleSpare => 5
/-- A register of the port block of a physical port. -/
def State.readPortReg (s : State) (p off : Nat) : Nat :=
  let x := s.port p
  match off with
  | 0x00 => x.stat.code + x.logical.toNat * 2 ^ 3 + flagAt x.bound 9 + flagAt x.degraded 10 + flagAt x.laserOk 11 +
      x.partnerDev.toNat * 2 ^ 16 + x.partnerPort.toNat * 2 ^ 36 + flagAt x.partnerSwitch 43 + x.linkVersion.toNat * 2 ^ 48 + 2 ^ 56
  | 0x08 => x.framesTx.toNat + flagAt x.txSat 31 + x.resends.toNat * 2 ^ 32 + flagAt x.resendSat 63
  | 0x10 => x.framesRx.toNat + flagAt x.rxSat 31 + x.drops.toNat * 2 ^ 32 + flagAt x.dropSat 63
  | 0x18 => x.stale.toNat + flagAt x.staleSat 31 + x.badFrames.toNat * 2 ^ 32 + flagAt x.badSat 63
  | 0x20 => x.errCode.toNat + x.errFlow.toNat * 2 ^ 12
  | 0xF8 => x.groups.toNat
  | _ => 0
/-- IN_FLIGHT of a submission ring: its fetched descriptors without a posted outcome (Table 12.14). -/
def State.ringInFlight (s : State) (i : Nat) : Nat :=
  let mine (o : OutRec) : Bool := o.reserved && o.ring == i
  satField 9 ((s.flights.filter (fun f => f.ring == i)).length +
    (s.cq.map (fun c => (c.2.waiting.filter mine).length + (match c.2.held with
      | some h => if mine h.1 then 1 else 0
      | none => 0))).foldl (· + ·) 0)
/-- A register of the ring block. -/
def State.readRingReg (s : State) (off : Nat) : Nat :=
  let i := off % 0x2000 / 0x40
  if off < 0x2000 then
    let r := s.sring i
    match off % 0x40 with
    | 0x00 => r.base.toNat * 2 ^ 6
    | 0x08 => r.size.toNat + r.cq.toNat * 2 ^ 17 + r.weight.toNat * 2 ^ 24 + flagAt r.enable 28
    | 0x10 => r.db.toNat * 2 ^ 6
    | 0x18 => r.head.toNat + r.expect.toNat * 2 ^ 32
    | 0x20 => s.ringInFlight i + flagAt r.halted 9 + r.haltFault.toNat * 2 ^ 10
    | _ => 0
  else
    let c := s.cring i
    match off % 0x40 with
    | 0x00 => c.base.toNat * 2 ^ 5
    | 0x08 => c.size.toNat + flagAt c.enable 17
    | 0x10 => c.db.toNat * 2 ^ 6
    | 0x18 => c.posted.toNat + c.headSeen.toNat * 2 ^ 32
    | _ => 0
/-- A register of the link block. -/
def State.readLinkReg (s : State) (off : Nat) : Nat :=
  let l := s.link
  if 0x40 ≤ off ∧ off < 0x60 then
    let w := Map.get {} l.wins ((off - 0x40) / 8)
    w.sizeLog2.toNat + flagAt w.readOnly 6 + flagAt w.wing 7 + w.base.toNat * 2 ^ 30
  else if 0x100 ≤ off ∧ off < 0x300 then
    let a := Map.get {} l.apsel ((off - 0x100) / 8)
    a.target.toNat + a.mode.toNat * 2 ^ 32 + a.group.toNat * 2 ^ 34
  else match off with
    | 0x00 => 1 + l.version.toNat * 2 ^ 8 + l.width.toNat * 2 ^ 16 + flagAt l.up 22
    | 0x08 => l.resends.toNat + flagAt l.resendSat 31 + l.badFlits.toNat * 2 ^ 32 + flagAt l.badSat 63
    | 0x10 => l.errCode.toNat
    | 0x18 => l.setupFault.toNat + l.setupTarget.toNat * 2 ^ 16
    | 0x80 => l.opMap0.toNat
    | 0x88 => l.opMap1.toNat
    | _ => 0

/-! ### Plinth block -/

/-- The wing whose register PLINTH_x_w shows: the west one in whole-wafer mode (R55, R220, R282, R478). -/
def State.copyOf (s : State) (w : Nat) : Nat := s.lead w
/-- The wing that PLINTH_BOOT_w shows: its own until the first capstone (R380). -/
def State.bootOf (s : State) (w : Nat) : Nat := if s.capstoned then s.lead w else w
/-- The wings over which PLINTH_BOOT_w counts. -/
def State.bootWings (s : State) (w : Nat) : List Nat := if s.capstoned && !s.split then [0, 1] else [w]
/-- PLINTH_RESERVE_n (Table 1.9). -/
def State.reserveWord (s : State) (n : Nat) : Nat :=
  let x := s.cluster n
  let (mp, rows, ret) := x.reserve
  mp + rows * 2 ^ 4 + ret * 2 ^ 8 + satField 4 (s.spareChans n).length * 2 ^ 16 + flagAt x.reserveLow 20 + flagAt x.geomLost 21
/-- PLINTH_PACE_w (Table 2.6). -/
def WingState.paceWord (x : WingState) : Nat :=
  x.paceCount.toNat + flagAt x.paceValid 32 + flagAt x.refFault 33 + x.windowTag.toNat * 2 ^ 40
/-- PLINTH_FLOW_w (Table 7.7). -/
def WingState.flowWord (x : WingState) : Nat :=
  x.epoch.toNat + flagAt x.draining 2 + x.drainCause.toNat * 2 ^ 3 + flagAt x.allEmpty 6 + flagAt x.drainTimeout 7 +
  x.lastDrain.toNat * 2 ^ 8
/-- PLINTH_MESH_w (Table 9.12). -/
def State.meshWord (s : State) (w : Nat) : Nat :=
  let x := s.wing (s.copyOf w)
  flagAt x.level 0 + flagAt (s.seamKnown && !s.seamFailed) 1 + s.seamSpared * 2 ^ 2 + flagAt x.snapValid 12 +
  x.snapFault.toNat * 2 ^ 16 + x.overCourse.toNat * 2 ^ 32 + flagAt x.overValid 38
/-- ATTN of PLINTH_BOOT_w: of the wafer where the register is a copy (R373, R380). -/
def State.attnOf (s : State) (w : Nat) : Bool := (s.bootWings w).any (fun v => (s.wing v).attn)
/-- PLINTH_BOOT_w (Table 13.8). -/
def State.bootWord (s : State) (w : Nat) : Nat :=
  let x := s.wing (s.bootOf w)
  let ws := s.bootWings w
  let up := ((List.range 64).filter (fun l => ws.contains (wingOfGateway l) && s.portUp l)).length
  let clus := ((List.range 48).filter (fun n => ws.contains (wingOfCluster n) && (s.cluster n).selfTested)).length
  x.phase.toNat + x.lastKind.toNat * 2 ^ 4 + flagAt (s.split || x.reform.any (fun r => r.toSplit)) 7 + flagAt s.link.up 8 +
  up * 2 ^ 9 + x.failCode.toNat * 2 ^ 16 + x.elapsed.toNat * 2 ^ 32 + clus * 2 ^ 46 + flagAt (s.attnOf w) 52
/-- PLINTH_BOOT_TIME_w (Table 13.9). -/
def WingState.timeWord (x : WingState) : Nat :=
  (List.range 6).foldl (fun a i => a + Map.get 0 x.times (i + 1) % 1024 * 2 ^ (10 * i)) 0
/-- The two words of an entry of the spall map. -/
def State.spallWord (s : State) (index : Nat) : Nat :=
  match s.health.spall[index]? with
  | some e => spallBits e
  | none => 0
/-- The two words of a slot of the health log (R408). -/
def State.logWord (s : State) (index : Nat) : Nat :=
  match s.health.log.find? (fun e => e.1 == index) with
  | some e =>
    let x := e.2
    x.code.toNat + x.kind.toNat * 2 ^ 16 + x.loc.toNat * 2 ^ 20 + x.verdict.toNat * 2 ^ 44 + flagAt x.pack 47 +
    x.result.toNat * 2 ^ 48 + x.seconds.toNat * 2 ^ 64 + x.boundary.toNat * 2 ^ 96
  | none => 0
/-- The two words of an entry of the ledger (Table 16.7). -/
def State.ledgerWord (s : State) (index : Nat) : Nat :=
  match s.sec.ledger[index]? with
  | some e => ledgerBits index e
  | none => 0
/-- Word j of a number. -/
def wordOf (j n : Nat) : Nat := n / 2 ^ (64 * j) % 2 ^ 64
/-- The INDEX fields that select what the data registers show (R456). -/
structure Indexes where
  spall : Nat
  log : Nat
  ledger : Nat
  meas : Nat
deriving DecidableEq, Repr
/-- The companion's INDEX fields. -/
def State.ownIndexes (s : State) : Indexes :=
  ⟨s.health.spallIndex.toNat, s.health.logIndex.toNat, s.sec.ledgerIndex.toNat, s.sec.measIndex.toNat⟩
/-- The sideband's copies of the INDEX fields (R456). -/
def State.sbIndexes (s : State) : Indexes :=
  ⟨s.sb.spallIndex.toNat, s.sb.logIndex.toNat, s.sb.ledgerIndex.toNat, s.sb.measIndex.toNat⟩
/-- The health registers (Table 14.8). -/
def State.readHealth (s : State) (ix : Indexes) (off : Nat) : Nat :=
  let h := s.health
  match off with
  | 0xC00 => flagAt h.autoTest 0 + h.period.toNat * 2 ^ 8 + h.obsSteps.toNat * 2 ^ 16 + h.repeatWindow.toNat * 2 ^ 48
  | 0xC08 => h.lastEvent.toNat + satField 20 s.observedUnits.length * 2 ^ 16 +
      flagAt (s.west.overdue || s.east.overdue) 36
  | 0xC10 => ix.spall + h.spall.length * 2 ^ 20
  | 0xC18 => wordOf 0 (s.spallWord ix.spall)
  | 0xC20 => wordOf 1 (s.spallWord ix.spall)
  | 0xC28 => ix.log + h.written.toNat * 2 ^ 10 + flagAt h.writtenSat 42 + h.newest.toNat * 2 ^ 43
  | 0xC30 => wordOf 0 (s.logWord ix.log)
  | 0xC38 => wordOf 1 (s.logWord ix.log)
  | 0xC40 => s.west.changed.toNat + s.west.moved.toNat * 2 ^ 48 + flagAt s.west.movedSat 63
  | 0xC48 => s.east.changed.toNat + s.east.moved.toNat * 2 ^ 48 + flagAt s.east.movedSat 63
  | 0xC50 => s.pack.activeId.toNat + s.pack.pendingId.toNat * 2 ^ 16 + flagAt s.pack.suspect 32 + s.pack.state.toNat * 2 ^ 33 +
      s.pack.fault.toNat * 2 ^ 36
  | 0xC58 => s.pack.src.toNat
  | 0xC60 => s.pack.len.toNat
  | _ => 0
/-- PLINTH_PWR_WING_w (Table 15.3). -/
def WingPower.word (p : WingPower) : Nat :=
  p.prefOp.toNat + flagAt p.following 3 + p.followOp.toNat * 2 ^ 4 + p.vCommon % 1024 * 2 ^ 16 + p.limit.toNat * 2 ^ 26 +
  flagAt p.gating 29
/-- The power registers (Table 15.3). -/
def State.readPower (s : State) (off : Nat) : Nat :=
  let p := s.power
  let j := p.energy / 100000000
  match off with
  | 0xD00 => p.cap.toNat + p.slope.toNat * 2 ^ 16 + p.westShare.toNat * 2 ^ 28
  | 0xD08 => satField 16 (p.avg2s / 100000) + satField 16 (p.avg1ms / 100000) * 2 ^ 16 +
      satField 16 (((if s.split then [0, 1] else [0]).map (fun w => (s.wing w).power.ballast)).sum / 100000) * 2 ^ 32 +
      s.west.power.limit.toNat * 2 ^ 48 + flagAt s.west.power.gating 51
  | 0xD10 => s.pwrInputWord
  | 0xD18 => satField 63 j + flagAt (Nat.ble (2 ^ 63 - 1) j) 63
  | 0xD20 => (s.wing (s.copyOf 0)).power.word
  | 0xD28 => (s.wing (s.copyOf 1)).power.word
  | 0xD30 => s.thermWord
  | 0xD38 => s.pwrErrWord
  | _ => 0
/-- The security registers (Table 16.7). -/
def State.readSec (s : State) (ix : Indexes) (off : Nat) : Nat :=
  let x := s.sec
  if 0xE38 ≤ off ∧ off < 0xE58 then (Map.get 0 x.nonce ((off - 0xE38) / 8)).toNat
  else if 0xE58 ≤ off ∧ off < 0xE78 then wordOf ((off - 0xE58) / 8) (Config.markPk x.identGen).toNat
  else if 0xE98 ≤ off ∧ off < 0xEB8 then wordOf ((off - 0xE98) / 8) (s.measurement ix.meas).toNat
  else match off with
    | 0xE00 => 1 + x.identGen % 32 * 2 ^ 8 + flagAt x.unlocked 13 + flagAt x.unlockPending 14 + x.debugTrans % 16 * 2 ^ 15 +
        x.floor % 256 * 2 ^ 19
    | 0xE08 => flagAt x.active 0 + flagAt x.onTrial 1 + flagAt x.fellBack 2 + flagAt (x.trialMark == some (!x.active)) 3 +
        x.slot0.state.toNat * 2 ^ 4 + x.slot1.state.toNat * 2 ^ 6 + x.slot0.svn.toNat * 2 ^ 8 + x.slot1.svn.toNat * 2 ^ 16
    | 0xE10 => x.fwSrc.toNat
    | 0xE18 => x.fwLen.toNat
    | 0xE20 => x.fwState.toNat + x.fwFault.toNat * 2 ^ 3 + x.cmdState.toNat * 2 ^ 19 + x.cmdFault.toNat * 2 ^ 22
    | 0xE28 => x.op.toNat + x.arg.toNat * 2 ^ 8
    | 0xE30 => x.addr.toNat
    | 0xE78 => ix.ledger + satField 9 x.ledger.length * 2 ^ 16
    | 0xE80 => wordOf 0 (s.ledgerWord ix.ledger)
    | 0xE88 => wordOf 1 (s.ledgerWord ix.ledger)
    | 0xE90 => ix.meas
    | _ => 0
/-- PLINTH_MODE_w (Table 18.4). -/
def State.modeWord (s : State) (w : Nat) : Nat :=
  let l := s.copyOf w
  let x := s.wing l
  let ws := s.wings l
  flagAt s.split 0 + flagAt s.wholeAvail 1 + flagAt x.level 2 +
  flagAt (x.power.limit == 1 || x.power.limit == 2 || x.power.gating) 3 + flagAt s.sec.unlocked 4 + flagAt x.halted 5 +
  flagAt x.haltPending 6 + flagAt (x.phase == 10) 7 + satField 20 (s.observedUnits.filter (fun e => ws.contains (s.unitWing e.1))).length * 2 ^ 16 +
  ((List.range 48).filter (fun n => ws.contains (wingOfCluster n) && (s.cluster n).reserveLow)).length * 2 ^ 36 + 2 ^ 48
/-- PLINTH_MIRROR_SRC_n (Table 10.5). -/
def MirrorSrc.word (m : MirrorSrc) : Nat := m.owner.toNat + flagAt m.valid 20 + m.offsetGib.toNat * 2 ^ 24
/-- PLINTH_FAB_ID_w (Table 11.9). -/
def Fabric.idWord (f : Fabric) : Nat := f.id.toNat + flagAt f.idSet 20 + 2 ^ 24
/-- The registers of geometry, update tables, domains, fabric and bring-up that stand alone. -/
def State.readPlinth1 (s : State) (off : Nat) : Nat :=
  match off with
  | 0x000 => 1 + 2 ^ 8
  | 0x008 => 0x340 + 0x330 * 2 ^ 12 + 8 * 2 ^ 24 + 6 * 2 ^ 28 + 0x68 * 2 ^ 32 + 0x88 * 2 ^ 40 + 0x70 * 2 ^ 48 + 0x90 * 2 ^ 56
  | 0x010 => 4 + 0x20 * 2 ^ 4 + 0x28 * 2 ^ 12 + 0x10 * 2 ^ 20 + 0x50 * 2 ^ 28 + 0x184 * 2 ^ 36
  | 0x300 => (s.wing (s.copyOf 0)).paceWord
  | 0x308 => (s.wing (s.copyOf 1)).paceWord
  | 0x600 => 1
  | 0x608 => s.groupBase.toNat * 2 ^ 9 + s.groupLimit.toNat * 2 ^ 48
  | 0x610 => s.curveBase.toNat * 2 ^ 9 + s.curveLimit.toNat * 2 ^ 48
  | 0x700 => (s.wing (s.copyOf 0)).flowWord
  | 0x708 => (s.wing (s.copyOf 1)).flowWord
  | 0x800 => s.meshWord 0
  | 0x808 => s.meshWord 1
  | 0x900 => s.domainId.toNat + flagAt s.domainSet 16 + 2 ^ 24
  | 0x980 => s.mapFault.toNat + s.mapEntry.toNat * 2 ^ 16 + s.mapDevice.toNat * 2 ^ 29 + flagAt (s.split && s.mapWing) 49
  | 0xA00 => s.west.fab.idWord
  | 0xA08 => s.east.fab.idWord
  | 0xA10 => s.hopLimit.toNat + s.extTimeout.toNat * 2 ^ 16
  | 0xB00 => s.bootWord 0
  | 0xB08 => s.bootWord 1
  | 0xB10 => s.west.timeWord
  | 0xB18 => s.east.timeWord
  | 0xF00 => s.modeWord 0
  | 0xF08 => s.modeWord 1
  | _ => 0
/-- A register of the plinth block, with the INDEX fields of the reader (R359, R456). -/
def State.readPlinth (s : State) (ix : Indexes) (off : Nat) : Nat :=
  if 0x100 ≤ off ∧ off < 0x280 then s.reserveWord ((off - 0x100) / 8)
  else if 0x400 ≤ off ∧ off < 0x580 then
    let x := s.cluster ((off - 0x400) / 8)
    x.waitPermille.toNat + flagAt x.lagging 10
  else if 0x908 ≤ off ∧ off < 0x948 then (Map.get {} s.mirrorSrc ((off - 0x908) / 8)).word
  else if 0xC00 ≤ off ∧ off < 0xD00 then s.readHealth ix off
  else if 0xD00 ≤ off ∧ off < 0xE00 then s.readPower off
  else if 0xE00 ≤ off ∧ off < 0xF00 then s.readSec ix off
  else if 0x20000 ≤ off ∧ off < 0x40000 then (Map.get 0 s.west.fab.route ((off - 0x20000) / 8)).toNat
  else if 0x40000 ≤ off ∧ off < 0x60000 then (Map.get 0 s.east.fab.route ((off - 0x40000) / 8)).toNat
  else s.readPlinth1 off

end Sys2Proof.Machine
end

