-- ==== Sys2Proof/Machine/RegCmds.lean ====
section
/-!
DEFINITION. Writes of registers, by block and access code (R7, R8, R359 to R361), set-up accesses and bonded-memory windows
with their answers (R338, R339, R362), and the register writes with an action.
-/

namespace Sys2Proof.Machine

/-! ### Core, cluster, port and ring blocks -/

/-- A write to CORE_LIMIT: after a running step's outcome, otherwise at once; later starts check the limits again (R294). -/
def Core.writeLimit (running : Bool) (v : Word) (c : Core) : Core :=
  let l : Limit := { c.limit with pend := some v }
  { c with limit := if running then l else l.settle }
/-- A write to CORE_MEM_RELEASE: at once, or after a running step's outcome (R170). -/
def Core.writeRelease (running : Bool) (mask : Byte) (c : Core) : Core :=
  { c with mem := if running then { c.mem with releasePend := c.mem.releasePend ||| mask } else c.mem.turnOff mask }
/-- A write of 1s to CORE_ARITH_STATUS clears those flags (R100). -/
def Core.clearStatus (mask : Word) (c : Core) : Core :=
  { c with arith := { c.arith with status := c.arith.status &&& ~~~(mask.setWidth 9) } }
/-- CLEAR in CORE_FLOW_STALE (Table 7.6). -/
def Core.clearStale (c : Core) : Core := { c with flow := { c.flow with staleCount := 0, staleSat := false, staleEpoch := 0 } }
/-- CLEAR in CORE_RT_LINK_n (R281). -/
def Core.clearLink (n : Nat) (c : Core) : Core :=
  c.setMlink n { c.mlink n with resends := 0, resendSat := false, lastAttempts := 0 }
/-- A write to a register of the core block; fields that are RO ignore it (R8). -/
def Core.writeReg (running : Bool) (off : Nat) (v : Word) (c : Core) : Core :=
  if 0x908 ≤ off ∧ off < 0x928 then (if bit v 63 then c.clearLink ((off - 0x908) / 8) else c)
  else match off with
    | 0x200 => { c with arith := { c.arith with rmodeDefault := BitVec.ofNat 2 (bits v 1 0), satDefault := bit v 2 } }
    | 0x218 => c.clearStatus v
    | 0x518 => c.writeRelease running (v.setWidth 8)
    | 0x618 => if bit v 63 then c.clearStale else c
    | 0xC00 => c.writeLimit running v
    | 0xC10 => { c with groups := v }
    | _ => c
/-- The programs of a wing see a write of CORE_LIMIT (R294). -/
def WingState.noteLimit (x : WingState) : WingState :=
  { x with progs := x.progs.map (fun p => (p.1, { p.2 with limitWritten := true })) }
/-- A write to a core register of one core. -/
def State.writeCore (s : State) (c off : Nat) (v : Word) : State :=
  let w := wingOf c
  let s1 := s.onCore c (Core.writeReg (s.stepRuns w) off v)
  if off = 0xC00 then s1.onWing (s1.lead w) WingState.noteLimit else s1
/-- Whether the companion reaches the cluster and core blocks and the bonded memory of a wing: from its first capstone since the cold
reset on, unless it has FAILED (R372, R373). -/
def State.reached (s : State) (w : Nat) : Bool :=
  let x := s.wing w
  (Nat.ble 7 x.phase.toNat && Nat.ble x.phase.toNat 9) || (x.phase == 11 && (x.warmPhase != 0 || x.reform.isSome))
/-- A write to a core register of every core of the wings that satisfies p (R360). -/
def State.writeCores (s : State) (p : Core → Bool) (off : Nat) (v : Word) : State :=
  [0, 1].foldl (fun (t : State) w =>
    if t.reached w = false then t
    else
      let f (c : Core) : Core := if p c then c.writeReg (t.stepRuns w) off v else c
      let t1 := t.onWing w (fun x => x.mapCores f)
      if off = 0xC00 then t1.onWing (t1.lead w) WingState.noteLimit else t1) s

/-- A write to a register of the cluster block. -/
def State.writeClus (s : State) (n off : Nat) (v : Word) : State :=
  if off = 0xFF8 then s.onCluster n (fun x => { x with groups := v }) else s
/-- CLEAR in PORT_ERR: the port's counters and their flags (R330). -/
def Port.clear (x : Port) : Port :=
  { x with framesTx := 0, txSat := false, resends := 0, resendSat := false, framesRx := 0, rxSat := false, drops := 0,
           dropSat := false, stale := 0, staleSat := false, badFrames := 0, badSat := false }
/-- A write to a register of the port block. -/
def State.writePort (s : State) (p off : Nat) (v : Word) : State :=
  if off = 0x20 then (if bit v 63 then s.onPort p Port.clear else s)
  else if off = 0xF8 then s.onPort p (fun x => { x with groups := v })
  else s

/-- ENABLE of a submission ring: 0 drops the abort marks; 1 after 0 clears HALTED and reads the doorbell line (R341, R344,
R357). -/
def State.enableSq (s : State) (i : Nat) (on : Bool) : State :=
  let r := s.sring i
  let en := on && sizeOk r.size
  let s1 := s.onSring i (fun x => { x with
    enable := en, marks := if en then x.marks else [],
    halted := if en && !r.enable then false else x.halted })
  if en && !r.enable && s.link.up then s1.readShared (s1.sring i).dbAddr (.doorbell false i) else s1
/-- ENABLE of a completion ring: held records are posted once it is 1 (R344). -/
def State.enableCq (s : State) (j : Nat) (on : Bool) : State :=
  let c := s.cring j
  let en := on && sizeOk c.size
  let s1 := s.onCring j (fun x => { x with enable := en })
  if en && !c.enable && s.link.up then s1.readShared (s1.cring j).dbAddr (.doorbell true j) else s1
/-- A write to a register of the ring block. -/
def State.writeRing (s : State) (off : Nat) (v : Word) : State :=
  let i := off % 0x2000 / 0x40
  if off < 0x2000 then
    match off % 0x40 with
    | 0x00 => s.onSring i (fun r => { r with base := BitVec.ofNat 58 (bits v 63 6) })
    | 0x08 => (s.onSring i (fun r => { r with
        size := BitVec.ofNat 17 (bits v 16 0), cq := BitVec.ofNat 7 (bits v 23 17), weight := BitVec.ofNat 4 (bits v 27 24) })).enableSq
          i (bit v 28)
    | 0x10 => s.onSring i (fun r => { r with db := BitVec.ofNat 58 (bits v 63 6) })
    | 0x18 => if (s.sring i).enable then s else s.onSring i (fun r => { r with
        head := BitVec.ofNat 32 (bits v 31 0), expect := BitVec.ofNat 32 (bits v 63 32) })
    | _ => s
  else
    match off % 0x40 with
    | 0x00 => s.onCring i (fun c => { c with base := BitVec.ofNat 59 (bits v 63 5) })
    | 0x08 => (s.onCring i (fun c => { c with size := BitVec.ofNat 17 (bits v 16 0) })).enableCq i (bit v 17)
    | 0x10 => s.onCring i (fun c => { c with db := BitVec.ofNat 58 (bits v 63 6) })
    | 0x18 => if (s.cring i).enable then s else s.onCring i (fun c => { c with posted := BitVec.ofNat 32 (bits v 31 0) })
    | _ => s
/-- CLEAR in LINK_ERR: LINK_CNT and LAST_CODE (Table 12.15). -/
def Link.clear (l : Link) : Link := { l with resends := 0, resendSat := false, badFlits := 0, badSat := false, errCode := 0 }
/-- A write to a register of the link block. -/
def State.writeLink (s : State) (off : Nat) (v : Word) : State :=
  let l := s.link
  let win : LinkWin := { sizeLog2 := BitVec.ofNat 6 (bits v 5 0), readOnly := bit v 6, wing := bit v 7, base := BitVec.ofNat 18 (bits v 47 30) }
  let ap : Aperture := { target := BitVec.ofNat 32 (bits v 31 0), mode := BitVec.ofNat 2 (bits v 33 32), group := BitVec.ofNat 6 (bits v 39 34) }
  if 0x40 ≤ off ∧ off < 0x60 then { s with link := { l with wins := Map.set l.wins ((off - 0x40) / 8) win } }
  else if 0x100 ≤ off ∧ off < 0x300 then { s with link := { l with apsel := Map.set l.apsel ((off - 0x100) / 8) ap } }
  else match off with
    | 0x10 => if bit v 63 then { s with link := l.clear } else s
    | 0x80 => { s with link := { l with opMap0 := v } }
    | 0x88 => { s with link := { l with opMap1 := v } }
    | _ => s

/-! ### Plinth block -/

/-- ATTN_N follows the ATTN bits (R373); an in-band interrupt no longer due when it is released (R458). -/
def State.settleAttn (s : State) : State :=
  let a := s.west.attn || s.east.attn
  { s with pins := { s.pins with attn := a }, sb := { s.sb with ibiDue := s.sb.ibiDue && a, ibiRefused := s.sb.ibiRefused && a } }
/-- A write of 1 to ATTN of PLINTH_BOOT_w (R373, R380). -/
def State.clearAttn (s : State) (w : Nat) : State :=
  ((s.bootWings w).foldl (fun (t : State) v => t.onWing v (fun x => { x with attn := false })) s).settleAttn
/-- A write whose effect waits for the outcome of any running step (R297, R329, R361). -/
def State.writeFab (s : State) (off : Nat) (v : Word) : State := { s with deferred := s.deferred ++ [(off, v)] }.flushDeferred
/-- The health registers that software writes (Table 14.8). -/
def State.writeHealth (s : State) (off : Nat) (v : Word) : State :=
  let h := s.health
  match off with
  | 0xC00 => { s with health := { h with
      autoTest := bit v 0, period := BitVec.ofNat 8 (bits v 15 8), obsSteps := BitVec.ofNat 32 (bits v 47 16),
      repeatWindow := BitVec.ofNat 8 (bits v 55 48) } }
  | 0xC10 => { s with health := { h with spallIndex := BitVec.ofNat 20 (bits v 19 0) } }
  | 0xC28 => { s with health := { h with logIndex := BitVec.ofNat 10 (bits v 9 0) } }
  | 0xC58 => { s with pack := { s.pack with src := BitVec.ofNat 48 (bits v 47 0) } }
  | 0xC60 =>
    let s1 := { s with pack := { s.pack with len := BitVec.ofNat 25 (bits v 24 0) } }
    if bit v 63 then (s1.readImage s1.pack.src.toNat s1.pack.len.toNat).startPack (s1.imageAt s1.pack.src.toNat s1.pack.len.toNat)
    else s1
  | _ => s
/-- The security registers that software writes (Table 16.7); a token lies in bonded memory, 8,192 bytes long (R442). -/
def State.writeSec (s : State) (off : Nat) (v : Word) : State :=
  let x := s.sec
  if 0xE38 ≤ off ∧ off < 0xE58 then { s with sec := { x with nonce := Map.set x.nonce ((off - 0xE38) / 8) v } }
  else match off with
    | 0xE10 => { s with sec := { x with fwSrc := BitVec.ofNat 48 (bits v 47 0) } }
    | 0xE18 =>
      let s1 := { s with sec := { x with fwLen := BitVec.ofNat 24 (bits v 23 0) } }
      if bit v 63 then (s1.readImage s1.sec.fwSrc.toNat s1.sec.fwLen.toNat).startFw (s1.imageAt s1.sec.fwSrc.toNat s1.sec.fwLen.toNat)
      else s1
    | 0xE28 =>
      if bit v 63 then
        (if bits v 7 0 == 3 || bits v 7 0 == 4 then s.readImage x.addr.toNat 8192 else s).startSec (bits v 7 0) (bits v 15 8)
          (s.imageAt x.addr.toNat 8192)
      else { s with sec := { x with op := BitVec.ofNat 8 (bits v 7 0), arg := BitVec.ofNat 8 (bits v 15 8) } }
    | 0xE30 => { s with sec := { x with addr := v } }
    | 0xE78 => { s with sec := { x with ledgerIndex := BitVec.ofNat 9 (bits v 8 0) } }
    | 0xE90 => { s with sec := { x with measIndex := BitVec.ofNat 2 (bits v 1 0) } }
    | _ => s
/-- PLINTH_PWR_CTRL, from either party; the last write stands (R413, R428). -/
def State.writePwrCtrl (s : State) (v : Word) : State :=
  { s with power := { s.power with
      cap := BitVec.ofNat 16 (bits v 15 0), slope := BitVec.ofNat 12 (bits v 27 16), westShare := BitVec.ofNat 7 (bits v 34 28) } }
/-- CLEAR in PLINTH_PWR_ERR (Table 15.3). -/
def State.clearPwrErr (s : State) : State := { s with power := { s.power with lastFault := 0, errCluster := 0 } }
/-- A write to a register of the plinth block. -/
def State.writePlinth (s : State) (off : Nat) (v : Word) : State :=
  if (0x900 ≤ off ∧ off < 0x948) ∨ (0xA00 ≤ off ∧ off < 0xA18) ∨ (0x20000 ≤ off ∧ off < 0x60000) then s.writeFab off v
  else if 0xC00 ≤ off ∧ off < 0xD00 then s.writeHealth off v
  else if 0xE00 ≤ off ∧ off < 0xF00 then s.writeSec off v
  else match off with
    | 0x608 => { s with groupBase := BitVec.ofNat 39 (bits v 47 9), groupLimit := BitVec.ofNat 13 (bits v 60 48) }
    | 0x610 => { s with curveBase := BitVec.ofNat 39 (bits v 47 9), curveLimit := BitVec.ofNat 13 (bits v 60 48) }
    | 0xB00 => if bit v 52 then s.clearAttn 0 else s
    | 0xB08 => if bit v 52 then s.clearAttn 1 else s
    | 0xD00 => s.writePwrCtrl v
    | 0xD38 => if bit v 63 then s.clearPwrErr else s
    | _ => s

/-! ### Set-up accesses (R338, R359 to R362) -/

/-- What a set-up address selects (Table 12.13). -/
inductive SetupUnit
  | plinth (off : Nat)
  | ring (off : Nat)
  | link (off : Nat)
  | port (p off : Nat)
  | ports (group : Option Nat) (off : Nat)
  | cluster (n off : Nat)
  | clusters (group : Option Nat) (off : Nat)
  | core (a off : Nat)
  | unassigned
deriving DecidableEq, Repr
/-- Table 12.13. -/
def setupBlock (a : Nat) : SetupUnit :=
  if a < 0x100000 then .plinth a
  else if a < 0x104000 then .ring (a - 0x100000)
  else if 0x108000 ≤ a ∧ a < 0x109000 then .link (a - 0x108000)
  else if 0x110000 ≤ a ∧ a < 0x115000 then .port ((a - 0x110000) / 0x100) (a % 0x100)
  else if 0x118000 ≤ a ∧ a < 0x118100 then .ports none (a % 0x100)
  else if 0x11C000 ≤ a ∧ a < 0x120000 then .ports (some ((a - 0x11C000) / 0x100)) (a % 0x100)
  else if 0x120000 ≤ a ∧ a < 0x150000 then .cluster ((a - 0x120000) / 0x1000) (a % 0x1000)
  else if 0x150000 ≤ a ∧ a < 0x151000 then .clusters none (a % 0x1000)
  else if 0x160000 ≤ a ∧ a < 0x1A0000 then .clusters (some ((a - 0x160000) / 0x1000)) (a % 0x1000)
  else if 0x200000 ≤ a ∧ a < 0x240000 then .core ((a - 0x200000) / 0x1000) (a % 0x1000)
  else .unassigned
/-- What an access comes to: served, with the data that a read returns, or refused with a status, a code and a target. -/
inductive Answer
  | ok (data : Nat)
  | refused (status : Nat) (code : Code) (target : Nat)
deriving DecidableEq, Repr
/-- NO_TARGET (R362). -/
def noTarget (target : Nat) : Answer := .refused 1 (stepCode 0xA) target
/-- GROUP_READ (R362). -/
def groupRead (target : Nat) : Answer := .refused 2 (stepCode 0xB) target
/-- BAD_ACCESS (R362). -/
def badAccess (target : Nat) : Answer := .refused 3 (stepCode 0xC) target
/-- WINDOW_ERROR (R362). -/
def windowError (code : Code) (target : Nat) : Answer := .refused 4 code target

/-- The ports of an alias: all of them, or the members of a group (R360). -/
def State.portMembers (s : State) (g : Option Nat) : List Nat :=
  (List.range 80).filter (fun p => match g with
    | none => true
    | some k => (s.port p).groups.getLsbD k)
/-- The clusters of an alias on wings that can be reached (R360, R372, R373). -/
def State.clusMembers (s : State) (g : Option Nat) : List Nat :=
  (List.range 48).filter (fun n => s.reached (wingOfCluster n) && (match g with
    | none => true
    | some k => (s.cluster n).groups.getLsbD k))
/-- Whether a core is a member of what an aperture selects. -/
def Aperture.selects (a : Aperture) (c : Core) : Bool := a.mode == 2 || c.groups.getLsbD a.group.toNat
/-- Whether an aperture of MODE 1 or 2 selects any core of a wing that can be reached. -/
def State.anyCore (s : State) (a : Aperture) : Bool :=
  [0, 1].any (fun w => s.reached w && !(s.wing w).allCores (fun c => !a.selects c))
/-- A set-up write: the changed state and its answer. -/
def State.setupWrite (s : State) (addr : Nat) (v : Word) : State × Answer :=
  match setupBlock addr with
  | .plinth off => (s.writePlinth off v, .ok 0)
  | .ring off => (s.writeRing off v, .ok 0)
  | .link off => (s.writeLink off v, .ok 0)
  | .port p off => (s.writePort p off v, .ok 0)
  | .ports g off =>
    let ps := s.portMembers g
    if ps.isEmpty then (s, noTarget addr) else (ps.foldl (fun (t : State) p => t.writePort p off v) s, .ok 0)
  | .cluster n off => if s.reached (wingOfCluster n) = false then (s, noTarget addr) else (s.writeClus n off v, .ok 0)
  | .clusters g off =>
    let ns := s.clusMembers g
    if ns.isEmpty then (s, noTarget addr) else (ns.foldl (fun (t : State) n => t.writeClus n off v) s, .ok 0)
  | .core a off =>
    let ap := Map.get {} s.link.apsel a
    let c := ap.target.toNat
    if ap.mode = 0 then
      if validCore c = false ∨ s.reached (wingOf c) = false then (s, noTarget c) else (s.writeCore c off v, .ok 0)
    else if ap.mode = 3 ∨ s.anyCore ap = false then (s, noTarget addr)
    else (s.writeCores ap.selects off v, .ok 0)
  | .unassigned => (s, .ok 0)
/-- A set-up read. -/
def State.setupRead (s : State) (addr : Nat) : Answer :=
  match setupBlock addr with
  | .plinth off => .ok (s.readPlinth s.ownIndexes off)
  | .ring off => .ok (s.readRingReg off)
  | .link off => .ok (s.readLinkReg off)
  | .port p off => .ok (s.readPortReg p off)
  | .ports _ _ => groupRead addr
  | .cluster n off => if s.reached (wingOfCluster n) = false then noTarget addr else .ok (s.readClusReg n off)
  | .clusters _ _ => groupRead addr
  | .core a off =>
    let ap := Map.get {} s.link.apsel a
    let c := ap.target.toNat
    if ap.mode = 0 then
      if validCore c = false ∨ s.reached (wingOf c) = false then noTarget c else .ok (s.readCoreReg c off)
    else if ap.mode = 3 then noTarget addr
    else groupRead addr
  | .unassigned => .ok 0

/-- The window of a link address and the offset within it, if the window is enabled and holds it (R338). -/
def State.windowAt (s : State) (addr : Nat) : Option (LinkWin × Nat) :=
  let n := addr / 2 ^ 40
  let o := addr % 2 ^ 40
  if n = 0 ∨ 4 < n then none
  else
    let w := Map.get {} s.link.wins (n - 1)
    if 30 ≤ w.sizeLog2.toNat ∧ w.sizeLog2.toNat ≤ 39 ∧ o < 2 ^ w.sizeLog2.toNat then some (w, o) else none
/-- The wing of a window: the one that WING names in split mode (R339). -/
def State.winWing (s : State) (w : LinkWin) : Nat := if s.split && w.wing then 1 else 0
/-- A line access to a window: the global address, or why it is refused before memory is touched (R339, R362, R372, R373). -/
def State.windowLine (s : State) (w : LinkWin) (o addr : Nat) : Except Answer Nat :=
  let a := w.base.toNat * 2 ^ 30 + o
  let v := s.winWing w
  if s.reached v = false then .error (noTarget addr)
  else if bondedTop s.split < a + 64 then .error (windowError (stepCode 0xC) addr)
  else .ok (globalAddr s.split v a)
/-- A read of a line through a window: its whole block is read and checked (R339). -/
def State.windowRead (s : State) (w : LinkWin) (o addr : Nat) : State × Answer :=
  match s.windowLine w o addr with
  | .error e => (s, e)
  | .ok g =>
    let n := g / 512
    let s1 := s.countExt (blockChan n) 1
    if (s.block n).good then (s1, .ok (ofBytes (sliceBytes (s.block n).data (g % 512) 64)))
    else
      (s1.badBlock (wingOfChan (blockChan n)) n, windowError (memCode 9) addr)
/-- A write of a line through a window (R180, R339). -/
def State.windowWrite (s : State) (w : LinkWin) (o addr : Nat) (d : Desc) : State × Answer :=
  match s.windowLine w o addr with
  | .error e => (s, e)
  | .ok g =>
    if w.readOnly then (s, windowError (stepCode 0xC) addr)
    else match s.mergeBlock g (toBytes 64 d.toNat) with
      | some s1 => (s1, .ok 0)
      | none => ((s.countExt (blockChan (g / 512)) 1).recordChan g 4 0xD, windowError (memCode 0xD) addr)

/-- The answer goes to the companion; a refusal is recorded in LINK_SETUP_ERR (R361, R362). -/
def State.answered (r : State × Answer) : State :=
  let s := r.1
  match r.2 with
  | .ok d => { s with link := { s.link with toComp := s.link.toComp ++ [.setupResp 0 (BitVec.ofNat 512 d)] } }
  | .refused status code target => { s with link := { s.link with
      toComp := s.link.toComp ++ [.setupResp status 0], setupFault := code, setupTarget := BitVec.ofNat 32 target } }
/-- An access of the right size and alignment for the region that its address lies in (R338, R339, R361). -/
def State.access (s : State) (addr size : Nat) (setup : State × Answer) (win : LinkWin → Nat → State × Answer) : State × Answer :=
  if addr < 0x4000000 then (if size = 8 ∧ addr % 8 = 0 then setup else (s, badAccess addr))
  else match s.windowAt addr with
    | some (w, o) => if size = 64 ∧ o % 64 = 0 then win w o else (s, badAccess addr)
    | none => (s, badAccess addr)

/-- SETUP_WR (R361). While the link is down no access reaches the module (R362). -/
def execSetupWr (addr : BitVec 64) (size : Nat) (value : Desc) (s : State) : Res :=
  .next (
    if s.link.up then
      State.answered (s.access addr.toNat size (s.setupWrite addr.toNat (value.setWidth 64))
        (fun w o => s.windowWrite w o addr.toNat value))
    else s)
/-- SETUP_RD (R361, R362). -/
def execSetupRd (addr : BitVec 64) (size : Nat) (s : State) : Res :=
  .next (
    if s.link.up then
      State.answered (s.access addr.toNat size (s, s.setupRead addr.toNat) (fun w o => s.windowRead w o addr.toNat))
    else s)

/-! ### Register writes with an action -/

/-- CORE_LIMIT_WRITE (R294). -/
def execCoreLimitWrite (core : Nat) (value : Word) (s : State) : Res := atCore core (.next (s.writeCore core 0xC00 value))
/-- CORE_MEM_RELEASE (R170). -/
def execCoreMemRelease (core : Nat) (mask : Byte) (s : State) : Res :=
  atCore core (.next (s.writeCore core 0x518 (mask.setWidth 64)))
/-- CORE_ARITH_STATUS_CLEAR (R100). -/
def execCoreArithStatusClear (core : Nat) (mask : Word) (s : State) : Res :=
  atCore core (.next (s.writeCore core 0x218 mask))
/-- ATTN_CLEAR (R380). -/
def execAttnClear (wing : Nat) (s : State) : Res := atWing wing (.next (s.clearAttn wing))
/-- STALE_CLEAR (R219). -/
def execStaleClear (core : Nat) (s : State) : Res := atCore core (.next (s.onCore core Core.clearStale))
/-- RT_LINK_CLEAR (R281). -/
def execRtLinkClear (core : Nat) (link : BitVec 2) (s : State) : Res :=
  atCore core (.next (s.onCore core (Core.clearLink link.toNat)))
/-- PORT_CLEAR (R330). -/
def execPortClear (port : Nat) (s : State) : Res := below 80 port (.next (s.onPort port Port.clear))
/-- LINK_ERR_CLEAR (Table 12.15). -/
def execLinkErrClear (s : State) : Res := .next { s with link := s.link.clear }
/-- PWR_ERR_CLEAR (R428). -/
def execPwrErrClear (s : State) : Res := .next s.clearPwrErr
/-- PWR_CTRL_WRITE: it takes effect in the next control period (R413). -/
def execPwrCtrlWrite (_by : Party) (value : Word) (s : State) : Res := .next (if s.powered then s.writePwrCtrl value else s)
/-- SQ_ENABLE (R344). -/
def execSqEnable (ring : Nat) (on : Bool) (s : State) : Res := below 128 ring (.next (s.enableSq ring on))
/-- CQ_ENABLE (R344). -/
def execCqEnable (ring : Nat) (on : Bool) (s : State) : Res := below 128 ring (.next (s.enableCq ring on))

end Sys2Proof.Machine
end

