-- ==== Sys2Proof/Machine/DebugCmds.lean ====
section
/-!
DEFINITION. Debug halts (R476) and control words (R263, R264).
-/

namespace Sys2Proof.Machine

/-- DEBUG_HALT_REQUEST: while unlocked; at once when no array descriptor runs, else pending. -/
def execDebugHaltRequest (wing : Nat) (s : State) : Res :=
  atWing wing (.next (
    let l := s.lead wing
    if s.sec.unlocked && !(s.wing l).halted then
      s.onWing l (fun x => { x with halted := (s.runningArray l).isNone, haltPending := (s.runningArray l).isSome })
    else s))
/-- DEBUG_HALT_ENTER: a pending halt takes effect once no array descriptor runs. -/
def execDebugHaltEnter (wing : Nat) (s : State) : Res :=
  atWing wing (.next (
    let l := s.lead wing
    if (s.wing l).haltPending && (s.runningArray l).isNone then
      s.onWing l (fun x => { x with halted := true, haltPending := false })
    else s))
/-- DEBUG_STEP: every core of a halted wing advances one beat. -/
def execDebugStep (wing : Nat) (s : State) : Res :=
  atWing wing (.next (
    let l := s.lead wing
    if (s.wing l).halted then s.mapCores l (fun c => c.tick {} false) else s))
/-- DEBUG_RELEASE: coupling resumes, and a halt still pending goes. -/
def execDebugRelease (wing : Nat) (s : State) : Res :=
  atWing wing (.next (s.onWing (s.lead wing) (fun x => { x with halted := false, haltPending := false })))

/-- A control word that fails its CRC: the step ends with LINK:0x002, and from then on the core acts as at a drain notice
(R263). -/
def State.badControl (s : State) (core : Nat) : State :=
  let s1 := s.coreFault core (.link 2 5 0)
  if (s1.core core).flow.sink then s1 else s1.onCore core (fun c => c.notice true)
/-- A start beat reaches a wing (R53, R264): a slot boundary that lies far enough ahead becomes that of the step which has been
prepared; the controller sends no other. -/
def State.commandStart (s : State) (l b : Nat) : State :=
  match s.sched l with
  | some (r, x) => match s.prog l r.handle with
    | some p =>
      if r.began = false ∧ b % 4 = 0 ∧ s.maxBeat l + startLead s.split p.image x ≤ b then
        s.onWing l (fun v => { v with run := some { r with start := b } })
      else s
    | none => s
  | none => s

/-- CONTROL_WORD: a drain notice, the start beat of a step's first layer, or a set-up write (R263, R264). -/
def execControlWord (core : Nat) (w : CtrlWord) (crcOk : Bool) (s : State) : Res :=
  atCore core (.next (
    if crcOk then
      match w with
      | .drainNotice => s.noticeAt core
      | .startBeat b => s.commandStart (s.lead (wingOf core)) b.toNat
      | .setup off v => s.writeCore core off.toNat v
    else s.badControl core))

end Sys2Proof.Machine
end

