-- ==== Sys2Proof/Machine/LoadCheck.lean ====
section
/-!
DEFINITION. PROGRAM_LOAD (R349, R350): the checks of a whole image in one order (log 33), core limits (R293, R294), resident
sections (R295), and the installation of an image (R215, R237, R349, R350).
-/

namespace Sys2Proof.Machine

/-! ### The image -/

/-- The mode that an image is compiled for: whether it is split mode (R349). -/
def imgSplit (img : Image) : Bool := bit img.header 8
/-- Whether a header field is out of range (R349). -/
def headerBad (d : Desc) (img : Image) : Bool :=
  bits img.header 7 0 != 1 || !onlyFields img.header [(7, 0), (8, 8), (63, 32), (95, 64)] ||
  bits img.header 63 32 != bits d 287 256 || 64 + img.body.length != bits d 287 256 ||
  img.records.any (fun r => r.rsv != 0 || Nat.blt 3 r.kind.toNat ||
    (match r.kind.toNat with
     | 0 => r.target.toNat % 64 != 0 || Nat.blt 98304 (r.target.toNat + r.bytes.length)
     | 2 => r.target.toNat % 512 != 0
     | _ => r.target != 0))
/-- Whether the CRC of an image fails (R349). -/
def imageCrcBad (img : Image) : Bool := crc32c img.body != BitVec.ofNat 32 (bits img.header 95 64)
/-- Every address word of an image (R302). -/
def imgWords (img : Image) : List Nat :=
  (img.records.filter (fun r => r.kind != 2)).map (fun r => r.core.toNat) ++ img.courses.map (·.1) ++ img.tallies.map (·.1) ++
  img.steps.flatMap (fun x => schedCores x ++ x.patches.map (·.1) ++ x.orders.map (·.core) ++
    x.binds.map (fun b => if b.bus then bits b.raw 127 96 else bindPeer b) ++
    (x.binds.filter (fun b => !b.bus && bindGoverned b)).map bindTokenPeer ++
    x.cmds.filterMap (fun c => match c.word with
      | .router w => if (bits w 3 0 = 1 ∧ bit w 8 = false) ∨ (bits w 3 0 = 3 ∧ bit w 28 = true) then some (routerTarget w) else none
      | _ => none))
/-- Whether an image names a word that names no core (R22, MAP:0x002). -/
def wordsBad (img : Image) : Bool := (imgWords img).any (fun c => (globalCore (imgSplit img) 0 c).isNone)
/-- Whether an image names a bonded address beyond the space of its mode (R171, R349). -/
def addressesBad (img : Image) : Bool :=
  let top := bondedTop (imgSplit img)
  let beyond (a n : Nat) : Bool := Nat.blt top (a + n)
  img.records.any (fun r => r.kind == 2 && beyond r.target.toNat r.bytes.length) ||
  img.steps.any (fun x => x.lists.any (fun l => l.descs.any (fun d => !descInSpace (imgSplit img) d))) ||
  img.groups.any (fun g => beyond g.stateBase (512 * g.blocks) || beyond g.gradBase (128 * g.blocks) ||
    g.pre.any (fun p => beyond p.statL (4 * p.p * p.p) || beyond p.statR (4 * p.q * p.q) || beyond p.rootL0 (4 * p.p * p.p) ||
      beyond p.rootR0 (4 * p.q * p.q) || beyond p.rootL1 (4 * p.p * p.p) || beyond p.rootR1 (4 * p.q * p.q)))

/-! ### Sections and patches (R165, R289) -/

/-- The masks of a core in a step (R165). -/
def masksFit (m : Masks) : Bool :=
  (m.entry ||| m.keep ||| m.scrub) &&& ~~~m.footprint == 0 && m.scrub &&& m.entry == 0
/-- No line of an ENTRY section is written at a beat after the step has read it, whoever reads or writes it (R165). -/
def entryKept (split : Bool) (img : Image) (x : StepSched) (core : Nat) : Bool :=
  let m := schedMask x core
  let layers := (List.range x.layers.length).map (fun i =>
    (layerBase x i, i, coreReplay split img x i (layerReads split img x i) core))
  let at_ (b : Nat) (es : List (Nat × Nat × Nat)) : List (Nat × Nat × Nat) := es.map (fun e => (b + e.1, e.2))
  let reads := layers.flatMap (fun (b, i, c) => at_ b (engineReads img x core i ++ c.reads' x core i))
  let writes := layers.flatMap (fun (b, i, c) => at_ b (producerWrites split x core i ++ c.writes' split (layerBeats x i)))
  let line (e : Nat × Nat × Nat) : Nat × Nat := (e.2.1 / 64 * 64, roundUp (e.2.1 + e.2.2) 64 - e.2.1 / 64 * 64)
  m.entry == 0 || reads.all (fun r => writes.all (fun w =>
    Nat.ble w.1 r.1 || r.2.2 == 0 || w.2.2 == 0 || !overlaps (line r).1 (line r).2 (line w).1 (line w).2 ||
    (List.range 8).all (fun j => !bit m.entry j || !overlaps (max (line r).1 (line w).1)
      (min ((line r).1 + (line r).2) ((line w).1 + (line w).2) - max (line r).1 (line w).1) (12288 * j) 12288)))
/-- The counts of a program: participants of courses and of wafer courses within the span, and buffers of tally pairs, or 0 (R266,
R271). -/
def countsInRange (img : Image) : Bool :=
  img.courses.all (fun e => Nat.blt e.2.1 16 && Nat.ble e.2.2 64) &&
  img.waferCourses.all (fun e => Nat.blt e.1 64 && Nat.ble e.2 (if imgSplit img then 339456 else 678912)) &&
  img.tallies.all (fun e => Nat.blt e.2.1 32 && Nat.ble e.2.2 256)
/-- A patch record (Table 10.2, R289). Its core has descriptor lists, whose sections hold it (log 58). -/
def patchOk (img : Image) (x : StepSched) (p : Nat × BitVec 128) : Bool :=
  let n := bits p.2 21 19 + 1
  let m := schedMask x p.1
  bits p.2 63 35 == 0 && bits p.2 18 17 != 3 && (bits p.2 18 17 != 2 || bits p.2 127 64 == 0) &&
  Nat.blt (bits p.2 34 22) (img.seqs * img.heads) && img.steps.any (fun y => y.lists.any (fun l => l.core == p.1)) && inSections (m.entry ||| m.scrub) (bits p.2 16 0) n
/-- The format checks of one step: every load check that refuses with STEP:0x001. -/
def stepFormat (img : Image) (x : StepSched) : Bool :=
  let split := imgSplit img
  Nat.ble 1 x.layers.length && Nat.ble x.layers.length 256 && x.masks.all (fun m => masksFit m.2) &&
  (schedCores x).all (commandsOk x img) && (List.range x.layers.length).all (fun i => loopsOk split x i && busesOk split x i && replayOk split img x i) &&
  x.orders.all (fun o => bits o.word 63 40 == 0) && descsOk img x && coursesOk split img x && linksOk split img x &&
  (schedCores x).all (entryKept split img x) && x.patches.all (patchOk img x) &&
  (schedCores x).all (fun c => Nat.ble (x.patches.filter (fun p => p.1 == c)).length 64)
/-- Every list of the program lies in sections that each step holds in FOOTPRINT, ENTRY and KEEP (R225). -/
def listsKept (img : Image) : Bool :=
  let lists := img.steps.flatMap (fun x => x.lists)
  img.steps.all (fun y => lists.all (fun l =>
    let m := schedMask y l.core
    inSections (m.footprint &&& m.entry &&& m.keep) l.addr (64 * l.descs.length)))
/-- The checks that refuse with STEP:0x001 (R72, R117, R126, R154, R165, R192, R202, R225, R236, R253, R260, R262, R265, R266,
R269, R271, R284, R289). -/
def formatOkImage (img : Image) : Bool :=
  (img.kind == .step || img.steps.length == 1) && countsInRange img && img.steps.all (stepFormat img) && listsKept img

/-! ### Limits (R293, R294) -/

/-- What a program's use of a resource goes beyond. -/
structure Overflow where
  core : Nat
  resource : Nat
  layer : Nat
  value : Nat
deriving DecidableEq, Repr
/-- The least number of a list, if any. -/
def least : List Nat → Option Nat
  | [] => none
  | x :: xs => some (xs.foldl min x)
/-- The first overflow of a core in one layer: tiles, slots, depth, send and receive endpoints, in this order. -/
def layerOver (l : Limit) (x : StepSched) (core i : Nat) : Option (Nat × Nat) :=
  let cs := schedOwn x core i
  let bs := (layerBinds x i false).filter (fun b => b.core == core)
  let tiles := cs.flatMap (fun c => match c.word with
    | .tensor w => (List.range 8).filter (fun t => bit w (16 + t))
    | _ => [])
  let slots := cs.filterMap (fun c => match c.word with
    | .dma w => if bits w 3 0 = 0 then none else some (bits w 10 8)
    | _ => none)
  let cap (n most : Nat) : Nat := min n most
  let overran (r : Nat) (xs : List Nat) (n : Nat) : Option (Nat × Nat) := (least (xs.filter (fun v => Nat.ble n v))).map (fun v => (r, v))
  overran 1 tiles (cap l.tiles.toNat 8) <|> overran 2 slots (cap l.slots.toNat 8) <|>
  overran 3 ((bs.filter (fun b => bindKind b != 2)).map bindDepth) (cap l.depth.toNat 16 + 1) <|>
  overran 4 ((bs.filter (fun b => bindKind b != 1)).map bindEp) (cap l.sendEp.toNat 16) <|>
  overran 5 ((bs.filter (fun b => bindKind b == 1)).map bindEp) (cap l.recvEp.toNat 16)
/-- The union of FOOTPRINT over a program's steps at a core (R293). -/
def footUnion (img : Image) (core : Nat) : Byte := img.steps.foldl (fun m x => m ||| (schedMask x core).footprint) 0
/-- The first overflow of a core: sections, then its layers in order. -/
def coreOver (l : Limit) (img : Image) (core : Nat) : Option Overflow :=
  let beyond := footUnion img core &&& ~~~l.sections
  match (List.range 8).find? (fun j => bit beyond j) with
  | some j => some ⟨core, 0, 0, j⟩
  | none => img.steps.findSome? (fun x => (List.range x.layers.length).findSome? (fun i =>
      (layerOver l x core i).map (fun r => ⟨core, r.1, i, r.2⟩)))
/-- Every core of an image, in order of Y and then X. -/
def imgCores (img : Image) : List Nat :=
  ((img.steps.flatMap schedCores ++ (img.records.filter (fun r => r.kind == 0)).map (fun r => r.core.toNat)).eraseDups.foldl
    (fun m c => Map.set m c ()) ([] : List (Nat × Unit))).map (·.1)
/-- A core of an image on the wing that it is loaded on. -/
def imgCore (img : Image) (w c : Nat) : Nat := (globalCore (imgSplit img) w c).getD c
/-- The first overflow of a program at the limits in force (R294). -/
def State.overflow (s : State) (w : Nat) (img : Image) : Option Overflow :=
  (imgCores img).findSome? (fun c => coreOver (s.core (imgCore img w c)).limit img c)
/-- CORE_MAP_ERR of the core of an overflow (R294 to R296). -/
def State.noteOver (s : State) (core : Nat) (o : Overflow) : State :=
  s.onCore core (fun c => { c with limit := { c.limit with
    errCode := 1, errResource := BitVec.ofNat 3 o.resource, errLayer := BitVec.ofNat 8 o.layer, errValue := BitVec.ofNat 8 o.value } })
/-- A descriptor is refused with MAP:0x001, which names the core (R294, R295). -/
def State.refuseOver (s : State) (f : Flight) (img : Image) (o : Overflow) : State :=
  (s.noteOver (imgCore img f.wing o.core) o).refuseAt f (mapCode 1) 1 o.core

/-! ### Resident sections (R295) -/

/-- The sections that a byte range touches. -/
def touched (a n : Nat) : Byte :=
  (List.range 8).foldl (fun (m : Byte) j => if overlaps a n (12288 * j) 12288 then m ||| BitVec.ofNat 8 (2 ^ j) else m) 0
/-- The sections that an image writes at a core: its records and its descriptor lists (R225, R349). -/
def imgWrites (img : Image) (core : Nat) : Byte :=
  (img.records.filter (fun r => r.kind == 0 && r.core.toNat == core)).foldl (fun m r => m ||| touched r.target.toNat r.bytes.length)
    ((img.steps.flatMap (fun x => x.lists.filter (fun l => l.core == core))).foldl (fun m l => m ||| touched l.addr (64 * l.descs.length)) 0)
/-- The sections of a core that other loaded programs hold resident. -/
def State.residents (s : State) (w handle core : Nat) : Byte :=
  ((s.wing (s.lead w)).progs.filter (fun p => p.1 != handle)).foldl (fun (m : Byte) p =>
    (imgCores p.2.image).foldl (fun (k : Byte) c =>
      if imgCore p.2.image p.2.wing c = core then k ||| imgWrites p.2.image c else k) m) 0
/-- The first section that an image touches and another program holds resident (R295). -/
def State.trespass (s : State) (w handle : Nat) (img : Image) : Option Overflow :=
  (imgCores img).findSome? (fun c =>
    let uses := img.steps.foldl (fun (m : Byte) x => m ||| ((schedMask x c).footprint &&& ~~~(schedMask x c).entry)) (imgWrites img c)
    let bad := uses &&& s.residents w handle (imgCore img w c)
    ((List.range 8).find? (fun j => bit bad j)).map (fun j => ⟨c, 0, 0, j⟩))

/-! ### PROGRAM_LOAD -/

/-- The first block of an image in bonded memory that fails its CRC. -/
def State.imageBad (s : State) (w : Nat) (d : Desc) : Option Nat :=
  if bit d 161 then
    ((List.range (ceilDiv (bits d 255 192 + bits d 287 256) 512 - bits d 255 192 / 512)).map (fun i =>
      s.blockAt w (512 * (bits d 255 192 / 512 + i)))).find? (fun n => !(s.block n).good)
  else none
/-- Why a load is refused, if it is (R349); log 33 gives the order. -/
def State.loadRefusal (s : State) (f : Flight) (img : Image) : Option Code :=
  let d := f.words
  let handle := bits d 159 128
  let progs := (s.wing (s.lead f.wing)).progs
  let here := progs.any (fun p => p.1 == handle)
  if bit d 161 ∧ bondedTop s.split < bits d 255 192 + bits d 287 256 then some (mapCode 4)
  else if imageCrcBad img then some (stepCode 0xD)
  else if headerBad d img then some (stepCode 1)
  else if here ∧ bit d 160 = false then some (stepCode 1)
  else if wordsBad img then some (mapCode 2)
  else if addressesBad img then some (mapCode 4)
  else if !formatOkImage img then some (stepCode 1)
  else if !here && Nat.ble 16 progs.length then some (stepCode 9)
  else none
/-- One core-memory record: its sections come on, and it is written in whole lines (R350). -/
def CoreMem.install (m : CoreMem) (a : Nat) (bs : List Byte) : CoreMem :=
  let secs := touched a bs.length
  let data := padTo (roundUp bs.length 64) bs
  CoreMem.writeLines { m with on := m.on ||| secs, retained := m.retained &&& ~~~secs } (a / 64) data (data.length / 64)
/-- The core-memory records of an image, its lists among them: core, address, bytes (R225, R349). -/
def imgRecords (img : Image) : List (Nat × Nat × List Byte) :=
  (img.records.filter (fun r => r.kind == 0)).map (fun r => (r.core.toNat, r.target.toNat, r.bytes)) ++
  img.steps.flatMap (fun x => x.lists.map (fun l => (l.core, l.addr, l.descs.flatMap (fun d => toBytes 64 d.toNat))))
/-- The mask blocks of an image, tagged with the handle (R237). -/
def State.installMasks (s : State) (w handle : Nat) (img : Image) : State :=
  (img.records.filter (fun r => r.kind == 2)).foldl (fun (t : State) r =>
    (chunks 512 r.bytes.length r.bytes).zipIdx.foldl (fun (u : State) e =>
      if e.1.isEmpty then u
      else u.extWrite (globalAddr s.split w (r.target.toNat + 512 * e.2) / 512) (mkBlock e.1 (BitVec.ofNat 32 handle))) t) s
/-- The reconfiguration's drain ends at its first sample, and the epoch advances (R210, R215). -/
def State.reconfigure (s : State) (w : Nat) : State :=
  let l := s.lead w
  let e := (s.wing l).epoch + 1
  let s1 := (s.wings l).foldl (fun (t : State) v => t.onWing v (fun x =>
    { x.mapCores (fun c => { c with flow := { c.flow with epoch := e } }) with epoch := e })) s
  { s1.onWing l (fun x => { x with
      drainCause := 3, allEmpty := true, drainTimeout := false, lastDrain := Config.freeBeats s.freeCtr }) with
    freeCtr := s.freeCtr + 1 }
/-- An image that has passed its checks is written: records into cores, masks into bonded memory; the earlier program of its
handle goes (R350). It is installed under its handle at the commit point. -/
def State.installImage (s : State) (f : Flight) (img : Image) : State :=
  let l := s.lead f.wing
  let handle := bits f.words 159 128
  let p : Prog := { image := img, seed := BitVec.ofNat 64 (bits f.words 351 288), wing := f.wing }
  let recs := (imgRecords img).map (fun r => (imgCore img f.wing r.1, r.2))
  let s1 := (s.reconfigure l).onWing l (fun x => { x with
    progs := x.progs.filter (fun q => q.1 != handle), loading := some (handle, p) })
  let s2 := recs.foldl (fun (t : State) r => t.onCore r.1 (fun c => { c with mem := c.mem.install r.2.1 r.2.2 })) s1
  let s3 := s2.installMasks f.wing handle img
  let aux := recs.foldl (fun (m : List (Nat × Nat)) r => Map.set m r.1 ((touched r.2.1 r.2.2.length).toNat ||| Map.get 0 m r.1)) []
  s3.onFlight f.ring f.seq (fun g => { g with ready := true, aux := aux })
/-- A load starts: every check of the image, then its installation; its drain waits until every core is empty (R215, R349,
R350). -/
def State.startLoad (s : State) (f : Flight) (img : Image) : State :=
  let t := s.begin_ f
  match s.loadRefusal f img with
  | some c => s.refuse f c
  | none =>
    match s.overflow f.wing img <|> s.trespass f.wing (bits f.words 159 128) img with
    | some o => s.refuseOver f img o
    | none =>
      let t1 := if bit f.words 161 then t.countExtRead f.wing (bits f.words 255 192) (bits f.words 287 256) else t
      match s.imageBad f.wing f.words with
      | some n => (t1.badBlock f.wing n).endFlight f 2 (memCode 9) 4 (blockChan n)
      | none => t1.installImage f img
/-- At a load's commit point every section that it wrote is retained, and the program stands under its handle (R350). -/
def State.commitLoad (s : State) (f : Flight) : State :=
  let l := s.lead f.wing
  let s1 := f.aux.foldl (fun (t : State) e => t.onCore e.1 (fun c =>
    let m := BitVec.ofNat 8 e.2
    { c with mem := { c.mem with on := c.mem.on &&& ~~~m, retained := c.mem.retained ||| m } })) s
  s1.onWing l (fun x => { x with
    progs := match x.loading with
      | some e => Map.set x.progs e.1 e.2
      | none => x.progs
    loading := none })

end Sys2Proof.Machine
end

