-- ==== Sys2Proof/Machine/VectorOps.lean ====
section
/-!
DEFINITION. What the vector engine's commands do to one core (R121 to R128): lanes, the exact functions rounded
once (R125), and one operation over a function of the lanes.
-/

namespace Sys2Proof.Machine

/-- The fixed-point precision, in bits, at which the functions of R125 are evaluated before the one rounding (log 5). -/
def fxBits : Nat := 256

/-- ln 2 in fixed point: the sum of 1 / (n 2^n), n from k down to 1. -/
def ln2Sum : Nat → Nat
  | 0 => 0
  | n + 1 => 2 ^ fxBits / ((n + 1) * 2 ^ (n + 1)) + ln2Sum n

/-- ln 2 in fixed point. -/
def ln2Fx : Nat := ln2Sum (fxBits + 8)

/-- The terms t x^n / n! from term n on, in fixed point. -/
def expSum : Nat → Nat → Nat → Nat → Nat
  | 0, _, _, _ => 0
  | f + 1, n, x, t => t + expSum f (n + 1) x (t * x / 2 ^ fxBits / (n + 1))

/-- 2^f for a fixed-point f below 1, in fixed point. -/
def exp2Frac (f : Nat) : Nat := expSum 80 0 (f * ln2Fx / 2 ^ fxBits) (2 ^ fxBits)

/-- The terms z^(2n+1) / (2n+1), in fixed point; zz is z squared. -/
def atanhSum : Nat → Nat → Nat → Nat → Nat
  | 0, _, _, _ => 0
  | f + 1, n, zz, p => p / (2 * n + 1) + atanhSum f (n + 1) zz (p * zz / 2 ^ fxBits)

/-- log2 of y / 2^b for 2^b ≤ y < 2^(b+1), in fixed point. -/
def log2Frac (y b : Nat) : Nat :=
  let z := (y - 2 ^ b) * 2 ^ fxBits / (y + 2 ^ b)
  2 * atanhSum 90 0 (z * z / 2 ^ fxBits) z * 2 ^ fxBits / ln2Fx

/-- 2^x (R125); a value that is no power of two carries a sticky bit. -/
def Num.exp2 : Num → Num
  | .nan => .nan
  | .inf neg => if neg then .fin false 0 0 else .inf false
  | .fin neg m e =>
    if m = 0 then .fin false 1 0
    else if expOf m e ≥ 9 then (if neg then .fin false 1 (-600) else .fin false 1 600)
    else
      let s : Int := scaledInt neg m e (min e 0)
      let d := 2 ^ (-(min e 0)).toNat
      let k := s / Int.ofNat d
      let r := (s % Int.ofNat d).toNat
      if r = 0 then .fin false 1 k
      else .fin false (2 * exp2Frac (r * 2 ^ fxBits / d) + 1) (k - Int.ofNat fxBits - 1)

/-- log2 x (R125); a value that is no integer carries a sticky bit. -/
def Num.log2 : Num → Num
  | .nan => .nan
  | .inf neg => if neg then .nan else .inf false
  | .fin neg m e =>
    if m = 0 then .inf true
    else if neg then .nan
    else
      let b := Nat.log2 m
      let k := expOf m e
      if m = 2 ^ b then numOfInt k
      else
        let s := k * 2 ^ fxBits + Int.ofNat (log2Frac m b)
        .fin (decide (s < 0)) (2 * s.natAbs + 1) (-(Int.ofNat fxBits) - 1)

/-- 1 / √x (R125), with a sticky bit where it is not exact. -/
def Num.rsqrt : Num → Num
  | .nan => .nan
  | .inf neg => if neg then .nan else .fin false 0 0
  | .fin neg m e =>
    if m = 0 then .inf neg
    else if neg then .nan
    else
      let k := 180 + (if e % 2 = 0 then 0 else 1)
      let r := isqrtFrom 92 (2 ^ k / m) 0
      .fin false (2 * r + (if m * r * r = 2 ^ k then 0 else 1)) ((-e - Int.ofNat k) / 2 - 1)

/-- Lane i of a vector register (R121). -/
def vlane (x : BitVec 1024) (i : Nat) : F32 := BitVec.ofNat 32 (x.toNat / 2 ^ (32 * i))
/-- BF16 element i of a vector register (R121). -/
def vhalf (x : BitVec 1024) (i : Nat) : BitVec 16 := BitVec.ofNat 16 (x.toNat / 2 ^ (16 * i))
/-- A vector register from its lanes. -/
def ofLanes (xs : List F32) : BitVec 1024 := BitVec.ofNat 1024 (packNat 32 (xs.map (·.toNat)))
/-- A vector register from its 64 BF16 values. -/
def ofHalves (xs : List (BitVec 16)) : BitVec 1024 := BitVec.ofNat 1024 (packNat 16 (xs.map (·.toNat)))

/-- A vector register of a core. -/
def Core.vreg (c : Core) (n : BitVec 5) : BitVec 1024 := Map.get 0 c.vec.regs n.toNat

/-- Lane i of the second source: lane 0 in every lane when BCAST_B is set (Table 5.1). -/
def vbLane (c : Core) (cmd : VCmd) (i : Nat) : F32 := vlane (c.vreg cmd.vb) (if cmd.bcastB then 0 else i)

/-- Whether lane i writes VD (PRED of Table 5.1). -/
def vwrites (c : Core) (cmd : VCmd) (i : Nat) : Bool := !cmd.pred || c.vec.pred.getLsbD i

/-- Writes the lanes of VD that the command writes. -/
def vwrite (c : Core) (cmd : VCmd) (f : Nat → F32) : Core :=
  let old := c.vreg cmd.vd
  let new := ofLanes ((List.range 32).map (fun i => if vwrites c cmd i then f i else vlane old i))
  { c with vec := { c.vec with regs := Map.set c.vec.regs cmd.vd.toNat new } }

/-- Counts the issue beats of the arithmetic unit (R128). -/
def vcount (c : Core) (n : Nat) : Core :=
  let (b, s) := satAdd c.vec.beats c.vec.sat n
  { c with vec := { c.vec with beats := b, sat := s } }

/-- A lane-wise command: issue beats and the result of each lane, or the parity fault of its reads (R124, R127). -/
def vLanes (c : Core) (cmd : VCmd) (issue : Nat) (f : Nat → F32) : Core × Option CoreFault :=
  match cmd.vrfErr with
  | some a => (c, some (.mem 7 6 a.toNat))
  | none => (vcount (vwrite c cmd f) issue, none)

/-- A lane-wise command of one FP32 function. -/
def vUnary (c : Core) (cmd : VCmd) (issue : Nat) (f : Num → Num) : Core × Option CoreFault :=
  vLanes c cmd issue (fun i => f32OfNum (f (numOfF32 (vlane (c.vreg cmd.va) i))))

/-- A lane-wise command of two operands, by type (R124). -/
def vBinary (c : Core) (cmd : VCmd) (f g : F32 → F32 → F32) : Core × Option CoreFault :=
  vLanes c cmd 1 (fun i =>
    let a := vlane (c.vreg cmd.va) i
    let b := vbLane c cmd i
    if cmd.ty = .int32 then g a b else f a b)

/-- The order of finite and infinite numbers with -0 below +0; neither is NaN (R125). -/
def f32Less (a b : F32) : Bool :=
  let key (x : F32) : Int := if x.toNat < 2 ^ 31 then Int.ofNat x.toNat else -(Int.ofNat (x.toNat - 2 ^ 31)) - 1
  decide (key a < key b)

/-- The canonical NaN (R125). -/
def f32Nan : F32 := 0x7FC00000#32
/-- Whether a pattern is a NaN. -/
def isNanF32 (a : F32) : Bool := numOfF32 a == .nan

/-- VMAX and VMIN on FP32 (R125). -/
def f32Max (a b : F32) : F32 := if isNanF32 a || isNanF32 b then f32Nan else if f32Less a b then b else a
/-- The smaller of two FP32 values (R125). -/
def f32Min (a b : F32) : F32 := if isNanF32 a || isNanF32 b then f32Nan else if f32Less b a then b else a
/-- VMAX on INT32. -/
def i32Max (a b : F32) : F32 := if a.toInt < b.toInt then b else a
/-- VMIN on INT32. -/
def i32Min (a b : F32) : F32 := if b.toInt < a.toInt then b else a

/-- IEEE comparison: equal, and less; both false with a NaN (R125). -/
def f32Eq (a b : F32) : Bool :=
  !(isNanF32 a || isNanF32 b) && (a == b || (decide (a.toNat % 2 ^ 31 = 0) && decide (b.toNat % 2 ^ 31 = 0)))
/-- IEEE less (R125). -/
def f32Lt (a b : F32) : Bool := !(isNanF32 a || isNanF32 b) && !f32Eq a b && f32Less a b

/-- The tests of VCMP (Table 5.2). -/
def vTest (t : VTest) (ty : VType) (a b : F32) : Bool :=
  match t, ty with
  | .eq, .int32 => a == b
  | .lt, .int32 => decide (a.toInt < b.toInt)
  | .le, .int32 => decide (a.toInt ≤ b.toInt)
  | .notFinite, .int32 => false
  | .eq, _ => f32Eq a b
  | .lt, _ => f32Lt a b
  | .le, _ => f32Eq a b || f32Lt a b
  | .notFinite, _ => !(numOfF32 a).finite

/-- VCMP: every predicate bit takes its lane's test (Table 5.2). -/
def veCmp (c : Core) (t : VTest) (cmd : VCmd) : Core × Option CoreFault :=
  match cmd.vrfErr with
  | some a => (c, some (.mem 7 6 a.toNat))
  | none =>
    let p := packNat 1 ((List.range 32).map (fun i =>
      if vTest t cmd.ty (vlane (c.vreg cmd.va) i) (vbLane c cmd i) then 1 else 0))
    (vcount { c with vec := { c.vec with pred := BitVec.ofNat 32 p } } 1, none)

/-- FP32 to INT32 toward zero, saturating, NaN giving 0 (R125). -/
def f32ToI32 (a : F32) : F32 := BitVec.ofNat 32 (roundInt 32 (numOfF32 a) 1 0 false).1
/-- INT32 to FP32 to nearest even (R125). -/
def i32ToF32 (a : F32) : F32 := f32OfNum (numOfInt a.toInt)

/-- BF16 to FP32, every NaN produced being the canonical one (R125). -/
def widenBf16 (x : BitVec 16) : F32 := f32OfNum (numOfF32 (f32OfBf16 x))

/-- VCVT (R125). The BF16 forms write one half of VD and keep the other. It sets no flag of CORE_ARITH_STATUS, whose flags are
those of the tensor engine's lanes and conversions (R100; log 52). -/
def veCvt (c : Core) (k : VCvt) (cmd : VCmd) : Core × Option CoreFault :=
  let a := c.vreg cmd.va
  let d := c.vreg cmd.vd
  match k with
  | .lowBf16ToF32 => vLanes c cmd 1 (fun i => widenBf16 (vhalf a i))
  | .highBf16ToF32 => vLanes c cmd 1 (fun i => widenBf16 (vhalf a (32 + i)))
  | .i32ToF32 => vLanes c cmd 1 (fun i => i32ToF32 (vlane a i))
  | .f32ToI32 => vLanes c cmd 1 (fun i => f32ToI32 (vlane a i))
  | .f32ToLowBf16 | .f32ToHighBf16 =>
    match cmd.vrfErr with
    | some e => (c, some (.mem 7 6 e.toNat))
    | none =>
      let base := if k = .f32ToLowBf16 then 0 else 32
      let new := ofHalves ((List.range 64).map (fun j =>
        if base ≤ j ∧ j < base + 32 ∧ vwrites c cmd (j - base) = true then bf16OfF32 (vlane a (j - base)) else vhalf d j))
      (vcount { c with vec := { c.vec with regs := Map.set c.vec.regs cmd.vd.toNat new } } 1, none)

/-- One level of the summing tree: neighbours added (R125). -/
def pairUp (f : F32 → F32 → F32) : List F32 → List F32
  | a :: b :: xs => f a b :: pairUp f xs
  | xs => xs

/-- VSUM: lane 0 takes the sum over the fixed tree of five levels, the other lanes 0 (R125). -/
def veSum (c : Core) (cmd : VCmd) : Core × Option CoreFault :=
  let f := if cmd.ty = .int32 then (fun a b : F32 => a + b) else f32Add
  let s := iter (pairUp f) 5 ((List.range 32).map (fun i => vlane (c.vreg cmd.va) i))
  vLanes c cmd 5 (fun i => if i = 0 then s.headD 0 else 0)

/-- VA^n by square-and-multiply from the most significant 1 bit down; bits of n below position b remain (R125). -/
def powiFrom (a : F32) (n : Nat) : Nat → F32 → F32
  | 0, r => r
  | b + 1, r =>
    let s := f32Mul r r
    powiFrom a n b (if n / 2 ^ b % 2 = 1 then f32Mul s a else s)

/-- VA^n for n at least 0 (R125). -/
def f32Powi (a : F32) (n : Nat) : F32 :=
  if n = 0 then 0x3F800000#32
  else if isNanF32 a then f32Nan
  else powiFrom a n (Nat.log2 n) a

/-- VPOWI; a lane whose n is below 0 takes a free value (R124), lane i the free value number ctr + i. -/
def vePowi (c : Core) (cmd : VCmd) (ctr : Nat) : Core × Option CoreFault :=
  vLanes c cmd 5 (fun i =>
    let n := (vbLane c cmd i).toInt
    if n < 0 then Config.freeF32 (ctr + i) else f32Powi (vlane (c.vreg cmd.va) i) n.toNat)

/-- VLD: VD takes 128 B of core memory (R122). -/
def veLoad (c : Core) (cmd : VCmd) : Core × Option CoreFault :=
  match cmd.vrfErr with
  | some a => (c, some (.mem 7 6 a.toNat))
  | none => match c.readMem cmd.addr.toNat 128 with
    | .error f => (c, some f)
    | .ok bs =>
      let x := BitVec.ofNat 1024 (ofBytes bs)
      (vwrite c cmd (fun i => vlane x i), none)

/-- VST: 128 B of core memory take VA (R122). -/
def veStore (c : Core) (cmd : VCmd) : Core × Option CoreFault :=
  match cmd.vrfErr with
  | some a => (c, some (.mem 7 6 a.toNat))
  | none => (c.writeMem cmd.addr.toNat (toBytes 128 (c.vreg cmd.va).toNat), none)

end Sys2Proof.Machine
end

