-- ==== Sys2Proof/Machine/PassOps.lean ====
section
/-!
DEFINITION. Update and refresh passes (R129 to R157): group entries, curves, the arithmetic of an update, the
preconditioner and its roots, block dispositions, the mirror's frames, and the result record.
-/

namespace Sys2Proof.Machine

/-! ### Bonded memory as a pass reads and writes it -/

/-- n bytes from a bonded address of a wing on, or the first global block that fails its CRC (R174). -/
def State.readBonded (s : State) (w a n : Nat) : Except Nat (List Byte) :=
  let first := a / 512
  let k := ceilDiv (a + n) 512 - first
  let blk (i : Nat) : Nat := globalAddr s.split w (512 * (first + i)) / 512
  match (List.range k).find? (fun i => !(s.block (blk i)).good) with
  | some i => .error (blk i)
  | none => .ok (sliceBytes ((List.range k).flatMap (fun i => (s.block (blk i)).data)) (a % 512) n)
/-- Counts the blocks that a pass reads from n bytes at a bonded address as scheduled reads of their channels: they look the reuse
cache up, which no stream of a pass fills (R181, R188, R301; log 25). -/
def State.countReads (s : State) (w : Nat) (rs : List (Nat × Nat)) : State :=
  rs.foldl (fun t r => (List.range (ceilDiv (r.1 + r.2) 512 - r.1 / 512)).foldl (fun t i =>
    (t.lookRead (t.blockAt w (512 * (r.1 / 512 + i))) false).1) t) s
/-- A whole block that a pass writes: a scheduled write of its channel (R174, R188). -/
def State.passWrite (s : State) (w a : Nat) (b : Block) : State :=
  (s.putBlock (s.blockAt w a) b).onChan (blockChan (s.blockAt w a)) (fun x => { x with
    nWrites := (satAdd x.nWrites x.writeSat 1).1, writeSat := (satAdd x.nWrites x.writeSat 1).2 })
/-- Bytes merged into a block whose tag is kept, where the block passes its CRC (R353). -/
def State.mergeBonded (s : State) (w a : Nat) (bs : List Byte) : Option State :=
  s.mergeBlock (globalAddr s.split w a) bs
/-- Bytes that a pass merges into a block: the block is read, and written whole with its tag kept, as scheduled accesses (R143,
R156, R188). -/
def State.passMerge (s : State) (w a : Nat) (bs : List Byte) : Option State :=
  let b := s.block (s.blockAt w a)
  let at_ := globalAddr s.split w a % 512
  if b.good then
    some ((s.countReads w [(a, bs.length)]).passWrite w a (mkBlock (b.data.take at_ ++ bs ++ b.data.drop (at_ + bs.length)) b.tag))
  else none

/-- What ends a pass: a block that fails its CRC, or a frame that finds no port (R157, R315). -/
inductive PassFault where
  | block (n : Nat)
  | noRoute (dev : Nat)
deriving DecidableEq, Repr

/-! ### Group entries and curves (R129, R134, R135, R139) -/

/-- STEP of a group entry. -/
def geStep (e : Desc) : Nat := bits e 63 32
/-- LAST_U of a group entry. -/
def geLastU (e : Desc) : Nat := bits e 95 64
/-- LAST_RR of a group entry. -/
def geLastRR (e : Desc) : Nat := bits e 127 96
/-- FROZEN of a group entry. -/
def geFrozen (e : Desc) : Bool := bit e 9
/-- PRECOND of a group entry. -/
def gePrecond (e : Desc) : Bool := bit e 10
/-- SCHED of a group entry: tabled. -/
def geTabled (e : Desc) : Bool := bit e 11
/-- NONFINITE_SKIP of a group entry. -/
def geSkip (e : Desc) : Bool := bit e 12
/-- ROOT_ACTIVE of a group entry. -/
def geActive (e : Desc) : Nat := bits e 13 13
/-- ROOT_STEP of a group entry. -/
def geRootStep (e : Desc) : Nat := bits e 159 128
/-- The FP32 field that starts at a bit of a group entry. -/
def geF32 (e : Desc) (lo : Nat) : F32 := BitVec.ofNat 32 (bits e (lo + 31) lo)
/-- A group entry with one field replaced. -/
def geSet (e : Desc) (hi lo v : Nat) : Desc :=
  BitVec.ofNat 512 (e.toNat - bits e hi lo * 2 ^ lo + v % 2 ^ (hi + 1 - lo) * 2 ^ lo)
/-- The address of a group entry (R139). -/
def geAddr (base n : Nat) : Nat := base + 64 * n

/-- Whether an entry's version, VALID or a reserved field makes its group bad (R143 rule 1). -/
def geMalformed (e : Desc) : Bool :=
  bits e 7 0 != 1 || !bit e 8 || bits e 15 14 != 0 || bits e 31 28 != 0 || bits e 511 422 != 0
/-- Whether an FP32 pattern lies in 0 ≤ β < 1 (R129). -/
def betaOk (n : Nat) : Bool := n == 0x80000000 || Nat.blt n 0x3F800000
/-- Whether an FP32 pattern is finite and above 0 (R129). -/
def posF32 (n : Nat) : Bool := finiteF32 n && n / 2 ^ 31 == 0 && n != 0
/-- The breakpoints of a curve block: STEP and VALUE (R134). -/
def curvePoints (bs : List Byte) : List (Nat × F32) :=
  ((List.range 64).map (fun i => (ofBytes (sliceBytes bs (8 * i) 4), BitVec.ofNat 32 (ofBytes (sliceBytes bs (8 * i + 4) 4))))).takeWhile
    (fun p => p.1 != 0xFFFFFFFF)
/-- Whether the STEPs of a list of breakpoints rise strictly. -/
def rising : List (Nat × F32) → Bool
  | a :: b :: r => Nat.blt a.1 b.1 && rising (b :: r)
  | _ => true
/-- Whether a curve has breakpoints that rise, with values finite and not below 0 (R134). -/
def curveOk (ps : List (Nat × F32)) : Bool := !ps.isEmpty && rising ps && ps.all (fun p => nonNegF32 p.2.toNat)
/-- Whether R129 makes a well-formed entry's group bad, given its curve where it has a valid one. -/
def geBad (e : Desc) (curve : Option (List (Nat × F32))) : Bool :=
  !betaOk (bits e 223 192) || !betaOk (bits e 255 224) || !posF32 (bits e 287 256) || !nonNegF32 (bits e 319 288) ||
  !nonNegF32 (bits e 191 160) || (geTabled e && curve.isNone) ||
  (gePrecond e && (!nonNegF32 (bits e 383 352) || !nonNegF32 (bits e 351 320) || !posF32 (bits e 415 384)))

/-- An unsigned integer as FP32, rounded once (R135). -/
def f32OfNat (n : Nat) : F32 := f32OfNum (numOfInt (Int.ofNat n))
/-- The rate between breakpoints (R135). -/
def rateFrom (t : Nat) : List (Nat × F32) → F32
  | (s0, v0) :: (s1, v1) :: r =>
    if s0 ≤ t ∧ t < s1 then f32Fma (f32Div (f32OfNat (t - s0)) (f32OfNat (s1 - s0))) (f32Sub v1 v0) v0
    else rateFrom t ((s1, v1) :: r)
  | [(_, v)] => v
  | [] => 0
/-- The base rate of a tabled group at target step t (R135). -/
def curveRate (ps : List (Nat × F32)) (t : Nat) : F32 :=
  match ps with
  | [] => 0
  | (s0, v0) :: _ => if t ≤ s0 then v0 else rateFrom t ps
/-- The valid curve that a tabled group names (R134); its block is read under its CRC. -/
def State.curveOf (s : State) (w : Nat) (p : Pass) (e : Desc) : Except Nat (Option (List (Nat × F32))) :=
  let id := bits e 27 16
  let a := p.curveBase + 512 * id
  if !geTabled e || Nat.ble p.curveLimit id || Nat.blt (bondedTop s.split) (a + 512) then .ok none
  else match s.readBonded w a 512 with
    | .error b => .error b
    | .ok bs => let ps := curvePoints bs
      .ok (if curveOk ps then some ps else none)

/-! ### The arithmetic of an update (R130, R131) -/

/-- 1.0 as FP32. -/
def f32One : F32 := 0x3F800000#32
/-- −x. -/
def f32Neg (x : F32) : F32 := x ^^^ 0x80000000#32
/-- The scalars of a group at its target step (R130). -/
structure Scalars where
  b1 : F32
  b2 : F32
  c1 : F32
  c2 : F32
  a1 : F32
  a2 : F32
  eps : F32
  eta : F32
  etaL : F32
/-- R130. -/
def scalarsOf (e : Desc) (t : Nat) (rate : F32) : Scalars :=
  let b1 := geF32 e 192
  let b2 := geF32 e 224
  let eta := f32Mul (geF32 e 160) rate
  { b1 := b1, b2 := b2, c1 := f32Div f32One (f32Sub f32One (f32Powi b1 t)), c2 := f32Div f32One (f32Sub f32One (f32Powi b2 t)),
    a1 := f32Sub f32One b1, a2 := f32Sub f32One b2, eps := geF32 e 256, eta := eta, etaL := f32Mul eta (geF32 e 288) }
/-- m1, v1, mh and p of one parameter (R131). -/
structure Moments where
  m1 : F32
  v1 : F32
  mh : F32
  p : F32
/-- The first lines of R131, from g on. -/
def momentsOf (k : Scalars) (m v g : F32) : Moments :=
  let m1 := f32Fma k.b1 m (f32Mul k.a1 g)
  let v1 := f32Fma k.b2 v (f32Mul (f32Mul k.a2 g) g)
  let mh := f32Mul m1 k.c1
  { m1 := m1, v1 := v1, mh := mh, p := f32Div mh (f32Add (f32Sqrt (f32Mul v1 k.c2)) k.eps) }
/-- w′ from the master and the direction (R131). -/
def masterOf (k : Scalars) (w d : F32) : F32 := f32Fma (f32Neg k.eta) d (f32Fma (f32Neg k.etaL) w w)

/-- FP32 element i of a byte string. -/
def f32At (bs : List Byte) (i : Nat) : F32 := BitVec.ofNat 32 (ofBytes (sliceBytes bs (4 * i) 4))
/-- BF16 element i from a byte on, widened (R131). -/
def bf16At (bs : List Byte) (base i : Nat) : F32 := f32OfBf16 (BitVec.ofNat 16 (ofBytes (sliceBytes bs (base + 2 * i) 2)))
/-- The 512 bytes of a state block (R141). -/
def stateBytes (ws ms vs : List F32) : List Byte :=
  ws.flatMap (fun x => toBytes 4 x.toNat) ++ ms.flatMap (fun x => toBytes 2 (bf16OfF32 x).toNat) ++
  vs.flatMap (fun x => toBytes 2 (bf16OfF32 x).toNat)
/-- The bytes of gradients that one state block uses (R142). -/
def gradBytes (bf : Bool) : Nat := if bf then 128 else 256
/-- The 64 elements g of a state block: each gradient element times GRAD_MULT (R131). -/
def gradsOf (bf : Bool) (mult : F32) (bs : List Byte) : List F32 :=
  (List.range 64).map (fun i => f32Mul (if bf then bf16At bs 0 i else f32At bs i) mult)
/-- Whether g holds a non-finite element (R136). -/
def nonFinite (gs : List F32) : Bool := gs.any (fun g => !finiteF32 g.toNat)
/-- The moments of the 64 parameters of a state block. -/
def blockMoments (k : Scalars) (data : List Byte) (gs : List F32) : List Moments :=
  gs.zipIdx.map (fun e => momentsOf k (bf16At data 256 e.2) (bf16At data 384 e.2) e.1)
/-- A state block updated with a direction for each parameter (R131, R141). -/
def updatedBlock (k : Scalars) (data : List Byte) (ms : List Moments) (dir : Nat → F32) : List Byte :=
  stateBytes (ms.zipIdx.map (fun e => masterOf k (f32At data e.2) (dir e.2))) (ms.map (·.m1)) (ms.map (·.v1))

/-! ### Matrices on the split-precision path (R88 to R90, R132, R145, R150) -/

/-- A matrix by rows. -/
abbrev Mat := List (List F32)
/-- An element of a matrix. -/
def matAt (a : Mat) (i j : Nat) : F32 := (a.getD i []).getD j 0
/-- A p × q matrix from its elements. -/
def matOf (p q : Nat) (f : Nat → Nat → F32) : Mat := (List.range p).map (fun i => (List.range q).map (f i))
/-- The segments of a reduction of length n: first index and length (R286). -/
def segRanges : Nat → Nat → List Nat → List (Nat × Nat)
  | lo, n, [] => if n = 0 then [] else [(lo, n)]
  | lo, n, k :: ks =>
    let m := min k n
    if m = 0 then segRanges lo n ks else (lo, m) :: segRanges (lo + m) (n - m) ks
/-- One segment's partial sum, in increasing k on the split-precision path (R89, R90). -/
def segSum (f g : Nat → F32) (r : Nat × Nat) : F32 :=
  (laneSplit {} ((List.range r.2).map (fun i => (r.1 + i, split32 (f (r.1 + i))))) (fun k => split32 (g k))).f32
/-- A product sum of length n: the partials are added in order (R89). -/
def dotSplit (segs : List Nat) (n : Nat) (f g : Nat → F32) : F32 :=
  match (segRanges 0 n segs).map (segSum f g) with
  | [] => 0
  | x :: xs => xs.foldl f32Add x
/-- A · B, with A p × n and B n × q. -/
def matMul (segs : List Nat) (p n q : Nat) (a b : Mat) : Mat :=
  matOf p q (fun i j => dotSplit segs n (fun k => matAt a i k) (fun k => matAt b k j))
/-- The transpose of a p × q matrix. -/
def matT (p q : Nat) (a : Mat) : Mat := matOf q p (fun i j => matAt a j i)
/-- Every element of a p × q matrix through a function. -/
def matMap (p q : Nat) (a : Mat) (f : Nat → Nat → F32 → F32) : Mat := matOf p q (fun i j => f i j (matAt a i j))
/-- The indices below n in a given order, those that it leaves out following in increasing order. -/
def fullOrder (order : List Nat) (n : Nat) : List Nat :=
  let o := (order.filter (fun i => Nat.blt i n)).eraseDups
  o ++ (List.range n).filter (fun i => !o.contains i)
/-- ‖A‖_F of a matrix of q columns, summed in an order of its row-major elements; each square is rounded before it is added (R132;
log 56). -/
def frobenius (order : List Nat) (p q : Nat) (a : Mat) : F32 :=
  f32Sqrt ((fullOrder order (p * q)).foldl (fun t i => f32Add t (f32Mul (matAt a (i / q) (i % q)) (matAt a (i / q) (i % q)))) 0)
/-- An n × n or p × q matrix of a byte string, row-major (R142). -/
def matBytes (p q : Nat) (bs : List Byte) : Mat := matOf p q (fun i j => f32At bs (i * q + j))
/-- The bytes of a matrix, row-major. -/
def bytesOfMat (a : Mat) : List Byte := a.flatMap (fun r => r.flatMap (fun x => toBytes 4 x.toNat))

/-- The directions of a preconditioner block (R132): PD where ROOT_STEP is 0, where nD is 0 or where a norm is not finite,
else DP × (nP / nD). -/
def graftedDir (b : PreBlock) (rootStep : Nat) (l r mh pd : Mat) : Mat :=
  if rootStep = 0 then pd
  else
    let dp := matMul b.segsQ b.p b.q b.q (matMul b.segsP b.p b.p b.q l mh) r
    let nP := frobenius b.normOrder b.p b.q pd
    let nD := frobenius b.normOrder b.p b.q dp
    if nD.toNat % 2 ^ 31 = 0 ∨ finiteF32 nD.toNat = false ∨ finiteF32 nP.toNat = false then pd
    else
      let sc := f32Div nP nD
      matMap b.p b.q dp (fun _ _ x => f32Mul x sc)

/-- One step of the coupled Newton iteration of R150. -/
def newtonStep (segs : List Nat) (n : Nat) (x : Mat × Mat) : Mat × Mat :=
  let t := matMap n n x.2 (fun i j m => f32Mul (f32Sub (if i = j then 0x40A00000#32 else 0) m) 0x3E800000#32)
  let tt := matMul segs n n n t t
  (matMul segs n n n x.1 t, matMul segs n n n (matMul segs n n n tt tt) x.2)
/-- |M − I| at its largest, none where an element is NaN (R150). -/
def newtonError (n : Nat) (m : Mat) : Option F32 :=
  (List.range n).foldl (fun acc i => (List.range n).foldl (fun (a : Option F32) j =>
    let d := (f32Sub (matAt m i j) (if i = j then f32One else 0)) &&& 0x7FFFFFFF#32
    if isNanF32 d then none else a.map (fun x => if x.toNat < d.toNat then d else x)) acc) (some 0)
/-- The inverse fourth root of a statistics matrix of size n, if it is accepted (R150). -/
def inverseRoot (segs : List Nat) (n : Nat) (eps tol : F32) (iters : Nat) (a : Mat) : Option Mat :=
  let tau := f32Div ((List.range n).foldl (fun t i => f32Add t (matAt a i i)) 0) (f32OfNat n)
  if tau.toNat % 2 ^ 31 = 0 then some (matOf n n (fun i j => if i = j then f32One else 0))
  else
    let damp := f32Mul eps tau
    let ad := matMap n n a (fun i j x => f32Add x (if i = j then damp else 0))
    let c4 := frobenius [] n n ad
    let c := f32Sqrt (f32Sqrt c4)
    let x0 := matOf n n (fun i j => if i = j then f32Div f32One c else 0)
    let m0 := matMap n n ad (fun _ _ x => f32Mul x (f32Div f32One c4))
    let (x, m) := iter (newtonStep segs n) iters (x0, m0)
    match newtonError n m with
    | some e => if e.toNat ≤ tol.toNat then some x else none
    | none => none

/-! ### Start checks (R155, R486) -/

/-- GROUP_LIMIT: values above 4,096 act as 4,096 (Table 5.4). -/
def State.groupCount (s : State) : Nat := min 4096 s.groupLimit.toNat
/-- The groups that a pass names. -/
def passGroups (d : Desc) : List Nat := (List.range (bits d 220 208)).map (fun i => bits d 203 192 + i)
/-- Where a program keeps a group. -/
def groupMap (img : Image) (g : Nat) : Option GroupMap := img.groups.find? (fun m => m.group == g)
/-- Whether an image is of a descriptor's family (R155, R351). -/
def kindFits (fam : Nat) (k : ProgKind) : Bool :=
  match k with
  | .step => fam == 2
  | .update => fam == 3
  | .refresh => fam == 4
/-- The handle that a STEP_RUN, UPDATE or ROOT_REFRESH names. -/
def dHandle (d : Desc) : Nat := if famOf d = 2 then bits d 159 128 else bits d 191 160
/-- The step schedule that a descriptor names: a pass runs the only one (R154, R351). -/
def dSel (d : Desc) : Nat := if famOf d = 2 then bits d 167 160 else 0
/-- Item 1 of R486: the program, and for a pass the groups, its mirror and their cover (R155). -/
def State.programBad (s : State) (f : Flight) (p : Prog) : Bool :=
  let d := f.words
  !kindFits (famOf d) p.image.kind || Nat.ble p.image.steps.length (dSel d) ||
  (famOf d != 2 && (Nat.blt s.groupCount (bits d 203 192 + bits d 220 208) ||
    (passGroups d).any (fun g => (groupMap p.image g).isNone) ||
    (bit d 256 && (s.fab f.wing).hasId && (s.fab f.wing).id.toNat == bits d 279 260)))
/-- Item 4 of R486: a bonded address beyond the space in force, that of the gradients by the descriptor's GRAD_FMT among them (R171). -/
def State.startBeyond (s : State) (f : Flight) (img : Image) : Bool :=
  let d := f.words
  let top := bondedTop s.split
  if famOf d = 2 then bit d 224 && Nat.blt top (bits d 287 240 + (if hasPatches img then plistBytes img else 1))
  else (bit d 258 && Nat.blt top (bits d 351 288 + 64)) ||
    Nat.blt top (geAddr (512 * s.groupBase.toNat) (bits d 203 192 + bits d 220 208)) ||
    (famOf d == 3 && img.groups.any (fun g => Nat.blt top (g.gradBase + gradBytes (bits d 283 280 == 1) * g.blocks)))
/-- The first core, in order of Y and then X, with an ENTRY section off (R167). -/
def State.entryMissing (s : State) (w : Nat) (x : StepSched) : Option Nat :=
  least ((x.masks.filter (fun m => (s.core (s.named w m.1)).mem.entryOff m.2)).map (·.1))
/-- Items 1 to 8 of R486 in order: the state that records the refusal, if there is one. -/
def State.startRefusal (s : State) (f : Flight) : Option State :=
  let d := f.words
  let l := s.lead f.wing
  let w := s.wing l
  match s.prog l (dHandle d) with
  | none => some (s.refuse f (stepCode 1))
  | some p =>
    let mirrored := famOf d != 2 && bit d 256
    if s.programBad f p then some (s.refuse f (stepCode 1))
    else if imgSplit p.image != s.split then some (s.refuse f (mapCode 3))
    else if famOf d == 2 && hasPatches p.image && !bit d 224 then some (s.refuse f (mapCode 6))
    else if s.startBeyond f p.image then some (s.refuse f (mapCode 4))
    else if mirrored && !(s.fab f.wing).hasId then some (s.refuse f (linkCode 0x40C))
    else if mirrored && !s.domainSet then some (s.refuse f (mapCode 8))
    else match (if p.limitWritten then s.overflow f.wing p.image else none) with
      | some o => some (s.refuseOver f p.image o)
      | none =>
        if w.refFault || w.refWait != 0 then some (s.refuse f (paceCode 3))
        else match (p.image.steps[dSel d]?).bind (fun x => s.entryMissing f.wing x) with
          | some c => some (s.refuseAt f (memCode 4) 1 c)
          | none => none

/-! ### The start of a step or pass (R166, R349, R351, R415) -/

/-- Seeds and the step index reach every core that a program covers (R349, R351). -/
def State.seedCores (s : State) (w : Nat) (p : Prog) (step : Option (BitVec 32)) : State :=
  (imgCores p.image).foldl (fun (t : State) c => t.onCore (s.named w c) (fun x => { x with
    arith := { x.arith with srSeed := p.seed, srStep := step.getD x.arith.srStep } })) s
/-- A step or pass that has been prepared waits for its ramp and its start beat. -/
def State.enterRun (s : State) (f : Flight) (p : Prog) : State :=
  let l := s.lead f.wing
  let r : Run := { ring := f.ring, seq := f.seq, handle := dHandle f.words, sel := dSel f.words }
  let s1 := (s.begin_ f).seedCores l p (if famOf f.words = 2 then some (dStep f.words) else none)
  (s1.onWing l (fun x => { x with run := some r })).rampStart l r

/-! ### The mirror's frames (R146, R315) -/

/-- One frame of a mirror pass: a block, a group entry, or an empty one that marks the end (log 35). -/
def State.sendMirror (s : State) (f : Flight) (a : Nat) (bs : List Byte) (tag : Nat) : State × Option PassFault :=
  let d := f.words
  let l := s.lead f.wing
  match (s.wing l).pass with
  | none => (s, none)
  | some p =>
    if bit d 256 then
      let fr := mkFrame 2 0 (bits d 279 260) (s.fab l).id.toNat s.hops (bits d 159 128) p.sent a tag s.domainId.toNat bs
      match s.sendFrame l (some (f.ring, f.seq.toNat)) fr with
      | none => (s, some (.noRoute (bits d 279 260)))
      | some s1 => (s1.onWing l (fun x => { x with pass := some { p with sent := p.sent + 1 } }), none)
    else (s, none)
/-- Changes the counts of the running pass. -/
def State.countPass (s : State) (l : Nat) (g : PassCounts → PassCounts) : State :=
  s.onWing l (fun x => { x with pass := x.pass.map (fun p => { p with counts := g p.counts }) })
/-- Runs actions one after another until one ends the pass. -/
def passSeq {α : Type} (act : State → α → State × Option PassFault) : State → List α → State × Option PassFault
  | s, [] => (s, none)
  | s, a :: as =>
    match act s a with
    | (s1, some e) => (s1, some e)
    | (s1, none) => passSeq act s1 as
/-- A block written, tagged, and sent to the mirror (R144, R146). -/
def State.storeBlock (s : State) (f : Flight) (a : Nat) (data : List Byte) (tag : Nat) : State × Option PassFault :=
  (s.passWrite f.wing a (mkBlock data (BitVec.ofNat 32 tag))).sendMirror f a data tag

/-! ### The prologue (R143, R153) -/

/-- How a named group is decided, with its entry as the prologue leaves it (R143). -/
def decideUpdate (u : Nat) (e : Desc) (curve : Option (List (Nat × F32))) : Fate × Desc :=
  if geMalformed e then (.bad, e)
  else if u < geLastU e then (.stale, e)
  else if geFrozen e then (.frozen, geSet e 95 64 u)
  else if geBad e curve then (.bad, e)
  else if geLastU e = u then (.replay, e)
  else if geStep e = 0xFFFFFFFF then (.bad, e)
  else (.advance, geSet (geSet e 63 32 (geStep e + 1)) 95 64 u)
/-- How a named group is decided in a refresh (R153): one that is already committed is a replay, whatever else it is. -/
def decideRefresh (serial : Nat) (e : Desc) (curve : Option (List (Nat × F32))) : Fate :=
  if serial ≤ geLastRR e then .replay else if geMalformed e || geBad e curve then .bad else .advance
/-- Reads and decides the named groups in order, or the block that failed its CRC. The curve block of every well-formed tabled group is
read here, a stale or frozen one's too, so that a bad block ends the pass (log 55), and each group's base rate is taken once for the
pass (R130, R133, R135). -/
def State.decideGroups (s : State) (f : Flight) (p : Pass) : List Nat → Except Nat (List GroupRun)
  | [] => .ok []
  | g :: gs =>
    match s.readBonded f.wing (geAddr p.groupBase g) 64 with
    | .error b => .error b
    | .ok bs =>
      let e : Desc := BitVec.ofNat 512 (ofBytes bs)
      match (if geMalformed e then .ok none else s.curveOf f.wing p e) with
      | .error b => .error b
      | .ok curve =>
        let u := bits f.words 159 128
        let (fate, e') := if famOf f.words = 3 then decideUpdate u e curve else (decideRefresh u e curve, e)
        let rate := match curve with
          | some ps => curveRate ps (geStep e')
          | none => BitVec.ofNat 32 (bits f.words 255 224)
        (s.decideGroups f p gs).map (fun r => { group := g, fate := fate, target := geStep e', entry := e', rate := rate,
                                                bad := geMalformed e || geBad e curve } :: r)
/-- The counts of a group that its fate alone decides (R143, R153). -/
def countFate (update : Bool) (img : Image) (c : PassCounts) (g : GroupRun) : PassCounts :=
  match g.fate with
  | .bad => { c with bad := c.bad + 1 }
  | .stale => { c with stale := c.stale + 1 }
  | .frozen => { c with frozen := c.frozen + ((groupMap img g.group).map (·.blocks)).getD 0 }
  | .replay => if update then c else { c with replayed := c.replayed + 1, bad := if g.bad then c.bad + 1 else c.bad }
  | .advance => c
/-- Writes a group entry into its table block and sends it to the mirror (R143, R152). -/
def State.writeEntry (s : State) (f : Flight) (base : Nat) (g : GroupRun) : State × Option PassFault :=
  let a := geAddr base g.group
  let bs := toBytes 64 g.entry.toNat
  match s.passMerge f.wing a bs with
  | none => (s, some (.block (s.blockAt f.wing a)))
  | some s1 => s1.sendMirror f a bs 0
/-- The reads of a pass's prologue: the group entries and the curve blocks (R138, R143). -/
def prologueReads (p : Pass) (gs : List GroupRun) : List (Nat × Nat) :=
  gs.flatMap (fun g => (geAddr p.groupBase g.group, 64) ::
    (if !geMalformed g.entry && geTabled g.entry && Nat.blt (bits g.entry 27 16) p.curveLimit
      then [(p.curveBase + 512 * bits g.entry 27 16, 512)] else []))
/-- The prologue: every group is decided, and the entries are written and sent to the mirror before any block; the entry of a group
that replays is as it was, and goes to the mirror again (R143). -/
def State.passPrologue (s : State) (f : Flight) (img : Image) : State × Option PassFault :=
  let l := s.lead f.wing
  match (s.wing l).pass with
  | none => (s, none)
  | some p =>
    match s.decideGroups f p (passGroups f.words) with
    | .error b => (s, some (.block b))
    | .ok gs =>
      let upd := famOf f.words == 3
      let q : Pass := { p with prologue := true, groups := gs, counts := gs.foldl (countFate upd img) p.counts }
      let s1 := (s.countReads f.wing (prologueReads p gs)).onWing l (fun x => { x with pass := some q })
      if upd then
        passSeq (fun t g => if g.fate == .replay then t.sendMirror f (geAddr p.groupBase g.group) (toBytes 64 g.entry.toNat) 0
          else t.writeEntry f p.groupBase g) s1 (gs.filter (fun g => g.fate == .advance || g.fate == .frozen || g.fate == .replay))
      else (s1, none)

/-! ### The body of an update (R136, R144, R145) -/

/-- The first skew block: the lowest group, then the lowest block (R144). -/
def firstSkew (c : PassCounts) (g b tag : Nat) : PassCounts :=
  match c.firstSkew with
  | some (h, i, _) => if g < h ∨ (g = h ∧ b < i) then { c with firstSkew := some (g, b, tag) } else c
  | none => { c with firstSkew := some (g, b, tag) }
/-- What the body needs of a group: its place, and its scalars and rate at the target step. -/
structure GroupWork where
  run : GroupRun
  map : GroupMap
  k : Scalars
/-- A group with its scalars, computed from what the prologue read of it (R130). -/
def groupWork (m : GroupMap) (g : GroupRun) : GroupWork := { run := g, map := m, k := scalarsOf g.entry g.target g.rate }
/-- The address of a state block of a group. -/
def stateAddr (m : GroupMap) (i : Nat) : Nat := m.stateBase + 512 * i
/-- The elements g of a state block, read under its CRC (R131, R142). -/
def State.readGrads (s : State) (f : Flight) (m : GroupMap) (i : Nat) : Except Nat (List F32) :=
  let bf := bits f.words 283 280 == 1
  (s.readBonded f.wing (m.gradBase + gradBytes bf * i) (gradBytes bf)).map (gradsOf bf (BitVec.ofNat 32 (bits f.words 383 352)))
/-- The disposition of a state block whose tag is not t − 1 (Table 5.6). -/
def State.passOver (s : State) (f : Flight) (g : GroupRun) (m : GroupMap) (i : Nat) (b : Block) : State × Option PassFault :=
  let l := s.lead f.wing
  if b.tag.toNat = g.target then
    (s.countPass l (fun c => { c with replayed := c.replayed + 1 })).sendMirror f (stateAddr m i) b.data b.tag.toNat
  else (s.countPass l (fun c => firstSkew { c with skew := c.skew + 1 } g.group i b.tag.toNat), none)
/-- Whether a block is one that the pass would update: tagged t − 1 (Table 5.6). -/
def dueBlock (g : GroupRun) (b : Block) : Bool := b.tag.toNat + 1 == g.target
/-- Stores an updated or kept block and counts it (R136, R144). -/
def State.settleBlock (s : State) (f : Flight) (g : GroupRun) (m : GroupMap) (i : Nat) (data : List Byte) (bad kept : Bool) :
    State × Option PassFault :=
  (s.countPass (s.lead f.wing) (fun c => { c with
    updated := if kept then c.updated else c.updated + 1, nonfinite := if bad then c.nonfinite + 1 else c.nonfinite })).storeBlock
    f (stateAddr m i) data g.target
/-- A state block of a group that is not preconditioned (R131, R136, R144). -/
def State.passBlock (s : State) (f : Flight) (x : GroupWork) (i : Nat) : State × Option PassFault :=
  let n := s.blockAt f.wing (stateAddr x.map i)
  let b := s.block n
  if !b.good then (s, some (.block n))
  else if dueBlock x.run b then
    match s.readGrads f x.map i with
    | .error e => (s, some (.block e))
    | .ok gs =>
      let ms := blockMoments x.k b.data gs
      let bad := nonFinite gs
      let kept := bad && geSkip x.run.entry
      let data := if kept then b.data else updatedBlock x.k b.data ms (fun j => ((ms[j]?).map (·.p)).getD 0)
      s.settleBlock f x.run x.map i data bad kept
  else s.passOver f x.run x.map i b

/-- A list of results, or the first error. -/
def allOk {α : Type} : List (Except Nat α) → Except Nat (List α)
  | [] => .ok []
  | .error e :: _ => .error e
  | .ok a :: r => (allOk r).map (fun as => a :: as)
/-- The blocks from an address on, each with its address, or the first that fails its CRC. -/
def State.blocksFrom (s : State) (w a n : Nat) : Except Nat (List (Nat × Block)) :=
  allOk ((List.range n).map (fun i =>
    let k := s.blockAt w (a + 512 * i)
    if (s.block k).good then .ok (a + 512 * i, s.block k) else .error k))
/-- A root of the active slot (R132). -/
def activeRoot (e : Desc) (b : PreBlock) (left : Bool) : Nat :=
  if left then (if geActive e = 0 then b.rootL0 else b.rootL1) else (if geActive e = 0 then b.rootR0 else b.rootR1)
/-- A root of the inactive slot (R152). -/
def inactiveRoot (e : Desc) (b : PreBlock) (left : Bool) : Nat :=
  if left then (if geActive e = 0 then b.rootL1 else b.rootL0) else (if geActive e = 0 then b.rootR1 else b.rootR0)
/-- The statistics blocks of one matrix of a preconditioner block, accumulated by their tags (R145). -/
def State.accumulate (s : State) (f : Flight) (g : GroupRun) (sum : Mat) (blocks : List (Nat × Block)) :
    State × Option PassFault :=
  let l := s.lead f.wing
  let flat := bytesOfMat sum
  let decay := geF32 g.entry 320
  passSeq (fun t (e : (Nat × Block) × Nat) =>
    let tag := e.1.2.tag.toNat
    if tag < g.target then
      let data := (List.range 128).flatMap (fun j =>
        toBytes 4 (f32Add (f32Mul decay (f32At e.1.2.data j)) (f32At flat (128 * e.2 + j))).toNat)
      t.storeBlock f e.1.1 data g.target
    else if tag = g.target then (t.countPass l (fun c => { c with replayed := c.replayed + 1 })).sendMirror f e.1.1 e.1.2.data tag
    else (t.countPass l (fun c => { c with skew := c.skew + 1 }), none)) s blocks.zipIdx
/-- A preconditioner block of a group: its state blocks, and its statistics where STATS_EN is 1 (R132, R136, R145). The roots of the
active slot are read also while ROOT_STEP is 0, when the direction is each element's own p (log 55). Where a refresh has completed and
some of the state blocks are not at t − 1, the direction of the others has no stated value: it is a free value, which everything that
the pass reads of the block decides (R137; log 36). -/
def State.passPre (s : State) (f : Flight) (x : GroupWork) (b : PreBlock) : State × Option PassFault :=
  let w := f.wing
  let e := x.run.entry
  let idx := (List.range b.blocks).map (fun i => b.firstBlock + i)
  let stats := bit f.words 257
  match s.blocksFrom w (stateAddr x.map b.firstBlock) b.blocks, allOk (idx.map (s.readGrads f x.map)),
      s.readBonded w (activeRoot e b true) (4 * b.p * b.p), s.readBonded w (activeRoot e b false) (4 * b.q * b.q),
      s.blocksFrom w b.statL (if stats then ceilDiv (b.p * b.p) 128 else 0),
      s.blocksFrom w b.statR (if stats then ceilDiv (b.q * b.q) 128 else 0) with
  | .ok bs, .ok gss, .ok lb, .ok rb, .ok sl, .ok sr =>
    let g := matOf b.p b.q (fun i j => (gss.getD ((i * b.q + j) / 64) []).getD ((i * b.q + j) % 64) 0)
    let bad := nonFinite gss.flatten
    let skip := bad && geSkip e
    let ms := bs.zipIdx.map (fun y => blockMoments x.k y.1.2.data (gss.getD y.2 []))
    let part (sel : Moments → F32) : Mat := matOf b.p b.q (fun i j =>
      (((ms.getD ((i * b.q + j) / 64) [])[(i * b.q + j) % 64]?).map sel).getD 0)
    let dir := graftedDir b (geRootStep e) (matBytes b.p b.p lb) (matBytes b.q b.q rb) (part (·.mh)) (part (·.p))
    let whole := bs.all (fun y => dueBlock x.run y.2) || geRootStep e == 0
    let inputs := bs.flatMap (fun y => y.2.data ++ toBytes 4 y.2.tag.toNat) ++ gss.flatten.flatMap (fun v => toBytes 4 v.toNat) ++
      lb ++ rb ++ toBytes 64 e.toNat ++ toBytes 4 x.run.target
    let (s1, r1) := passSeq (fun t (y : (Nat × Block) × Nat) =>
      let i := b.firstBlock + y.2
      if dueBlock x.run y.1.2 then
        let m := ms.getD y.2 []
        let own := nonFinite (gss.getD y.2 [])
        if skip then t.settleBlock f x.run x.map i y.1.2.data true true
        else t.settleBlock f x.run x.map i (updatedBlock x.k y.1.2.data m (fun j =>
          if whole then matAt dir ((64 * y.2 + j) / b.q) ((64 * y.2 + j) % b.q) else Config.freeDir inputs (64 * y.2 + j))) own false
      else t.passOver f x.run x.map i y.1.2) s bs.zipIdx
    match r1 with
    | some _ => (s1, r1)
    | none =>
      if stats && !skip then
        let (s2, r2) := s1.accumulate f x.run (matMul b.segsQ b.p b.q b.p g (matT b.p b.q g)) sl
        match r2 with
        | some _ => (s2, r2)
        | none => s2.accumulate f x.run (matMul b.segsP b.q b.p b.q (matT b.p b.q g) g) sr
      else (s1, none)
  | .error k, _, _, _, _, _ => (s, some (.block k))
  | _, .error k, _, _, _, _ => (s, some (.block k))
  | _, _, .error k, _, _, _ => (s, some (.block k))
  | _, _, _, .error k, _, _ => (s, some (.block k))
  | _, _, _, _, .error k, _ => (s, some (.block k))
  | _, _, _, _, _, .error k => (s, some (.block k))

/-! ### The body of a refresh (R150 to R152) -/

/-- Writes a root of the inactive slot (R151, R152). -/
def State.writeRoot (s : State) (f : Flight) (g : GroupRun) (a : Nat) (data : List Byte) : State × Option PassFault :=
  passSeq (fun t (i : Nat) => t.storeBlock f (a + 512 * i) (sliceBytes data (512 * i) 512) g.target) s
    (List.range (ceilDiv data.length 512))
/-- A preconditioner block of a refresh: new roots into the inactive slot, or copies of the old ones (R150, R151). -/
def State.refreshPre (s : State) (f : Flight) (g : GroupRun) (b : PreBlock) : State × Option PassFault :=
  let w := f.wing
  let e := g.entry
  let l := s.lead w
  match s.blocksFrom w b.statL (ceilDiv (b.p * b.p) 128), s.blocksFrom w b.statR (ceilDiv (b.q * b.q) 128),
      s.readBonded w (activeRoot e b true) (4 * b.p * b.p), s.readBonded w (activeRoot e b false) (4 * b.q * b.q) with
  | .ok sl, .ok sr, .ok lb, .ok rb =>
    let above := ((sl ++ sr).filter (fun y => Nat.blt g.target y.2.tag.toNat)).length
    let a := matBytes b.p b.p (sl.flatMap (fun y => y.2.data))
    let c := matBytes b.q b.q (sr.flatMap (fun y => y.2.data))
    let iters := if bits e 421 416 = 0 then 20 else bits e 421 416
    let put (t : State) (x y : List Byte) : State × Option PassFault :=
      match t.writeRoot f g (inactiveRoot e b true) x with
      | (t1, some k) => (t1, some k)
      | (t1, none) => t1.writeRoot f g (inactiveRoot e b false) y
    if 0 < above then put (s.countPass l (fun k => { k with skew := k.skew + above })) lb rb
    else if nonFinite (a.flatten ++ c.flatten) then put (s.countPass l (fun k => { k with nonfinite := k.nonfinite + 1 })) lb rb
    else match inverseRoot b.segsP b.p (geF32 e 352) (geF32 e 384) iters a, inverseRoot b.segsQ b.q (geF32 e 352) (geF32 e 384) iters c with
      | some x, some y => put (s.countPass l (fun k => { k with updated := k.updated + 1 })) (bytesOfMat x) (bytesOfMat y)
      | _, _ => put (s.countPass l (fun k => { k with nonconv := k.nonconv + 1 })) lb rb
  | .error k, _, _, _ => (s, some (.block k))
  | _, .error k, _, _ => (s, some (.block k))
  | _, _, .error k, _ => (s, some (.block k))
  | _, _, _, .error k => (s, some (.block k))

/-! ### Work units, results and the end of a pass (R148, R152, R156, R157) -/

/-- One unit of a pass's work. -/
inductive PassUnit where
  | block (g : GroupRun) (m : GroupMap) (i : Nat)
  | pre (g : GroupRun) (m : GroupMap) (b : PreBlock)
/-- The work units of a group: a state block each, and in a preconditioned group a preconditioner block each. -/
def unitsOf (update : Bool) (img : Image) (g : GroupRun) : List PassUnit :=
  match groupMap img g.group with
  | none => []
  | some m =>
    let live := if update then g.fate == .replay || g.fate == .advance else g.fate == .advance
    if !live then []
    else if gePrecond g.entry then
      let covered (i : Nat) : Bool := m.pre.any (fun b => Nat.ble b.firstBlock i && Nat.blt i (b.firstBlock + b.blocks))
      m.pre.map (fun b => .pre g m b) ++
        (if update then ((List.range m.blocks).filter (fun i => !covered i)).map (fun i => .block g m i) else [])
    else if update then (List.range m.blocks).map (fun i => .block g m i)
    else []
/-- What a unit of a pass reads: bonded addresses and bytes (R131, R132, R144, R145, R150). -/
def State.unitReads (s : State) (f : Flight) : PassUnit → List (Nat × Nat)
  | .block g m i =>
    let n := gradBytes (bits f.words 283 280 == 1)
    (stateAddr m i, 512) :: (if dueBlock g (s.block (s.blockAt f.wing (stateAddr m i))) then [(m.gradBase + n * i, n)] else [])
  | .pre g m b =>
    let n := gradBytes (bits f.words 283 280 == 1)
    let roots := [(activeRoot g.entry b true, 4 * b.p * b.p), (activeRoot g.entry b false, 4 * b.q * b.q)]
    let stats := [(b.statL, 4 * b.p * b.p), (b.statR, 4 * b.q * b.q)]
    if famOf f.words = 3 then
      [(stateAddr m b.firstBlock, 512 * b.blocks), (m.gradBase + n * b.firstBlock, n * b.blocks)] ++ roots ++
        (if bit f.words 257 then stats else [])
    else stats ++ roots
/-- Runs one unit of a pass. -/
def State.passUnit (s : State) (f : Flight) (u : PassUnit) : State × Option PassFault :=
  let s1 := s.countReads f.wing (s.unitReads f u)
  match u with
  | .block g m i => s1.passBlock f (groupWork m g) i
  | .pre g m b => if famOf f.words = 3 then s1.passPre f (groupWork m g) b else s1.refreshPre f g b
/-- One count of a result record: its value and whether it saturated (R156). -/
def satCount (w n : Nat) : Nat × Bool := (min n (2 ^ w - 1), Nat.blt (2 ^ w - 1) n)
/-- The 64 bytes of a result record (Table 5.8). -/
def resultBytes (update : Bool) (serial : Nat) (c : PassCounts) : List Byte :=
  let n (v : Nat) : Nat := (satCount 32 v).1
  let h (v : Nat) : Nat := (satCount 16 v).1
  let sat := [c.updated, c.replayed, c.skew, c.frozen, c.nonfinite, c.mirrorSkew, c.nonconv].any (fun v => (satCount 32 v).2) ||
    [c.stale, c.bad].any (fun v => (satCount 16 v).2)
  let fs := if c.skew = 0 then (0, 0, 0) else c.firstSkew.getD (0, 0, 0)
  toBytes 64 (1 + (if update then 1 else 2) * 2 ^ 8 + (if sat then 2 ^ 16 else 0) + serial * 2 ^ 32 + n c.updated * 2 ^ 64 +
    n c.replayed * 2 ^ 96 + n c.skew * 2 ^ 128 + n c.frozen * 2 ^ 160 + n c.nonfinite * 2 ^ 192 + h c.stale * 2 ^ 224 +
    h c.bad * 2 ^ 240 + fs.1 % 2 ^ 12 * 2 ^ 256 + fs.2.1 % 2 ^ 32 * 2 ^ 288 + fs.2.2 % 2 ^ 32 * 2 ^ 320 + n c.mirrorSkew * 2 ^ 352 +
    n c.nonconv * 2 ^ 384)
/-- The completion status of a pass (Table 5.9). -/
def passStatus (update : Bool) (c : PassCounts) : Nat :=
  if c.bad != 0 then 4
  else if c.skew != 0 || c.mirrorSkew != 0 || c.stale != 0 then 3
  else if !update && (c.nonconv != 0 || c.nonfinite != 0) then 2
  else if c.replayed != 0 then 1
  else 0

/-- What ends a pass as a step (R157, R174, R315): a bad block names its channel, a frame without a port its device. -/
def State.passFault (s : State) (f : Flight) : PassFault → State
  | .block n =>
    let ch := blockChan n
    let s1 := s.badBlock f.wing n
    s1.endStep f.wing (memCode 9) 4 ch true
  | .noRoute dev => s.endStep f.wing (linkCode 0x407) 5 dev true
/-- Writes the result record once every unit is done and the mirror's return has arrived; the pass is then ready for its
commit point (R156). -/
def State.finishPass (s : State) (f : Flight) : State :=
  let l := s.lead f.wing
  let d := f.words
  match (s.wing l).pass with
  | none => s
  | some p =>
    if p.ended && (!bit d 256 || p.returned) && !p.resultSent then
      let bs := resultBytes (famOf d == 3) (bits d 159 128) p.counts
      let s1 := (s.onWing l (fun x => { x with pass := some { p with resultSent := true } })).onFlight f.ring f.seq
        (fun g => { g with ready := true, status := passStatus (famOf d == 3) p.counts })
      if bit d 258 then
        match s1.passMerge f.wing (bits d 351 288) bs with
        | some s2 => s2
        | none => s.passFault f (.block (s.blockAt f.wing (bits d 351 288)))
      else s1.writeComp (bits d 351 288) bs (.flight f.ring f.seq)
    else s
/-- Runs the prologue if it has not run, then n more units; after the last the mirror is told and the result written. -/
def State.runPass (s : State) (f : Flight) (img : Image) (n : Option Nat) : State :=
  let l := s.lead f.wing
  let (s1, r1) := if (s.wing l).pass.any (fun p => p.prologue) then (s, none) else s.passPrologue f img
  match r1, (s1.wing l).pass with
  | some e, _ => s1.passFault f e
  | none, none => s1
  | none, some p =>
    let all := p.groups.flatMap (unitsOf (famOf f.words == 3) img)
    let now := match n with
      | some k => (all.drop p.done).take k
      | none => all.drop p.done
    let (s2, r2) := passSeq (fun t u => t.passUnit f u) s1 now
    match r2 with
    | some e => s2.passFault f e
    | none =>
      let s3 := s2.onWing l (fun x => { x with pass := x.pass.map (fun q => { q with done := p.done + now.length }) })
      if p.ended || Nat.blt (p.done + now.length) all.length then s3
      else
        match s3.sendMirror f 0 [] 0 with
        | (s4, some e) => s4.passFault f e
        | (s4, none) =>
          (s4.onWing l (fun x => { x with pass := x.pass.map (fun q => { q with ended := true }) })).finishPass f
/-- An UPDATE or ROOT_REFRESH starts: its checks, its sections, its run (R155, R166, R486). -/
def State.startPass (s : State) (f : Flight) : State :=
  let l := s.lead f.wing
  match s.startRefusal f with
  | some t => t
  | none =>
    match s.prog l (dHandle f.words), s.schedOf l (dHandle f.words) 0 with
    | some p, some x =>
      let s1 := (s.prepareCores l x).enterRun f p
      s1.onWing l (fun v => { v with pass := some {
        ring := f.ring, seq := f.seq, groupBase := 0, curveBase := 0, curveLimit := 0 } })
    | _, _ => s
/-- The running pass of a descriptor whose first beat has come goes on (R143, R152). -/
def State.passGoes (s : State) (ring : Nat) (seq : BitVec 32) (fam : Nat) (n : Option Nat) : State :=
  match s.flight ring seq with
  | none => s
  | some f =>
    let w := s.wing (s.lead f.wing)
    if famOf f.words = fam ∧ f.stage = .running ∧ w.run.any (fun r => r.began) = true ∧ w.draining = false then
      match s.prog f.wing (dHandle f.words) with
      | some p => s.runPass f p.image n
      | none => s
    else s
/-- At a refresh's commit point one write of each refreshed group's entry switches its slots (R152). -/
def State.commitRefresh (s : State) (f : Flight) : State × Option PassFault :=
  match (s.wing (s.lead f.wing)).pass with
  | none => (s, none)
  | some p =>
    passSeq (fun t (g : GroupRun) =>
      let e1 := geSet (geSet g.entry 13 13 (1 - geActive g.entry)) 159 128 (geStep g.entry)
      t.writeEntry f p.groupBase { g with entry := geSet e1 127 96 (bits f.words 159 128) }) s
      (p.groups.filter (fun g => g.fate == .advance))

end Sys2Proof.Machine
end

