-- ==== Sys2Proof/Machine/PortOps.lean ====
section
/-!
DEFINITION. The physical ports: faults and what they end (R319, R328), the link layer of an arriving slot (R309 to R311),
delivery and transit (R316), and training (R305, R306, R312, R313).
-/

namespace Sys2Proof.Machine

/-! ### Faults (R319, R328) -/

/-- Records a fault in PORT_ERR (Table 11.10). -/
def State.portErr (s : State) (p n flow : Nat) : State :=
  s.onPort p (fun x => { x with errCode := BitVec.ofNat 12 n, errFlow := BitVec.ofNat 24 flow })
/-- The wing whose device a port belongs to. -/
def State.portLead (s : State) (p : Nat) : Nat := s.lead (portWing p (s.port p))
/-- Ends an operation, known by its ring and SEQ, with a fabric code (R319). -/
def State.endOp (s : State) (op : Nat × Nat) (n kind loc : Nat) : State :=
  match s.flight op.1 (BitVec.ofNat 32 op.2) with
  | some f => s.flightFault f (linkCode n) kind loc
  | none => s
/-- A port fails: its frames are lost, every operation that has used it ends, and it is to be tested (R310, R313, R319,
Table 14.1). -/
def State.portFail (s : State) (p n : Nat) : State :=
  let x := s.port p
  let s1 := (s.onPort p (fun y => { y with
    stat := .failed, phase := 0, replay := [], waiting := [], credits := [], owed := [], answer := none, usedBy := [],
    linkVersion := 0 })).portErr p n 0
  let s2 := x.usedBy.foldl (fun (t : State) op => t.endOp op n 3 p) s1
  s2.followUnit (s2.portLead p) (linkCode n) (.port p)

/-! ### The link field of an arriving slot (R310, R311) -/

/-- Distance from one link sequence number to a later one, modulo 65,536. -/
def lseqDist (a b : BitVec 16) : Nat := (b - a).toNat
/-- Drops the frames up to a link sequence number from the replay buffer. -/
def Port.ackTo (p : Port) (q : BitVec 16) : Port :=
  match p.replay with
  | [] => p
  | e :: _ => if lseqDist e.1 q < p.replay.length then { p with replay := p.replay.drop (lseqDist e.1 q + 1) } else p
/-- Every frame of the replay buffer is sent again (R310). -/
def Port.resend (p : Port) : Port :=
  let n := p.replay.length
  let (v, f) := satAdd p.resends p.resendSat n
  let q := p.replay.foldl (fun q e => q.putSlot (some (e.1, e.2.1))) p
  { q with replay := p.replay.map (fun e => (e.1, e.2.1, e.2.2 + 1)), resends := v, resendSat := f,
           winResends := p.winResends + n, winFrames := p.winFrames + n }
/-- The frames from the oldest unanswered on are sent again; at the eighth failed attempt of one the port fails, and nothing is sent
(R310). -/
def State.resendPort (s : State) (p : Nat) : State :=
  if (s.port p).replay.any (fun e => Nat.ble 7 e.2.2) then s.portFail p 0x401 else s.onPort p Port.resend
/-- Takes the answer that a link field carries, if it carries one (Table 11.3). -/
def State.takeLinkAnswer (s : State) (p : Nat) (l : BitVec 96) : State :=
  let q : BitVec 16 := BitVec.ofNat 16 (bits l 35 20)
  if bit l 17 then
    if bit l 18 then (s.onPort p (fun x => x.ackTo (q - 1))).resendPort p else s.onPort p (fun x => x.ackTo q)
  else s
/-- Takes the credits that a link field returns; an excess fails the port (R311). -/
def State.takeLinkCredits (s : State) (p : Nat) (l : BitVec 96) : State :=
  let add (x : Port) (c : Nat) : Nat := x.credit c + bits l (43 + 8 * c) (36 + 8 * c)
  let x := s.port p
  if (List.range 4).any (fun c => Nat.blt 256 (add x c)) then s.portFail p 0x401
  else s.onPort p (fun y =>
    let z : Port := { y with credits := (List.range 4).map (fun c => (c, add y c)) }
    z.pump z.waiting.length)
/-- A link field that has passed its CRC (R310, R311). -/
def State.takeLink (s : State) (p : Nat) (l : BitVec 96) : State :=
  let s1 := s.takeLinkAnswer p l
  if (s1.port p).stat = .failed then s1 else s1.takeLinkCredits p l
/-- Whether a link field has a reserved bit set (Table 11.3, R309). -/
def linkBad (l : BitVec 96) : Bool := bit l 19 || bits l 95 68 != 0
/-- Whether a port's link layer runs. -/
def Port.live (p : Port) : Bool := p.stat == .up || p.stat == .idleSpare
/-- A frame buffer becomes free: its credit is owed to the partner (R311). -/
def State.oweCredit (s : State) (p c : Nat) : State :=
  s.onPort p (fun x => { x with owed := Map.set x.owed c (Map.get 0 x.owed c + 1) })

/-! ### Delivery and transit (R315, R316, R477) -/

/-- A frame with its HOPS replaced. -/
def withHops (f : Frame) (n : Nat) : Frame :=
  { f with header := BitVec.ofNat 256 (f.header.toNat - frHops f * 2 ^ 56 + n * 2 ^ 56) }
/-- A transit frame that cannot go on is dropped and counted (R316). -/
def State.dropTransit (s : State) (p : Nat) : State :=
  s.onPort p (fun x => let (v, f) := satAdd x.drops x.dropSat 1
    { x with drops := v, dropSat := f })
/-- The operation that owns a received frame's flow, if it runs, has received a frame on the port (R319). -/
def State.received (s : State) (p : Nat) (op : Option (Nat × Nat)) : State :=
  match op with
  | some o => s.onPort p (fun x => { x with usedBy := if x.usedBy.contains o then x.usedBy else o :: x.usedBy })
  | none => s
/-- Puts a received frame where the command of its kind takes it up. -/
def State.toInbox (s : State) (w : Nat) (port : Option Nat) (f : Frame) : State :=
  s.onFab w (fun x => { x with inbox := x.inbox ++ [(port, f)] })
/-- Whether a device is the one that a frame names. -/
def State.isDevice (s : State) (w dev : Nat) : Bool := (s.fab w).hasId && (s.fab w).id.toNat == dev
/-- Passes a frame on that names another device: its HOPS falls, and it takes a port of its route, or the seam where it
names the other wing (R315, R316, R477). -/
def State.transit (s : State) (p w : Nat) (f : Frame) : State :=
  let g := withHops f (frHops f - 1)
  if frHops f ≤ 1 ∨ (s.fab w).hasId = false then (s.dropTransit p).oweCredit p (frCls f)
  else if s.split && s.isDevice (1 - w) (frDest f) then s.toInbox (1 - w) (some p) g
  else match s.pickPort w g with
    | some q => (s.giveFrame q none g).oweCredit p (frCls f)
    | none => (s.dropTransit p).oweCredit p (frCls f)
/-- The operation of a device that owns a flow with a peer: a collective, the running step's stream, or its mirror pass
(R317 to R319). -/
def State.flowOp (s : State) (w flow peer : Nat) : Option (Nat × Nat) :=
  match (s.fab w).colls.find? (fun c => c.collId == flow && c.group.contains peer) with
  | some c => some (c.ring, c.seq.toNat)
  | none =>
    let streams := (s.wings (s.lead w)).flatMap (fun v => (s.wing v).extFlows)
    if streams.contains (peer, flow) then s.stepOp w
    else match (s.wing (s.lead w)).pass with
      | some p => match s.flight p.ring p.seq with
        | some f => if bit f.words 256 && bits f.words 279 260 == peer && bits f.words 159 128 % 2 ^ 24 == flow then
            some (p.ring, p.seq.toNat) else none
        | none => none
      | none => none
/-- A malformed frame is discarded and recorded; where it comes from this device it ends the operation of its flow
(R309). -/
def State.malformedFrame (s : State) (p w : Nat) (f : Frame) : State :=
  let s1 := (((s.portErr p 0x40B (frFlow f)).followUnit w (linkCode 0x40B) (.port p)).oweCredit p (frCls f % 4))
  if s.isDevice w (frSrc f) then
    match s1.flowOp w (frFlow f) (frDest f) with
    | some op => s1.endOp op 0x40B 3 p
    | none => s1
  else s1
/-- A frame accepted by the link layer: link-local, for this device, or in transit (R309, R312, R314, R316). -/
def State.routeFrame (s : State) (p : Nat) (f : Frame) : State :=
  let w := s.portLead p
  if frMalformed f then s.malformedFrame p w f
  else if frKind f = 5 ∧ frCls f = 3 then s.oweCredit p 3
  else if s.isDevice w (frDest f) then (s.received p (s.flowOp w (frFlow f) (frSrc f))).toInbox w (some p) f
  else s.transit p w f
/-- One data slot of a port whose link layer runs: the link CRC, the link field, the sequence, then the frame (R309,
R310). -/
def State.takeSlot (s : State) (p : Nat) (x : Slot) : State :=
  let nak (t : State) : State := t.onPort p (fun y => { y with answer := some (true, y.expect), discard := true })
  if !slotCrcOk x then
    nak (s.onPort p (fun y => let (v, f) := satAdd y.badFrames y.badSat 1
      { y with badFrames := v, badSat := f }))
  else
    let l := slotLink x
    let q : BitVec 16 := BitVec.ofNat 16 (bits l 15 0)
    let s1 := s.takeLink p l
    let y := s1.port p
    if y.stat = .failed then s1
    else if bit l 16 = true then
      if linkBad l then (s1.portErr p 0x40B 0).followUnit (s1.portLead p) (linkCode 0x40B) (.port p) else s1
    else if q ≠ y.expect then
      if lseqDist q y.expect ≤ 2048 then s1.onPort p (fun z => { z with answer := some (false, z.expect - 1) }) else nak s1
    else
      let (v, f) := satAdd y.framesRx y.rxSat 1
      let s2 := s1.onPort p (fun z => { z with
        framesRx := v, rxSat := f, expect := z.expect + 1, discard := false, answer := some (false, q) })
      if linkBad l then s2.malformedFrame p (s2.portLead p) (slotFrame x) else s2.routeFrame p (slotFrame x)

/-! ### Training (R305, R306, R312, R313) -/

/-- Whether the ports of a port's wing have started (R368). -/
def State.portsStarted (s : State) (p : Nat) : Bool := Nat.ble 4 (s.wing (s.portLead p)).phase.toNat
/-- A port that is down, or lost, trains again (R312). -/
def State.trainAgain (s : State) (p : Nat) : State :=
  let x := s.port p
  if s.portsStarted p && x.laserOk && (x.stat == .down || x.stat == .failed) then
    s.onPort p (fun y => { y with stat := .training, phase := 1, linkVersion := 0 })
  else s
/-- A training that has failed leaves the port down (R312). -/
def State.trainFail (s : State) (p : Nat) : State := s.onPort p (fun y => { y with stat := .down, phase := 0, linkVersion := 0 })
/-- The TRAIN frame of a port, link-local, with its device, its number and the round trip measured (R312; log 60). -/
def State.sendTrain (s : State) (p rtt : Nat) : State :=
  let id := (s.fab (s.portLead p)).id.toNat
  s.onPort p (fun y => y.putSlot (some (0, mkFrame 3 5 0xFFFFF id 1 0 0 0 0 0 (Config.trainBytes id p rtt))))
/-- A port comes up, or becomes an idle spare: sequence numbers from 0 and 256 credits of each class (R311 to R313). -/
def State.portUpNow (s : State) (p : Nat) : State :=
  let x := s.port p
  let s1 := s.onPort p (fun y => { y with
    stat := if y.bound then .up else .idleSpare, phase := 5, replay := [], next := 0, expect := 0, discard := false, answer := none,
    owed := [], credits := [(0, 256), (1, 256), (2, 256), (3, 256)], usedBy := [], lastPartner := some y.partnerDev })
  match x.lastPartner with
  | some d => if d = x.partnerDev then s1 else s1.portErr p 0x40A 0
  | none => s1
/-- A training phase completes (R312): one that fails leaves the port down, to retry; the last brings it up. -/
def State.trainPhase (s : State) (p : Nat) (t : TrainPhase) : State :=
  let x := s.port p
  let ok := t.ok && Nat.ble t.roundTripNs 25000 && (x.phase != 3 || Nat.ble t.failedFrames 1) && (x.phase != 4 || x.linkVersion != 0)
  if x.stat = .training ∧ x.laserOk = true then
    if !ok then s.trainFail p
    else if x.phase < 4 then
      let s1 := s.onPort p (fun y => { y with phase := y.phase + 1 })
      if x.phase = 3 then s1.sendTrain p t.roundTripNs else s1
    else s.portUpNow p
  else s
/-- A TRAIN frame in phase 4: the partner's identity and the negotiated version; without a common version the port stays
down with LINK:0x404 (R12, R13, R312). -/
def State.takeTrain (s : State) (p : Nat) (t : TrainInfo) : State :=
  let x := s.port p
  if x.stat = .training ∧ x.phase = 4 then
    if t.version = 0 then (s.trainFail p).portErr p 0x404 0
    else if 25000 < t.roundTripNs then s.trainFail p
    else s.onPort p (fun y => { y with partnerDev := t.dev, partnerPort := t.port, partnerSwitch := t.switch, linkVersion := 1 })
  else s
/-- A port loses its light, lock or partner for 100 µs: up, it fails with LINK:0x402; an idle spare is down (R313). -/
def State.losePort (s : State) (p : Nat) : State :=
  match (s.port p).stat with
  | .up => s.portFail p 0x402
  | .idleSpare => s.onPort p (fun y => { y with stat := .down, phase := 0, linkVersion := 0 })
  | _ => s
/-- The eight ports of a laser input (R305). -/
def laserPorts (l : Nat) : List Nat := (List.range 8).map (fun i => 8 * l + i)
/-- A laser input goes dark: its ports that are up or training fail with LINK:0x403 (R305). -/
def State.laserDark (s : State) (l : Nat) : State :=
  (laserPorts l).foldl (fun (t : State) p =>
    let t1 := t.onPort p (fun y => { y with laserOk := false })
    match (t1.port p).stat with
    | .up => t1.portFail p 0x403
    | .training => t1.portFail p 0x403
    | .idleSpare => t1.onPort p (fun y => { y with stat := .down, phase := 0, linkVersion := 0 })
    | _ => t1) s
/-- Light returns to a laser input: its ports can train (R305). -/
def State.laserLit (s : State) (l : Nat) : State :=
  (laserPorts l).foldl (fun (t : State) p => (t.onPort p (fun y => { y with laserOk := true })).trainAgain p) s
/-- A window of 1 s ends: DEGRADED follows the re-send rate (R306). -/
def Port.window (p : Port) : Port :=
  let deg := if p.winFrames < 1000000 * p.winResends then true else if 1000000 * p.winResends < p.winFrames then false
    else p.degraded && p.winResends != 0
  { p with degraded := deg, winFrames := 0, winResends := 0 }

end Sys2Proof.Machine
end

