-- ==== Sys2Proof/Machine/CollOps.lean ====
section
/-!
DEFINITION. Collectives (R320 to R326): START, the agreement of anchors, the exchange by ring or direct, and results.
-/

namespace Sys2Proof.Machine

/-! ### Frames that wait to be taken up (R318) -/

/-- Takes a received frame up: the state without it, and the physical port that it came on. Its buffer's credit is owed to
the partner (R311). -/
def State.takeInbox (s : State) (w : Nat) (f : Frame) : Option (State × Option Nat) :=
  match (s.fab w).inbox.find? (fun e => e.2 == f) with
  | none => none
  | some e =>
    let s1 := s.onFab w (fun x => { x with inbox := x.inbox.erase e })
    match e.1 with
    | none => some (s1, none)
    | some p => some (s1.oweCredit p (frCls f), some p)
/-- A stale frame is discarded and counted (R318). -/
def State.stale (s : State) (port : Option Nat) : State :=
  match port with
  | some p => s.onPort p (fun x => let (v, f) := satAdd x.stale x.staleSat 1
      { x with stale := v, staleSat := f })
  | none => s
/-- Records a fault of an arriving frame at its port (R328) and enters its follow-up (Table 14.1). -/
def State.arrivalErr (s : State) (w : Nat) (port : Option Nat) (n flow : Nat) : State :=
  match port with
  | some p => (s.portErr p n flow).followUnit w (linkCode n) (.port p)
  | none => s
/-- A fault of an arriving frame ends the operation that owns its flow (R318, R319). -/
def State.flowFault (s : State) (w : Nat) (port : Option Nat) (f : Frame) (n : Nat) : State :=
  let s1 := s.arrivalErr w port n (frFlow f)
  match s1.flowOp w (frFlow f) (frSrc f), port with
  | some op, some p => s1.endOp op n 3 p
  | some op, none => s1.endOp op n 5 (frSrc f)
  | none, _ => s1
/-- Takes up a received frame of a kind: one that fails its end-to-end check is a fault, and go disposes of the rest; none
leaves the frame waiting (R318). -/
def State.takeUp (s : State) (w : Nat) (f : Frame) (cls kind : Nat) (go : State → Option Nat → Option State) : State :=
  if frCls f = cls ∧ frKind f = kind then
    match s.takeInbox w f with
    | none => s
    | some (t, port) => if frE2eOk f then (go t port).getD s else t.flowFault w port f 0x405
  else s

/-! ### The geometry of a collective (R320 to R323) -/

/-- N. -/
def Coll.n (c : Coll) : Nat := c.group.length
/-- The device of a rank. -/
def Coll.device (c : Coll) (r : Nat) : Nat := c.group.getD r 0
/-- The next rank of the ring. -/
def Coll.next (c : Coll) : Nat := (c.rank + 1) % c.n
/-- The previous rank of the ring. -/
def Coll.prev (c : Coll) : Nat := (c.rank + c.n - 1) % c.n
/-- The other ranks, in increasing order. -/
def Coll.others (c : Coll) : List Nat := (List.range c.n).filter (fun r => r != c.rank)
/-- Whether it is a reduction. -/
def Coll.reduces (c : Coll) : Bool := c.op == 0 || c.op == 2
/-- Whether it is an exact reduction. -/
def Coll.exact (c : Coll) : Bool := c.reduces && !c.bf16
/-- Elements, or bytes, of a shard: what one rank owns of the full vector; a broadcast has one shard. -/
def Coll.shard (c : Coll) : Nat := if c.op = 3 then c.count else c.count / c.n
/-- Elements, or bytes, of a full frame (R322, R308). -/
def Coll.unit (c : Coll) : Nat := if c.reduces then (if c.bf16 then 256 else 64) else 512
/-- Bytes of one element in bonded memory (R321). -/
def Coll.elem (c : Coll) : Nat := if c.reduces then (if c.bf16 then 2 else 16) else 1
/-- Frames of a shard. -/
def Coll.frames (c : Coll) : Nat := ceilDiv c.shard c.unit
/-- Where the units of a shard start. -/
def Coll.units (c : Coll) (k : Nat) : List Nat := (List.range c.frames).map (fun j => k * c.shard + j * c.unit)
/-- The shard of an offset. -/
def Coll.shardOf (c : Coll) (a : Nat) : Nat := if c.op = 3 then 0 else a / c.shard
/-- The rank that owns a shard. -/
def Coll.owner (c : Coll) (k : Nat) : Nat := if c.op = 3 then c.root else k
/-- Elements, or bytes, of the unit at an offset. -/
def Coll.unitLen (c : Coll) (a : Nat) : Nat := min c.unit (c.shard - a % c.shard)
/-- Whether an offset is that of a unit. -/
def Coll.isUnit (c : Coll) (a : Nat) : Bool := Nat.blt a (if c.op = 3 then c.shard else c.n * c.shard) && a % c.shard % c.unit == 0
/-- Blocks of 64 elements that need an anchor (R322). -/
def Coll.blocks (c : Coll) : Nat := if c.exact then c.count / 64 else 0
/-- Frames that carry the needs of all blocks (R322). -/
def Coll.anchors (c : Coll) : Nat := ceilDiv c.blocks 256
/-- COLL_ANCHOR frames that a rank sends to this device: by ring the previous rank alone, in N − 1 rounds. -/
def Coll.anchorsFrom (c : Coll) (q : Nat) : Nat :=
  if c.direct then c.anchors else if q = c.prev then (c.n - 1) * c.anchors else 0
/-- COLL_DATA frames that a rank sends to this device. -/
def Coll.dataFrom (c : Coll) (q : Nat) : Nat :=
  let each := if c.direct then 1 else if q = c.prev then c.n - 1 else 0
  match c.op with
  | 0 => each * c.frames
  | 2 => 2 * each * c.frames
  | 1 => each * c.frames
  | _ => if c.rank = c.root then 0 else if c.direct then (if q = c.root then c.frames else 0)
    else if q = c.prev then c.frames else 0
/-- The sequence numbers seen from a rank. -/
def Coll.seenFrom (c : Coll) (q : Nat) : List Nat := Map.get [] c.seen q
/-- Whether every anchor has been agreed. -/
def Coll.anchored (c : Coll) : Bool := c.others.all (fun q => (List.range (c.anchorsFrom q)).all (fun k => (c.seenFrom q).contains k))
/-- Whether every frame expected has come. -/
def Coll.done (c : Coll) : Bool := c.moving && c.others.all (fun q => (c.seenFrom q).length == c.anchorsFrom q + c.dataFrom q)
/-- H = ceil(log2 N). -/
def Coll.h (c : Coll) : Nat := if c.n ≤ 1 then 0 else Nat.log2 (c.n - 1) + 1
/-- The payload of START: COLL_ID, OP, MODE, ALGO, ROOT, N, COUNT and the CRC of the group list (R322, log 24). -/
def Coll.startBytes (c : Coll) : List Byte :=
  toBytes 4 c.collId ++ toBytes 1 c.op ++ toBytes 1 (if c.bf16 then 1 else 0) ++ toBytes 2 (if c.direct then 1 else 0) ++
  toBytes 2 c.root ++ toBytes 2 c.n ++ toBytes 4 c.count ++ toBytes 4 c.listCrc.toNat ++ toBytes 4 0

/-! ### Contributions (R86, R322, R323) -/

/-- The EP128 words of a byte string. -/
def epWords (bs : List Byte) : List (BitVec 128) := (chunks 16 (bs.length / 16) bs).map (fun b => BitVec.ofNat 128 (ofBytes b))
/-- The bits of a magnitude. -/
def bitLength (n : Nat) : Nat := if n = 0 then 0 else Nat.log2 n + 1
/-- The need of a block for a group of 2^H members (R322). -/
def blockNeed (h : Nat) (ws : List (BitVec 128)) : Int :=
  ws.foldl (fun a w => let f := epFields w
    if bit f.status 6 then a else max a (f.scale.toInt + (bitLength f.value.toInt.natAbs + h - 62 : Nat))) (-32768)
/-- A need as the 16 bits in which it travels. -/
def needField (x : Int) : Int := if x ≤ 32767 then x else (Config.freeNeed x.toNat).toInt
/-- The anchor agreed for the block of an element. -/
def Coll.anchor (c : Coll) (a : Nat) : Int := Map.get (-32768) c.needs (a / 64)
/-- A contribution of the source bytes of a unit: exact values re-anchored once, with the OR of their status bits [5:0], or
BF16 patterns (R86, R322, R323). -/
def Coll.contrib (c : Coll) (a : Nat) (bs : List Byte) : Contrib :=
  if c.exact then
    let ws := (epWords bs).map (fun w => epFields (reanchorWord w (BitVec.ofInt 16 (c.anchor a))))
    (ws.map (fun f => f.value.toInt), ws.foldl (fun t f => t ||| (f.status.toNat % 64)) 0)
  else ((chunks 2 (bs.length / 2) bs).map (fun b => Int.ofNat (ofBytes b)), 0)
/-- The sum of contributions in increasing rank order: exact, or in FP32 rounded once to BF16 (R322, R323). -/
def Coll.combine (c : Coll) (ps : List Contrib) : Contrib :=
  let at_ (i : Nat) : List Int := ps.map (fun p => p.1.getD i 0)
  let len := match ps with
    | p :: _ => p.1.length
    | [] => 0
  let wide (x : Int) : F32 := f32OfBf16 (BitVec.ofNat 16 x.toNat)
  ((List.range len).map (fun i =>
    if c.exact then (at_ i).foldl (· + ·) 0
    else match at_ i with
      | [] => 0
      | x :: xs => Int.ofNat (bf16OfF32 (xs.foldl (fun t y => f32Add t (wide y)) (wide x))).toNat),
   ps.foldl (fun t p => t ||| p.2) 0)
/-- The payload of a contribution: the low 64 bits of each value, or BF16 elements (R322, R323). -/
def Coll.payload (c : Coll) (x : Contrib) : List Byte :=
  if c.exact then x.1.flatMap (fun v => toBytes 8 (twos 64 v)) else x.1.flatMap (fun v => toBytes 2 v.toNat)
/-- AUX0 of a contribution of the unit at an offset (Table 11.2). -/
def Coll.aux0 (c : Coll) (a : Nat) (x : Contrib) : Nat := if c.exact then twos 16 (c.anchor a) + x.2 * 2 ^ 16 else 0
/-- A contribution as it arrives. -/
def Coll.arrived (c : Coll) (a : Nat) (f : Frame) : Contrib :=
  let bs := toBytes 512 f.payload.toNat
  if c.exact then ((List.range (c.unitLen a)).map (fun i => (BitVec.ofNat 64 (ofBytes (sliceBytes bs (8 * i) 8))).toInt),
    bits (BitVec.ofNat 32 (frAux0 f)) 21 16)
  else ((List.range (c.unitLen a)).map (fun i => Int.ofNat (ofBytes (sliceBytes bs (2 * i) 2))), 0)
/-- The bytes of a result: words with the exact sum, SCALE = A and the status with EMPTY clear and SCALE_MIXED never set (R322), or BF16
elements. -/
def Coll.resultBytes (c : Coll) (a : Nat) (x : Contrib) : List Byte :=
  if c.exact then x.1.flatMap (fun v => toBytes 16 ((0x4000 + x.2 % 32) * 2 ^ 112 + twos 16 (c.anchor a) * 2 ^ 96 + twos 96 v))
  else x.1.flatMap (fun v => toBytes 2 v.toNat)

/-! ### The engine of a collective -/

/-- The collective of a descriptor. -/
def State.collOf (s : State) (f : Flight) : Option Coll := (s.fab f.wing).colls.find? (fun c => c.ring == f.ring && c.seq == f.seq)
/-- Changes the collective of a descriptor. -/
def State.onColl (s : State) (f : Flight) (g : Coll → Coll) : State :=
  s.onFab f.wing (fun x => { x with colls := x.colls.map (fun c => if c.ring == f.ring && c.seq == f.seq then g c else c) })
/-- What ends a collective at this device: a bad block, or a frame without a port (R174, R315). -/
def State.collFault (s : State) (f : Flight) : PassFault → State
  | .block n =>
    let ch := blockChan n
    (s.badBlock f.wing n).endFlight f 2 (memCode 9) 4 ch
  | .noRoute dev => s.endFlight f 2 (linkCode 0x407) 5 dev
/-- Sends a frame of class 0 to a rank. -/
def State.collSend (s : State) (f : Flight) (c : Coll) (kind q k addr aux0 : Nat) (bs : List Byte) : State × Option PassFault :=
  match s.sendFrame f.wing (some (f.ring, f.seq.toNat))
      (mkFrame 0 kind (c.device q) (s.fab f.wing).id.toNat s.hops c.collId k addr aux0 0 bs) with
  | none => (s, some (.noRoute (c.device q)))
  | some t => (t, none)
/-- Sends a COLL_DATA frame to a rank, with the next sequence number. -/
def State.collPut (s : State) (f : Flight) (c : Coll) (a aux0 : Nat) (bs : List Byte) (q : Nat) : State × Option PassFault :=
  match s.collOf f with
  | none => (s, none)
  | some x =>
    let k := Map.get 0 x.sent q
    (s.onColl f (fun y => { y with sent := Map.set y.sent q (k + 1) })).collSend f c 0 q k a aux0 bs
/-- Reads source bytes of a collective; each block read is an unscheduled DRAM operation (R179). -/
def State.collRead (s : State) (f : Flight) (a n : Nat) : Except Nat (State × List Byte) :=
  (s.readBonded f.wing a n).map (fun bs => (s.countExtRead f.wing a n, bs))
/-- Writes result bytes: whole blocks, and the bytes of a block that others share merged into it (R174, R179). -/
def State.collWrite (s : State) (f : Flight) (a : Nat) (bs : List Byte) : State × Option PassFault :=
  passSeq (fun (t : State) (i : Nat) =>
    let lo := max a (512 * (a / 512 + i))
    let hi := min (a + bs.length) (512 * (a / 512 + i + 1))
    let part := sliceBytes bs (lo - a) (hi - lo)
    if hi - lo = 512 then
      ({ (t.extWrite (t.blockAt f.wing lo) (mkBlock part (Config.freeTag t.freeCtr))) with freeCtr := t.freeCtr + 1 }, none)
    else match t.mergeBonded f.wing lo part with
      | some u => (u, none)
      | none => (t, some (.block (t.blockAt f.wing lo)))) s
    (List.range (ceilDiv (a + bs.length) 512 - a / 512))
/-- Notes an inexact result (R324). -/
def State.collInexact (s : State) (f : Flight) (c : Coll) (x : Contrib) : State :=
  if c.exact && x.2.testBit 4 then s.onColl f (fun y => { y with inexact := true }) else s
/-- A unit that every rank is to have goes on its way: by ring to the next rank unless that owns it, direct from its owner to
every other rank. -/
def State.collSpread (s : State) (f : Flight) (c : Coll) (a aux0 : Nat) (bs : List Byte) : State × Option PassFault :=
  let own := c.owner (c.shardOf a)
  if !c.direct then (if c.next = own then (s, none) else s.collPut f c a aux0 bs c.next)
  else if own = c.rank then passSeq (fun (t : State) q => t.collPut f c a aux0 bs q) s c.others
  else (s, none)
/-- The sum of a unit of this device's shard is complete: it is written, and in an all-reduce goes to the other ranks. -/
def State.collResult (s : State) (f : Flight) (c : Coll) (a : Nat) (x : Contrib) : State × Option PassFault :=
  let off := if c.op = 0 then a - c.rank * c.shard else a
  match (s.collInexact f c x).collWrite f (c.dst + c.elem * off) (c.resultBytes a x) with
  | (t, some e) => (t, some e)
  | (t, none) => if c.op = 2 then t.collSpread f c a (c.aux0 a x) (c.payload x) else (t, none)
/-- This device's own contribution to a unit. -/
def State.collOwn (s : State) (f : Flight) (c : Coll) (a : Nat) : Except Nat (State × Contrib) :=
  (s.collRead f (c.src + c.elem * a) (c.elem * c.unitLen a)).map (fun r => (r.1, c.contrib a r.2))
/-- This device's contribution to a unit sets out for a rank. -/
def State.collOffer (s : State) (f : Flight) (c : Coll) (q a : Nat) : State × Option PassFault :=
  match s.collOwn f c a with
  | .error b => (s, some (.block b))
  | .ok (t, x) => t.collPut f c a (c.aux0 a x) (c.payload x) q
/-- This device's own input of an all-gather, or the root's of a broadcast: written in its place and sent out. -/
def State.collSource (s : State) (f : Flight) (c : Coll) (a : Nat) : State × Option PassFault :=
  match s.collRead f (c.src + (if c.op = 1 then a - c.rank * c.shard else a)) (c.unitLen a) with
  | .error b => (s, some (.block b))
  | .ok (t, bs) =>
    match t.collWrite f (c.dst + a) bs with
    | (u, some e) => (u, some e)
    | (u, none) => u.collSpread f c a 0 bs
/-- What a device sends first: by ring the shard that starts with it, direct every shard to its owner, and the inputs of an
all-gather or broadcast. -/
def State.collBegin (s : State) (f : Flight) (c : Coll) : State × Option PassFault :=
  if c.reduces then
    if c.direct then passSeq (fun (t : State) q => passSeq (fun (u : State) a => u.collOffer f c q a) t (c.units q)) s c.others
    else passSeq (fun (t : State) a => t.collOffer f c c.next a) s (c.units c.prev)
  else if c.op = 1 then passSeq (fun (t : State) a => t.collSource f c a) s (c.units c.rank)
  else if c.rank = c.root then passSeq (fun (t : State) a => t.collSource f c a) s (c.units 0)
  else (s, none)
/-- A collective whose expected frames have all come is ready for its commit point (R324). -/
def State.collCheck (s : State) (f : Flight) : State :=
  match s.collOf f with
  | some c => if c.done then s.onFlight f.ring f.seq (fun g => { g with ready := true, status := if c.inexact then 1 else 0 }) else s
  | none => s
/-- Ends a step of the engine: with its fault, or by a look at whether all is done. -/
def endColl (f : Flight) (r : State × Option PassFault) : State :=
  match r.2 with
  | some e => r.1.collFault f e
  | none => r.1.collCheck f
/-- Once every anchor is agreed the data move; their sequence numbers follow those of the anchors. -/
def State.collMove (s : State) (f : Flight) : State × Option PassFault :=
  match s.collOf f with
  | none => (s, none)
  | some c =>
    if c.anchored && !c.moving then
      let base := if c.direct then c.anchors else (c.n - 1) * c.anchors
      (s.onColl f (fun x => { x with moving := true, sent := c.others.map (fun q => (q, base)) })).collBegin f c
    else (s, none)
/-- One COLL_ANCHOR frame of the needs held: block group j, to a rank, with a sequence number. -/
def State.sendNeeds (s : State) (f : Flight) (j q k : Nat) : State × Option PassFault :=
  match s.collOf f with
  | none => (s, none)
  | some c => s.collSend f c 1 q k (16384 * j) 0 ((List.range (min 256 (c.blocks - 256 * j))).flatMap (fun i =>
      toBytes 2 (twos 16 (Map.get (-32768) c.needs (256 * j + i)))))
/-- The needs of this device's own input, block by block. -/
def State.ownNeeds (s : State) (f : Flight) (c : Coll) : Except Nat (State × List (Nat × Int)) :=
  (s.collRead f c.src (1024 * c.blocks)).map (fun r =>
    (r.1, (List.range c.blocks).map (fun b => (b, needField (blockNeed c.h (epWords (sliceBytes r.2 (1024 * b) 1024)))))))
/-- The exchange begins once every peer's START has come: with the needs in an exact reduction, else with the data. -/
def State.collExchange (s : State) (f : Flight) (c : Coll) : State × Option PassFault :=
  if c.blocks = 0 then (s.onColl f (fun x => { x with exchanging := true })).collMove f
  else match s.ownNeeds f c with
    | .error b => (s, some (.block b))
    | .ok (t, m) =>
      passSeq (fun (u : State) (e : Nat × Nat) => u.sendNeeds f e.1 e.2 e.1)
        (t.onColl f (fun x => { x with exchanging := true, needs := m }))
        ((List.range c.anchors).flatMap (fun j => (if c.direct then c.others else [c.next]).map (fun q => (j, q))))

/-! ### Starting (R320 to R322, R314) -/

/-- Whether a group list breaks R321: a reserved identifier, a duplicate, or this device not exactly once. -/
def groupBad (me : Nat) (ids : List Nat) : Bool :=
  ids.any (fun i => Nat.blt 16383 i) || ids.eraseDups.length != ids.length || !ids.contains me
/-- The collective of a descriptor and its group. -/
def newColl (f : Flight) (ids : List Nat) (me : Nat) (crc : BitVec 32) (pace : Nat) : Coll :=
  let d := f.words
  { ring := f.ring, seq := f.seq, collId := bits d 183 160, op := bits d 131 128, bf16 := bit d 132, direct := bit d 133,
    follow := bit d 134, root := bits d 149 136, src := bits d 239 192, dst := bits d 303 256, count := bits d 351 320,
    group := ids, rank := ids.idxOf me, listCrc := crc, paceAtStart := pace }
/-- START to every peer (R322). -/
def State.sendStarts (s : State) (f : Flight) (c : Coll) : State × Option PassFault :=
  passSeq (fun (t : State) dev =>
    match t.sendFrame f.wing (some (f.ring, f.seq.toNat)) (t.mgmt f.wing 1 dev c.collId 0 c.startBytes) with
    | none => (t, some (.noRoute dev))
    | some u => (u, none)) s c.peers
/-- A COLLECTIVE starts: its addresses, the identifier, its group, then START to its peers. -/
def State.startColl (s : State) (f : Flight) : State :=
  let d := f.words
  let top := bondedTop s.split
  let r := collRanges d
  let n := bits d 414 400
  let me := (s.fab f.wing).id.toNat
  if (bits d 131 128 != 3 && Nat.blt top (bits d 239 192 + r.1)) = true ∨ top < bits d 303 256 + r.2 then s.refuse f (stepCode 1)
  else if top < bits d 399 352 + 4 * n then s.refuse f (mapCode 4)
  else if !(s.fab f.wing).hasId then s.refuse f (linkCode 0x40C)
  else
    let t := s.begin_ f
    match t.collRead f (bits d 399 352) (4 * n) with
    | .error b => t.collFault f (.block b)
    | .ok (u, bs) =>
      let ids := (chunks 4 n bs).map ofBytes
      if groupBad me ids || (bits d 131 128 == 3 && ids.idxOf me == bits d 149 136 && (Nat.blt top (bits d 239 192 + r.1) ||
          overlaps (bits d 239 192) r.1 (bits d 303 256) r.2)) then s.refuse f (stepCode 1)
      else
        let c := newColl f ids me (crc32c bs) (s.wing (s.lead f.wing)).paceCount.toNat
        let r := (u.onFab f.wing (fun x => { x with
          colls := x.colls ++ [c], ended := x.ended.filter (· != c.collId) })).sendStarts f c
        endColl f r

/-! ### Frames of a collective -/

/-- The open collective of a flow that a device takes part in, with its descriptor and that device's rank. -/
def State.openColl (s : State) (w : Nat) (f : Frame) : Option (Flight × Coll × Nat) :=
  match (s.fab w).colls.find? (fun c => c.collId == frFlow f && c.group.contains (frSrc f)) with
  | none => none
  | some c => (s.flight c.ring c.seq).map (fun g => (g, c, c.group.idxOf (frSrc f)))
/-- A START arrives (R322): it waits until the collective is open here, unless that has ended; a difference, or a second one, ends the
collective. -/
def State.takeStart (s : State) (w : Nat) (port : Option Nat) (f : Frame) : Option State :=
  match (s.fab w).colls.find? (fun c => c.collId == frFlow f) with
  | none => if (s.fab w).ended.contains (frFlow f) then some (s.stale port) else none
  | some c => match s.flight c.ring c.seq with
    | none => none
    | some g =>
      if toBytes 24 f.payload.toNat != c.startBytes then
        let s1 := s.arrivalErr w port 0x409 (frFlow f)
        some (match port with
          | some p => s1.endOp (c.ring, c.seq.toNat) 0x409 3 p
          | none => s1.endOp (c.ring, c.seq.toNat) 0x409 5 (frSrc f))
      else if !c.peers.contains (frSrc f) then some (s.stale port)
      else if c.started.contains (frSrc f) then some (s.flowFault w port f 0x406)
      else
        let c1 : Coll := { c with started := frSrc f :: c.started }
        let s1 := s.onColl g (fun _ => c1)
        some (if c.peers.all (fun p => c1.started.contains p) then endColl g (s1.collExchange g c1) else s1)
/-- Takes a sequence number: none where it is a duplicate or beyond the count known (R318). -/
def Coll.take (c : Coll) (q k lo n : Nat) : Option Coll :=
  if lo ≤ k ∧ k < lo + n ∧ (c.seenFrom q).contains k = false then some { c with seen := Map.set c.seen q (k :: c.seenFrom q) } else none
/-- Needs arrive (R322): the largest of each block is kept, and by ring passed on for N − 1 rounds. -/
def State.takeAnchor (s : State) (w : Nat) (port : Option Nat) (f : Frame) : Option State :=
  match s.openColl w f with
  | none => some (s.stale port)
  | some (g, c, q) =>
    if !c.exchanging then none
    else match c.take q (frSeq f) 0 (c.anchorsFrom q) with
      | none => some (s.flowFault w port f 0x406)
      | some c1 =>
        let j := frAddr f / 16384
        let k := frSeq f
        let bs := toBytes 512 f.payload.toNat
        let c2 : Coll := { c1 with needs := (List.range (min 256 (c.blocks - 256 * j))).foldl (fun m i =>
          let b := 256 * j + i
          Map.set m b (max (Map.get (-32768) m b) (BitVec.ofNat 16 (ofBytes (sliceBytes bs (2 * i) 2))).toInt)) c1.needs }
        let s1 := s.onColl g (fun _ => c2)
        let r := if !c.direct && Nat.blt (k + c.anchors) ((c.n - 1) * c.anchors) then s1.sendNeeds g j c.next (k + c.anchors) else (s1, none)
        some (endColl g (match r with
          | (t, some e) => (t, some e)
          | (t, none) => t.collMove g))
/-- What a data frame of the unit at an offset does (R322, R323): a reduction frame is added and passed on, or kept until
every rank has contributed; a gathered unit is written and passed on. -/
def State.collTake (s : State) (f : Flight) (c : Coll) (q a : Nat) (fr : Frame) : State × Option PassFault :=
  let k := c.shardOf a
  let gathered := !c.reduces || (if c.direct then k != c.rank else k == c.prev || (k != c.rank && c.passed.contains a))
  let x := c.arrived a fr
  if gathered then
    let bs := if c.reduces then c.resultBytes a x else sliceBytes (toBytes 512 fr.payload.toNat) 0 (c.unitLen a)
    match (s.collInexact f c x).collWrite f (c.dst + c.elem * a) bs with
    | (t, some e) => (t, some e)
    | (t, none) => t.collSpread f c a (frAux0 fr) (if c.reduces then c.payload x else bs)
  else match s.collOwn f c a with
    | .error b => (s, some (.block b))
    | .ok (t, own) =>
      if c.direct then
        let h := Map.get [] c.held a ++ [(q, x)]
        let all := (h ++ [(c.rank, own)])
        let t1 := t.onColl f (fun y => { y with held := Map.set y.held a h })
        if h.length + 1 < c.n then (t1, none)
        else t1.collResult f c a (c.combine ((List.range c.n).flatMap (fun r => (all.filter (fun e => e.1 == r)).map (·.2))))
      else
        let y := c.combine [x, own]
        let t1 := t.onColl f (fun z => { z with passed := a :: z.passed })
        if k = c.rank then t1.collResult f c a y else t1.collPut f c a (c.aux0 a y) (c.payload y) c.next
/-- Data arrive (R318, R322, R323): they wait until every anchor is agreed. -/
def State.takeColl (s : State) (w : Nat) (port : Option Nat) (f : Frame) : Option State :=
  match s.openColl w f with
  | none => some (s.stale port)
  | some (g, c, q) =>
    if !c.moving then none
    else match c.take q (frSeq f) (c.anchorsFrom q) (c.dataFrom q) with
      | none => some (s.flowFault w port f 0x406)
      | some c1 =>
        if c.isUnit (frAddr f) then
          let s1 := s.onColl g (fun _ => c1)
          some (endColl g (s1.collTake g c1 q (frAddr f) f))
        else some (s.flowFault w port f 0x406)

/-! ### Pace notices (R325, R326) -/

/-- The lowest point whose typical pace is at least that of a pace count, and the highest point where none is (R326). -/
def pointFor (count : Nat) : Nat :=
  ((List.range 8).find? (fun op => Nat.ble (count * 25000000) (opPace op * 10000000 * 65536))).getD 7
/-- The payload of PACE_NOTICE: PACE_COUNT, the operating point, RECOVERED (R325, log 24). -/
def noticeBytes (count op : Nat) (recovered : Bool) : List Byte :=
  toBytes 4 count ++ toBytes 1 op ++ toBytes 3 (if recovered then 1 else 0)
/-- A notice arrives: where the collective follows, its point is taken or let go (R326). -/
def State.takeNotice (s : State) (w : Nat) (port : Option Nat) (f : Frame) : Option State :=
  match s.openColl w f with
  | none => some (s.stale port)
  | some (g, c, _) =>
    let n := f.payload.toNat
    let recovered := n / 2 ^ 40 % 2 == 1
    some (if c.follow then
      (s.onColl g (fun x => { x with following := if recovered then none else some (pointFor (n % 2 ^ 32)) })).refollow w
    else s)
/-- The current operating point of a wing: the highest whose voltage V_common reaches, up to the one that bounds it (R325, R414;
log 60). -/
def WingPower.current (p : WingPower) : Nat := (((List.range 8).filter (fun op => Nat.ble (opMv op) p.vCommon)).foldl max 0) |> min p.op
/-- Notices to every other member of a collective (R325); one that finds no up port ends it (R315). -/
def State.sendNotice (s : State) (w : Nat) (recovered : Bool) (c : Coll) : State :=
  let x := s.wing (s.lead w)
  let bs := noticeBytes x.paceCount.toNat x.power.current recovered
  c.others.foldl (fun (t : State) r =>
    match t.flight c.ring c.seq with
    | none => t
    | some f => match t.sendFrame w (some (c.ring, c.seq.toNat)) (t.mgmt w 3 (c.device r) c.collId 0 bs) with
      | some u => u
      | none => t.endFlight f 2 (linkCode 0x407) 5 (c.device r)) s
/-- Whether a wing's pace lies more than 5 % below that of a collective's start. -/
def State.fallen (s : State) (w : Nat) (c : Coll) : Bool :=
  Nat.blt ((s.wing (s.lead w)).paceCount.toNat * 100) (c.paceAtStart * 95)
/-- At the end of a window, notices of a fall of pace and of its end (R325). -/
def State.noticeFall (s : State) (w : Nat) : State :=
  let cs := (s.fab w).colls
  let s1 := (cs.filter (fun c => s.fallen w c != c.noticed)).foldl (fun (t : State) c => t.sendNotice w (!s.fallen w c) c) s
  s1.onFab w (fun x => { x with colls := x.colls.map (fun c => { c with noticed := s.fallen w c }) })

end Sys2Proof.Machine
end

