-- ==== Sys2Proof/Machine/MirrorOps.lean ====
section
/-!
DEFINITION. Mirror passes at the mirror and at the owner (R146, R298), and the frames of EXT streams (R317, R318).
-/

namespace Sys2Proof.Machine

/-! ### At the mirror (R146, R298) -/

/-- Whether a mirror pass is that of an owner and a serial. -/
def MirrorIn.isOf (m : MirrorIn) (f : Frame) : Bool := m.owner.toNat == frSrc f && m.serial.toNat == frFlow f
/-- The pass that a frame of an owner belongs to: the one in progress, or a new one that it opens; none where it is stale
(R318). After an ABANDON only a frame numbered 0 opens a new pass (log 35). -/
def Fabric.mirrorFor (b : Fabric) (f : Frame) : Option MirrorIn :=
  let new : MirrorIn := { owner := BitVec.ofNat 20 (frSrc f), serial := BitVec.ofNat 24 (frFlow f) }
  match b.mirrors.find? (fun m => m.isOf f) with
  | none => some new
  | some m =>
    if m.closed then (if frSeq f = 0 then some new else none)
    else if m.returned && m.total.any (fun n => Nat.ble (frSeq f) n) then some new
    else some m
/-- Keeps a mirror pass. -/
def State.setMirror (s : State) (w : Nat) (m : MirrorIn) : State :=
  s.onFab w (fun x => { x with mirrors := m :: x.mirrors.filter (fun y => !(y.owner == m.owner && y.serial == m.serial)) })
/-- An end-to-end fault at the mirror ends the pass there, and the owner is told (R318, R319). -/
def State.mirrorFault (s : State) (w : Nat) (port : Option Nat) (f : Frame) (n : Nat) : State :=
  let s1 := s.arrivalErr w port n (frFlow f)
  (s1.onFab w (fun x => { x with mirrors := x.mirrors.map (fun m => if m.isOf f then { m with closed := true } else m) })).trySend w
    [s1.mgmt w 2 (frSrc f) (frFlow f) 0 []]
/-- The entry that names an owner, if a valid one does (Table 10.5). -/
def State.mirrorEntry (s : State) (dev : Nat) : Option MirrorSrc :=
  ((List.range 8).map (fun i => Map.get {} s.mirrorSrc i)).find? (fun e => e.valid && e.owner.toNat == dev)
/-- The address of a mirror block here, unless the pass is refused (R298). -/
def State.mirrorAddr (s : State) (f : Frame) : Option Nat :=
  if !s.domainSet || frAux1 f == s.domainId.toNat then none
  else match s.mirrorEntry (frSrc f) with
    | none => none
    | some e =>
      let a := frAddr f + e.offsetGib.toNat * 2 ^ 30
      if bondedTop s.split < a + 8 * frLen8 f then none else some a
/-- Whether the mirror writes a block with tag t over its own copy's tag, and whether it counts it (R146). -/
def mirrorTag (kind own t : Nat) : Bool × Bool :=
  match kind with
  | 0 => (own + 1 == t, own + 1 != t && own != t)
  | 1 => (Nat.blt own t, Nat.blt t own)
  | _ => (true, false)
/-- One block of a mirror pass, disposed of by the tag of the copy here; a group entry is merged into its block (R146). -/
def State.mirrorBlock (s : State) (w : Nat) (m : MirrorIn) (a : Nat) (f : Frame) : State × MirrorIn :=
  let n := s.blockAt w a
  let skip : MirrorIn := { m with skew := m.skew + 1 }
  if frLen8 f < 64 then
    match s.mergeBonded w a (frBytes f) with
    | some t => (t, m)
    | none => (s.recordChan (512 * n) 0 9, skip)
  else
    let kind := Config.bulkKind f.header
    let put : State := s.extWrite n (mkBlock (frBytes f) (BitVec.ofNat 32 (frAux0 f)))
    if kind ≤ 1 then
      let s1 := s.countExt (blockChan n) 1
      if !(s.block n).good then (s1.recordChan (512 * n) 0 9, skip)
      else
        let (write, count) := mirrorTag kind (s.block n).tag.toNat (frAux0 f)
        (if write then put.countExt (blockChan n) 1 else s1, if count then skip else m)
    else (put, m)
/-- At the end of a pass the mirror returns its count, or its refusal (R146, R298). -/
def State.mirrorReturn (s : State) (w : Nat) (m : MirrorIn) : State :=
  if !m.returned && m.total.any (fun n => (List.range (n + 1)).all (fun k => m.seen.contains k)) then
    let fr := mkFrame 2 (if m.refused then 2 else 1) m.owner.toNat (s.fab w).id.toNat s.hops m.serial.toNat 0 0 0 0
      (if m.refused then [] else toBytes 8 m.skew)
    (s.setMirror w { m with returned := true }).trySend w [fr]
  else s.setMirror w m
/-- A frame of a mirror pass that has passed its check (R146, R298, R318). -/
def State.takeMirror (s : State) (w : Nat) (port : Option Nat) (f : Frame) : State :=
  match (s.fab w).mirrorFor f with
  | none => s.stale port
  | some m0 =>
    let k := frSeq f
    if m0.seen.contains k || (!m0.returned && m0.total.any (fun n => Nat.blt n k)) then s.mirrorFault w port f 0x406
    else
      let m : MirrorIn := { m0 with seen := k :: m0.seen, total := if frLen8 f = 0 then some k else m0.total }
      match s.mirrorAddr f with
      | some a =>
        if m.refused || frLen8 f == 0 then s.mirrorReturn w m
        else
          let (t, m1) := s.mirrorBlock w m a f
          t.mirrorReturn w m1
      | none => (if m.refused then s else s.recordMap (s.lead w) (mapCode 7) 0 (frSrc f)).mirrorReturn w { m with refused := true }
/-- A BULK_DATA frame is taken up. -/
def State.takeBulk (s : State) (w : Nat) (f : Frame) : State :=
  if frCls f = 2 ∧ frKind f = 0 then
    match s.takeInbox w f with
    | none => s
    | some (t, port) => if frE2eOk f then t.takeMirror w port f else t.mirrorFault w port f 0x405
  else s

/-! ### At the owner (R146, R298) -/

/-- The running pass whose mirror sends a frame. -/
def State.mirrored (s : State) (w : Nat) (f : Frame) : Option (Flight × Pass) :=
  match (s.wing (s.lead w)).pass with
  | none => none
  | some p => match s.flight p.ring p.seq with
    | none => none
    | some g => if bit g.words 256 && bits g.words 279 260 == frSrc f && bits g.words 159 128 % 2 ^ 24 == frFlow f then some (g, p) else none
/-- The mirror's count arrives (R146); a second one is a duplicate. -/
def State.takeReturn (s : State) (w : Nat) (port : Option Nat) (f : Frame) : Option State :=
  match s.mirrored w f with
  | none => some (s.stale port)
  | some (g, p) =>
    if p.returned then some (s.flowFault w port f 0x406)
    else some ((s.onWing (s.lead w) (fun x => { x with pass := some { p with
      returned := true, counts := { p.counts with mirrorSkew := f.payload.toNat % 2 ^ 32 } } })).finishPass g)
/-- A refusal arrives: the pass ends with MAP:0x007 (R298). -/
def State.takeRefusal (s : State) (w : Nat) (port : Option Nat) (f : Frame) : Option State :=
  match s.mirrored w f with
  | none => some (s.stale port)
  | some _ => some ((s.recordMap (s.lead w) (mapCode 7) 0 (frSrc f)).endStep w (mapCode 7) 5 (frSrc f) true)

/-! ### EXT streams (R317, R318) -/

/-- Whether a slot runs an optical EXT stream of a kind with the flow and the peer of a frame. -/
def Core.extSlot (c : Core) (slot kind : Nat) (f : Frame) : Bool :=
  let d := (c.slot slot).desc
  c.slotBusy slot && dKind d == kind && dOptical d && dFlow d == frFlow f && dPeer d == frSrc f
/-- The blocks that an EXT_IN stream has granted so far. -/
def DmaSlot.grantedBlocks (x : DmaSlot) : Nat :=
  ((List.range (min (dRing x.desc + x.released.length) (dTiles x.desc))).map (tileBlocks (dLocal x.desc))).sum
/-- A STREAM_DATA frame for a slot (R317, R318). -/
def State.takeStream (s : State) (core slot : Nat) (port : Option Nat) (f : Frame) : Option State :=
  let c := s.core core
  let x := c.slot slot
  let w := wingOf core
  if c.extSlot slot 4 f then
    let b := frSeq f - x.baseSeq
    if frSeq f < x.baseSeq then some (s.stale port)
    else if x.grantedBlocks ≤ b ∨ x.extSeen.contains b = true then some (s.flowFault w port f 0x406)
    else some ((s.setCore core (c.setSlot slot { x with extSeen := b :: x.extSeen })).placeExt core slot (frAddr f / 512)
      (toBytes 512 f.payload.toNat))
  else if (s.wing w).extFlows.contains (frSrc f, frFlow f) then none
  else some (s.stale port)
/-- A GRANT for a slot: the first gives the base sequence; each adds its tiles (R317). A second one of a number is a fault, and one
below the base is stale (R318). A GRANT opens its flow, so one that comes before its stream waits (log 24). -/
def State.takeGrant (s : State) (core slot : Nat) (port : Option Nat) (f : Frame) : Option State :=
  let c := s.core core
  let x := c.slot slot
  if c.extSlot slot 5 f then
    if x.granted != 0 && Nat.blt (frSeq f) x.baseSeq then some (s.stale port)
    else if x.grantSeen.contains (frSeq f) then some (s.flowFault (wingOf core) port f 0x406)
    else some (s.setCore core (c.setSlot slot { x with
      baseSeq := if x.granted = 0 then f.payload.toNat % 2 ^ 32 else x.baseSeq,
      granted := x.granted + f.payload.toNat / 2 ^ 32 % 2 ^ 32, grantSeen := frSeq f :: x.grantSeen }))
  else none

/-! ### ABANDON and timeouts (R319) -/

/-- An ABANDON arrives: the operation of its flow ends with LINK:0x40D; at a mirror it ends nothing, and the pass takes no
further frame (R146, R319). -/
def State.takeAbandon (s : State) (w : Nat) (port : Option Nat) (f : Frame) : Option State :=
  match s.flowOp w (frFlow f) (frSrc f) with
  | some _ => some (s.flowFault w port f 0x40D)
  | none =>
    if (s.fab w).mirrors.any (fun m => m.isOf f && !m.closed) then
      some (s.onFab w (fun x => { x with mirrors := x.mirrors.map (fun m => if m.isOf f then { m with closed := true } else m) }))
    else some (s.stale port)
/-- No frame of a flow has come within its timeout: the collective, the step or the pass ends with LINK:0x408 (R146,
R319). -/
def State.flowTimeout (s : State) (w flow : Nat) : State :=
  match (s.fab w).colls.find? (fun c => c.collId == flow) with
  | some c => match s.flight c.ring c.seq with
    | some f => if f.ready then s else s.endFlight f 2 (linkCode 0x408) 0 0
    | none => s
  | none =>
    match ((s.wings (s.lead w)).flatMap (fun v => (s.wing v).extFlows)).find? (fun e => e.2 == flow) with
    | some e => s.endStep w (linkCode 0x408) 5 e.1 true
    | none => match (s.wing (s.lead w)).pass with
      | none => s
      | some p => match s.flight p.ring p.seq with
        | none => s
        | some g =>
          if bit g.words 256 && p.ended && !p.returned && bits g.words 159 128 % 2 ^ 24 == flow then
            s.endStep w (linkCode 0x408) 5 (bits g.words 279 260) true
          else s

end Sys2Proof.Machine
end

