-- ==== Sys2Proof/Machine/DumpOps.lean ====
section
/-!
DEFINITION. Synchronisation dumps (R276 to R279).
-/

namespace Sys2Proof.Machine

/-- One wafer course as a dump holds it (Table 9.8). -/
def waferBytes (r : WaferCourse) : List Byte :=
  toBytes 16 (r.arrived % 2 ^ 20 + r.participants % 2 ^ 20 * 2 ^ 20 + (if r.gen then 2 ^ 40 else 0) + (if r.overran then 2 ^ 41 else 0))
/-- The 64 wafer courses of a wing (Table 9.8). -/
def waferTable (m : List (Nat × WaferCourse)) : List Byte := (List.range 64).flatMap (fun k => waferBytes (Map.get {} m k))
/-- The 512 bytes of a dump's header (Table 9.8). -/
def dumpHeader (valid split : Bool) (wing : Nat) (fault : Code) (step : BitVec 32) : List Byte :=
  toBytes 512 (1 + (if valid then 2 ^ 8 else 0) + (if split then 2 ^ 9 else 0) + (if split && wing == 1 then 2 ^ 10 else 0) +
    fault.toNat * 2 ^ 16 + step.toNat * 2 ^ 32 + (if split then 339456 else 678912) * 2 ^ 64)
/-- One per-core course as a dump holds it (Table 9.9). -/
def courseBytes (c : Course) : List Byte :=
  toBytes 16 (c.arrived.toNat + c.participants.toNat * 2 ^ 64 + (if c.gen then 2 ^ 71 else 0) + (if c.overran then 2 ^ 72 else 0))
/-- A mask with one bit for each tally pair that satisfies p. -/
def tallyMask (m : List (Nat × Tally)) (p : Tally → Bool) : Nat :=
  (List.range 32).foldl (fun a k => if p (Map.get {} m k) then a + 2 ^ k else a) 0
/-- The 1,024 bytes of a core record; the state fields are zero where there is no state to show (Table 9.9). -/
def coreRecord (core : Nat) (snapshot lost : Bool) (x : Option Snap) : List Byte :=
  let k : Snap := x.getD { courses := [], tallies := [], eps := [], counters := [], preds := 0, epoch := 0, beat := 0, layer := 0 }
  padTo 1024 (toBytes 16 (1 + core * 2 ^ 8 + k.layer.toNat * 2 ^ 40 + k.epoch.toNat * 2 ^ 48 + (if snapshot then 2 ^ 50 else 0) +
      (if lost then 2 ^ 51 else 0) + k.beat.toNat * 2 ^ 64) ++
    (List.range 16).flatMap (fun i => courseBytes (Map.get {} k.courses i)) ++
    (List.range 32).flatMap (fun i => let t := Map.get {} k.tallies i
      toBytes 4 t.prod.toNat ++ toBytes 4 t.cons.toNat) ++
    (List.range 32).flatMap (fun i => toBytes 2 (Map.get {} k.tallies i).buffers.toNat) ++
    toBytes 4 (tallyMask k.tallies (·.sat)) ++ toBytes 4 (tallyMask k.tallies (·.bound)) ++
    (List.range 32).flatMap (fun i => toBytes 4 ((k.eps.getD i 0)).toNat) ++
    (List.range 16).flatMap (fun i => toBytes 2 (Map.get 0 k.counters i).toNat) ++ [k.preds])
/-- The cores of a dump in the order of their records (R278). -/
def dumpCores (split : Bool) (w : Nat) : List Nat :=
  if split then (List.range 816).flatMap (fun y => (List.range 416).map (fun x => mkCore (x + 416 * w) y))
  else (List.range 816).flatMap (fun y => (List.range 832).map (fun x => mkCore x y))
/-- One core's record: its snapshot, or its live state (R276, R278). -/
def State.dumpCore (s : State) (w c : Nat) (live : Bool) : List Byte :=
  let x := s.core c
  if live then coreRecord (localCore s.split w c) false false (some x.takeSnap)
  else coreRecord (localCore s.split w c) true x.snapLost (if x.snapLost then none else x.snap)
/-- The header that opens a wing's dump; live state carries the step index that its first core holds (log 37). -/
def State.dumpHead (s : State) (w : Nat) (live : Bool) : List Byte :=
  let x := s.wing (s.lead w)
  if live then dumpHeader x.snapValid s.split w 0 (s.core (mkCore (if s.split then 416 * w else 0) 0)).arith.srStep
  else dumpHeader x.snapValid s.split w x.snapFault x.snapStep
/-- A piece of a dump: its offset and its bytes. -/
abbrev Piece := Nat × List Byte
/-- The pieces of a dump (Table 9.8); without a held snapshot a snapshot dump is its header alone (R279). -/
def State.dumpPieces (s : State) (w : Nat) (live : Bool) : List Piece :=
  let l := s.lead w
  let x := s.wing l
  let courses (v : WingState) : List Byte := waferTable (if live then v.wafer else v.waferSnap)
  (0, s.dumpHead w live) ::
  (if live || x.snapValid then
    (512, courses x) :: (1536, if s.split then List.replicate 1024 0 else courses s.east) ::
      (dumpCores s.split l).zipIdx.map (fun e => (2560 + 1024 * e.2, s.dumpCore l e.1 live))
  else [])
/-- Writes pieces into bonded memory, as whole blocks with a tag (R278, R179). -/
def State.writePieces (s : State) (w a : Nat) (tag : BitVec 32) (ps : List Piece) : State :=
  ps.foldl (fun (t : State) p => (List.range (p.2.length / 512)).foldl (fun (u : State) i =>
    u.extWrite (globalAddr u.split w (a + p.1 + 512 * i) / 512) (mkBlock (sliceBytes p.2 (512 * i) 512) tag)) t) s
/-- Writes pieces to companion memory. -/
def State.postPieces (s : State) (f : Flight) (a : Nat) (ps : List Piece) : State :=
  ps.foldl (fun (t : State) p => t.writeComp (a + p.1) p.2 (.flight f.ring f.seq)) s
/-- A DUMP_SYNC starts and writes its dump (R277 to R279). -/
def State.startDump (s : State) (f : Flight) : State :=
  let d := f.words
  let l := s.lead f.wing
  let live := bit d 129
  if bit d 128 = false ∧ bondedTop s.split < bits d 255 192 + dumpSize s.split then s.refuse f (mapCode 4)
  else
    let t := s.begin_ f
    let ps := s.dumpPieces l live
    let t1 := if bit d 128 then t.postPieces f (bits d 255 192) ps else { (t.writePieces l (bits d 255 192) (Config.freeTag t.freeCtr) ps) with freeCtr := t.freeCtr + 1 }
    t1.onFlight f.ring f.seq (fun g => { g with ready := true, status := if live || (s.wing l).snapValid then 0 else 1 })

end Sys2Proof.Machine
end

