-- ==== Sys2Proof/Machine/StepOps.lean ====
section
/-!
DEFINITION. The start of a STEP_RUN: its pointer list, its patches (R288 to R292) and its run (R166, R351).
-/

namespace Sys2Proof.Machine

/-! ### The pointer list (R288, R290) -/

/-- Entry i of a pointer list: 16 B from offset 16 + 16 i (R288). -/
def plEntry (bs : List Byte) (i : Nat) : BitVec 128 := BitVec.ofNat 128 (ofBytes (sliceBytes bs (16 + 16 * i) 16))
/-- Whether the header of a list is what the program was compiled for (R290). -/
def plHeaderOk (img : Image) (bs : List Byte) : Bool :=
  let h : BitVec 128 := BitVec.ofNat 128 (ofBytes (sliceBytes bs 0 16))
  bits h 7 0 == 1 && bits h 14 8 == img.seqs && bits h 21 15 == img.heads && bits h 127 22 == 0
/-- Whether an entry is valid: reserved bits zero, ADDR in the space (R290). -/
def plEntryOk (split : Bool) (e : BitVec 128) : Bool :=
  bits e 63 49 == 0 && bits e 127 96 == 0 && Nat.blt (bits e 47 0) (bondedTop split)
/-- The first failing entry of a list, if its header or an entry fails; a bad header counts as entry 0 (R290, R303). -/
def plistBad (split : Bool) (img : Image) (bs : List Byte) : Option Nat :=
  if !plHeaderOk img bs then some 0
  else (List.range (img.seqs * img.heads)).find? (fun i => !plEntryOk split (plEntry bs i))

/-! ### Patches (R289 to R291) -/

/-- The value of a patch record: ADDR + ADDEND, POS + ADDEND or LIVE, modulo 2^64 (R290). -/
def patchValue (bs : List Byte) (p : BitVec 128) : Nat :=
  let e := plEntry bs (bits p 34 22)
  match bits p 18 17 with
  | 0 => (bits e 47 0 + bits p 127 64) % 2 ^ 64
  | 1 => (bits e 95 64 + bits p 127 64) % 2 ^ 64
  | _ => bits e 48 48
/-- Whether a patch writes an address beyond the space (R291). -/
def patchBeyond (split : Bool) (bs : List Byte) (p : BitVec 128) : Bool :=
  bits p 18 17 == 0 && Nat.ble (bondedTop split) (patchValue bs p)
/-- Writes the bytes of one patch: the rows concerned, two lines each, are read under their line checks and written back whole
(R160, R290). -/
def Core.patch (c : Core) (bs : List Byte) (p : BitVec 128) : Except CoreFault Core :=
  let a := bits p 16 0
  let n := bits p 21 19 + 1
  let lo := a / 128 * 128
  match c.readMem lo (roundUp (a + n) 128 - lo) with
  | .error f => .error f
  | .ok old => .ok (c.writeMem lo (old.take (a - lo) ++ toBytes n (patchValue bs p) ++ old.drop (a - lo + n)))
/-- What stops the patching of a core. -/
inductive PatchStop where
  | beyond (entry : Nat)
  | fault (f : CoreFault)
/-- Applies a core's patch records in order; those applied before one that fails stay (R291). -/
def Core.patchAll (bs : List Byte) (split : Bool) : Core → List (BitVec 128) → Core × Option PatchStop
  | c, [] => (c, none)
  | c, p :: ps =>
    if patchBeyond split bs p then (c, some (.beyond (bits p 34 22)))
    else match c.patch bs p with
      | .error f => (c, some (.fault f))
      | .ok c1 => Core.patchAll bs split c1 ps
/-- The cores that a schedule patches, in order of Y and then X. -/
def patchCores (x : StepSched) : List Nat := (x.patches.foldl (fun m p => Map.set m p.1 ()) ([] : List (Nat × Unit))).map (·.1)
/-- Patches every core in order, up to the first that stops, which it names (R291). -/
def State.patchFrom (s : State) (w : Nat) (x : StepSched) (bs : List Byte) : List Nat → State × Option (Nat × PatchStop)
  | [] => (s, none)
  | c :: cs =>
    let g := s.named w c
    let (k, stop) := Core.patchAll bs s.split (s.core g) ((x.patches.filter (fun p => p.1 == c)).map (·.2))
    match stop with
    | none => (s.setCore g k).patchFrom w x bs cs
    | some e => (s.setCore g k, some (c, e))

/-! ### The start (R166, R290, R351, R486) -/

/-- A refusal with MAP:0x006 for the contents of a pointer list (R290, R291, R303). -/
def State.refusePlist (s : State) (f : Flight) (entry kind loc : Nat) : State :=
  (s.recordMap f.wing (mapCode 6) entry 0).settleFlight { f with status := 0 } 1 (mapCode 6) kind loc
/-- A pointer list of which a block fails its CRC refuses the step with MEM:0x009 (R290). -/
def State.refuseList (s : State) (f : Flight) (n : Nat) : State :=
  let ch := blockChan n
  (s.badBlock f.wing n).refuseAt f (memCode 9) 4 ch
/-- The prepared step's patches, then its run; a line-check error during patching ends it under R169. -/
def State.patchAndRun (s : State) (f : Flight) (p : Prog) (x : StepSched) (bs : List Byte) : State :=
  let l := s.lead f.wing
  match (s.prepareCores l x).patchFrom l x bs (patchCores x) with
  | (t, none) => t.enterRun f p
  | (t, some (c, .beyond e)) => (t.onCore (t.named l c) (fun y => y.mapEvent 6)).refusePlist f e 1 c
  | (t, some (c, .fault k)) => (t.enterRun f p).coreFault (t.named l c) k
/-- A STEP_RUN starts: the checks of R486, then the pointer list, the sections, the patches and the run (R290). -/
def State.startStep (s : State) (f : Flight) : State :=
  let l := s.lead f.wing
  match s.startRefusal f with
  | some t => t
  | none =>
    match s.prog l (dHandle f.words), s.schedOf l (dHandle f.words) (dSel f.words) with
    | some p, some x =>
      if hasPatches p.image then
        let t := s.countExtRead l (bits f.words 287 240) (plistBytes p.image)
        match s.readBonded l (bits f.words 287 240) (plistBytes p.image) with
        | .error n => t.refuseList f n
        | .ok bs =>
          match plistBad s.split p.image bs with
          | some e => t.refusePlist f e 0 0
          | none => t.patchAndRun f p x bs
      else (s.prepareCores l x).enterRun f p
    | _, _ => s

end Sys2Proof.Machine
end

