-- ==== Sys2Proof/Machine/TestCmds.lean ====
section
/-!
DEFINITION. Step boundaries, in-field tests and test windows (R382, R384, R389, R400 to R407), and the failure of a wire
group (R29, R399).
-/

namespace Sys2Proof.Machine

/-! ### Periodic tests (R400 to R402) -/

/-- A core whose periodic test has just run: nothing is due, and retained sections with a bad line are off (R384, R400). -/
def Core.testedAt (now : Nat) (c : Core) : Core :=
  { c with health := { c.health with lastTest := now, testDue := false },
           mem := { c.mem.turnOff c.mem.entryBad with entryBad := 0 } }
/-- Whether a core is overdue (R402). -/
def State.coreOverdue (s : State) (c : Core) : Bool :=
  c.health.testDue && Nat.blt (c.health.lastTest + 2 * s.periodSeconds) s.seconds
/-- OVERDUE of a wing ends when none of its cores is overdue any more. -/
def State.settleOverdue (s : State) (w : Nat) : State :=
  s.onWing w (fun x => { x with overdue := x.overdue && !x.allCores (fun c => !s.coreOverdue c) })
/-- The cores of some wings whose test is due. -/
def State.dueCores (s : State) (ws : List Nat) : List (Nat × Core) :=
  (ws.flatMap (fun v => (s.wing v).cores)).filter (fun e => e.2.health.testDue)
/-- Inserts a core by the time of its last test. -/
def insertDue (e : Nat × Core) : List (Nat × Core) → List (Nat × Core)
  | [] => [e]
  | x :: xs => if e.2.health.lastTest < x.2.health.lastTest then e :: x :: xs else x :: insertDue e xs
/-- The cores of a slice: up to 8,192 due ones, the most overdue first (R401). -/
def State.sliceCores (s : State) (ws : List Nat) : List Nat :=
  (((s.dueCores ws).foldl (fun m e => insertDue e m) []).take 8192).map (·.1)
/-- Whether a report is about one of some cores. -/
def State.aboutCores (s : State) (cs : List Nat) (r : TestReport) : Bool :=
  cs.any (fun c => r.unit == .core (BitVec.ofNat 22 (s.position c)))
/-- A slice of the periodic test (R401). -/
def State.slice (s : State) (l : Nat) (rs : List TestReport) : State :=
  let ws := s.wings l
  let cs := s.sliceCores ws
  let free := match (s.wing l).lastSlice with
    | none => true
    | some t => Nat.ble (t + 1) s.seconds
  if s.health.autoTest && free && !cs.isEmpty then
    let now := s.seconds
    let s1 := cs.foldl (fun (t : State) c => t.onCore c (Core.testedAt now)) s
    let s2 := s1.enterReports l ws .builtIn (rs.filter (s.aboutCores cs))
    ws.foldl (fun (t : State) v => t.settleOverdue v) (s2.onWing l (fun x => { x with lastSlice := some now }))
  else s

/-! ### Step boundaries (R382, R384, R389) -/

/-- One observed unit at a boundary: a failing observation test takes it out of use; otherwise OBS_LEFT falls, and at 0 the
unit is normal again (R389). -/
def State.observe1 (s : State) (l : Nat) (rs : List TestReport) (u : TestUnit) (cause : Code) : State :=
  match rs.find? (fun r => r.unit == u && !r.pack && failsTest r.result) with
  | some r => s.outOfUse l u cause (coreCode 0x10) r.result false
  | none =>
    let n := (s.unit u).obsLeft - 1
    let s1 := s.onUnit u (fun x => { x with obsLeft := n })
    (if n = 0 && !lastingUnit u then s1.putEntry { s1.health.entry u with state := 0 } else s1).showCore u
/-- The observation tests of a boundary (R389). -/
def State.observation (s : State) (l : Nat) (rs : List TestReport) : State :=
  (s.observedUnits.filter (fun e => (s.wings l).contains (s.unitWing e.1))).foldl (fun (t : State) e => t.observe1 l rs e.1 e.2) s
/-- A step boundary runs the targeted tests due, after a step or pass the observation tests, and then a slice. -/
def State.runBoundary (s : State) (l : Nat) (rs : List TestReport) : State :=
  let x := s.wing l
  let ws := s.wings l
  let mine := rs.filter (fun r => x.bTests.any (fun t => t.1 == r.unit) && !r.pack)
  let s1 := (((s.restoreDomains x.bTests).scanCores x.bTests).enterReports l ws .targeted mine).passOthers l x.bTests rs
  let s2 := if x.boundaryRun then s1.observation l rs else s1
  let s3 := s2.slice l rs
  s3.onWing l (fun y => { y with
    bTests := [], boundaryDue := false, boundaryRun := false,
    boundaries := if x.boundaryDue then BitVec.ofNat 32 (min (y.boundaries.toNat + 1) 0xFFFFFFFF) else y.boundaries,
    halted := y.halted || y.haltPending, haltPending := false })

/-- STEP_BOUNDARY (R382). A boundary whose tests belong to a re-form or follow a drain waits for it (R384, R385). -/
def execStepBoundary (wing : Nat) (reports : List TestReport) (s : State) : Res :=
  atWing wing (.next (
    let l := s.lead wing
    let x := s.wing l
    if (x.boundaryDue || !x.bTests.isEmpty) && x.phase == 7 && x.reformDue.isNone && x.drain.isNone && (s.runningArray l).isNone then
      s.runBoundary l reports
    else s))

/-- TEST_DUE (R400). -/
def execTestDue (core : Nat) (s : State) : Res :=
  atCore core (.next (
    if Nat.ble ((s.core core).health.lastTest + s.periodSeconds) s.seconds then
      s.onCore core (fun c => { c with health := { c.health with testDue := true } })
    else s))
/-- TEST_OVERDUE (R402). -/
def execTestOverdue (core : Nat) (s : State) : Res :=
  atCore core (.next (
    let w := wingOf core
    if s.coreOverdue (s.core core) && !(s.wing w).overdue then
      ((s.onWing w (fun x => { x with overdue := true })).logEntry w (coreCode 0x23) 0 (s.position core) 0 false
        (coreCode 0x23)).attend w
    else s))

/-! ### TEST_WINDOW (R403 to R407) -/

/-- The cluster of a unit that lies in one. -/
def unitCluster : TestUnit → Option Nat
  | .core p => some (p.toNat / 65536)
  | .row p => some (p.toNat / 65536)
  | .channel c _ => some c
  | .vdomain n => some n
  | .transit n => some n
  | _ => none
/-- The window of a TEST_WINDOW descriptor (Table 14.6). -/
def mkWindow (f : Flight) : WindowRun :=
  { ring := f.ring, seq := f.seq, due := bit f.words 128, full := bit f.words 129, observed := bit f.words 130,
    pack := bit f.words 131, mask := bits f.words 207 160, budgetMs := bits f.words 223 208 }
/-- Whether a report belongs to a window's tests: a periodic test of a selected core, the targeted test of an observed unit,
or a test of the pack. -/
def State.inWindow (s : State) (v : WindowRun) (r : TestReport) : Bool :=
  let sel := match unitCluster r.unit with
    | some n => v.selects n
    | none => v.mask == 0
  let due := match r.unit with
    | .core p => match s.coreAt p.toNat with
      | some c => v.full || (v.due && (s.core c).health.testDue)
      | none => false
    | _ => false
  sel && (if r.pack then v.pack else due || (v.observed && s.observed r.unit))
/-- The logical cores of a cluster. -/
def clusterCores (n : Nat) : List Nat :=
  (List.range 136).flatMap (fun y => (List.range 104).map (fun x => mkCore (n % 8 * 104 + x) (n / 8 * 136 + y)))
/-- Applies f to every core of the clusters that a window selects. -/
def State.mapSelected (s : State) (l : Nat) (v : WindowRun) (f : Core → Core) : State :=
  if v.mask = 0 then s.mapCores l f
  else (((List.range 48).filter (fun n => v.selects n && (s.wings l).contains (wingOfCluster n))).flatMap clusterCores).foldl
    (fun (t : State) c => t.onCore c f) s
/-- The reports of a window: verdicts entered, and the cores that they name tested. A wing that a verdict puts in FAILED has no window
left (R405). -/
def State.enterWindow (s : State) (l : Nat) (v : WindowRun) (rs : List TestReport) : State :=
  let mine := rs.filter (s.inWindow v)
  let now := s.seconds
  let s1 := s.enterReports l (s.wings l) .builtIn mine
  let s2 := mine.foldl (fun (t : State) r =>
    match r.unit with
    | .core p => if r.pack then t else match s.coreAt p.toNat with
      | some c => t.onCore c (Core.testedAt now)
      | none => t
    | _ => t) s1
  s2.onWing l (fun x => { x with window := x.window.map (fun _ => { v with
    found := v.found || mine.any (fun r => failsTest r.result) }) })
/-- The selected cores that a window still has to test are done, unless its budget has run out: then they stay due (R404). -/
def State.closeWindow (s : State) (l : Nat) (v : WindowRun) (reported : Nat) : State :=
  let sel (c : Nat) : Bool := v.selects (clusterOf c)
  if v.expired then
    let left := (v.due && (s.dueCores (s.wings l)).any (fun e => sel e.1)) || (v.full && Nat.blt reported
      (14144 * ((List.range 48).filter (fun n => v.selects n && (s.wings l).contains (wingOfCluster n))).length))
    s.onWing l (fun x => { x with window := x.window.map (fun u => { u with left := left }) })
  else
    let now := s.seconds
    let f (c : Core) : Core := if v.full || (v.due && c.health.testDue) then c.testedAt now else c
    (s.wings l).foldl (fun (t : State) w => t.settleOverdue w) (s.mapSelected l v f)
/-- STATUS of a TEST_WINDOW: the highest that applies (Table 14.7). -/
def WindowRun.status (v : WindowRun) : Nat := if v.repaired then 3 else if v.found then 2 else if v.left then 1 else 0

/-- A TEST_WINDOW starts in level mode, with a pending pack made active (R404, R407). -/
def State.startWindow (s : State) (f : Flight) (rs : List TestReport) : State :=
  let l := s.lead f.wing
  let s1 := ((s.begin_ f).activatePack).onWing l (fun x => { x with level := true, window := some (mkWindow f) })
  s1.enterWindow l (mkWindow f) rs
/-- The last tests of a window have finished: nothing but its re-form and its commit point remains. -/
def State.finishWindow (s : State) (f : Flight) (rs : List TestReport) : State :=
  let l := s.lead f.wing
  match (s.wing l).window with
  | some v =>
    if f.ready then s
    else
      let s1 := s.enterWindow l v rs
      match (s1.wing l).window with
      | some u => (s1.closeWindow l u (rs.filter (s.inWindow v)).length).onFlight f.ring f.seq (fun g => { g with ready := true })
      | none => s1
  | none => s

/-- TEST_WINDOW: the first command starts the window with the results that are in; the next one brings the rest and ends
its tests (R403 to R405). -/
def execTestWindow (ring : Nat) (seq : BitVec 32) (reports : List TestReport) (s : State) : Res :=
  below 128 ring (.next (
    match s.flight ring seq with
    | some f =>
      if f.stage = .running ∧ famOf f.words = 9 then s.finishWindow f reports
      else s.starting ring seq 9 (fun g => s.startWindow g reports)
    | none => s))
/-- TEST_BUDGET_EXPIRY (R404). -/
def execTestBudgetExpiry (wing : Nat) (s : State) : Res :=
  atWing wing (.next (s.onWing (s.lead wing) (fun x => { x with
    window := x.window.map (fun v => { v with expired := v.expired || v.budgetMs != 0 }) })))

/-! ### Wire groups (R29, R30, R399) -/

/-- A second failed wire group of a unit of the seam: LINK:0x004 ends any running step of either wing, and a re-form tests it (R280,
R399). -/
def State.seamFail (s : State) (u : TestUnit) : State :=
  [0, 1].foldl (fun (t : State) w => if t.lead w = w then t.endStep w (linkCode 4) 0 0 true else t) (s.followUnit 0 (linkCode 4) u)
/-- WIRE_GROUP_FAILURE: the first switches to the spare group (R29); a second one of a seam unit raises LINK:0x004, and of
a unit inside a wing loses its cluster's geometry (R398). -/
def execWireGroupFailure (u : TestUnit) (group : BitVec 3) (s : State) : Res :=
  .next (
    if wireUnit u then
      let e := s.health.entry u
      if e.spared && bits e.detail 2 0 != group.toNat && e.state != 2 && seamUnit (unitKey u).1 (unitKey u).2 then s.seamFail u
      else s.wireFail u group.toNat
    else s)

end Sys2Proof.Machine
end

