-- ==== Sys2Proof/Machine/RingCmds.lean ====
section
/-!
DEFINITION. Fetching, the families of descriptors but COLLECTIVE and TEST_WINDOW, commit points and outcomes (R343 to
R358).
-/

namespace Sys2Proof.Machine

/-- DESCRIPTOR_FETCH (R343 to R346). -/
def execDescriptorFetch (wing : Nat) (s : State) : Res :=
  atWing wing (.next (let l := s.lead wing
    if s.fetches l then s.fetchTurn l else s))

/-! ### Array descriptors -/

/-- Whether nothing is left to drain on a wing: every core is empty (R210, R215). -/
def State.wingEmpty (s : State) (w : Nat) : Bool := s.allCores (s.lead w) (fun c => c.empty)
/-- PROGRAM_LOAD: its drain ends once every core is empty; then its checks and its installation (R215, R349, R350). -/
def execProgramLoad (ring : Nat) (seq : BitVec 32) (img : Image) (s : State) : Res :=
  below 128 ring (.next (s.starting ring seq 1 (fun f => if s.wingEmpty f.wing then s.startLoad f img else s)))
/-- STEP_RUN (R290, R351, R486). -/
def execStepRun (ring : Nat) (seq : BitVec 32) (s : State) : Res :=
  below 128 ring (.next (s.starting ring seq 2 s.startStep))
/-- UPDATE: it starts, or the pass that runs does its prologue and the next blocks (R143 to R148). -/
def execUpdate (ring : Nat) (seq : BitVec 32) (blocks : Nat) (s : State) : Res :=
  below 128 ring (.next (
    match s.flight ring seq with
    | some f => if f.stage = .running then s.passGoes ring seq 3 (some blocks) else s.starting ring seq 3 s.startPass
    | none => s))
/-- ROOT_REFRESH: it starts, or the pass that runs refreshes every root (R150 to R153). -/
def execRootRefresh (ring : Nat) (seq : BitVec 32) (s : State) : Res :=
  below 128 ring (.next (
    match s.flight ring seq with
    | some f => if f.stage = .running then s.passGoes ring seq 4 none else s.starting ring seq 4 s.startPass
    | none => s))
/-- DUMP_SYNC (R277 to R279). -/
def execDumpSync (ring : Nat) (seq : BitVec 32) (s : State) : Res :=
  below 128 ring (.next (s.starting ring seq 0xB s.startDump))
/-- The re-form that a REFORM asks for (Table 13.6); split mode that stays split re-forms its own wing. -/
def reformRun (split : Bool) (f : Flight) : ReformRun :=
  let goTo := match bits f.words 129 128 with
    | 0 => split
    | 1 => false
    | _ => true
  { phase := 0, byRing := f.ring, bySeq := f.seq, byDesc := true, toSplit := goTo, asked := goTo != split }
/-- A REFORM starts, unless it asks for whole-wafer mode where that is unavailable (R379). -/
def State.startReformDesc (s : State) (f : Flight) : State :=
  if bits f.words 129 128 = 1 ∧ s.wholeAvail = false then s.refuse f (stepCode 8)
  else (s.begin_ f).onWing (s.lead f.wing) (fun x => { x with reform := some (reformRun s.split f) })
/-- REFORM (R379). -/
def execReform (ring : Nat) (seq : BitVec 32) (s : State) : Res :=
  below 128 ring (.next (s.starting ring seq 0xC s.startReformDesc))

/-- Whether a TABLE_WRITE reaches beyond its table (R353). -/
def State.tableOver (s : State) (d : Desc) : Bool :=
  let last := bits d 207 192 + bits d 223 208
  match bits d 129 128 with
  | 0 => Nat.blt s.groupCount last
  | 1 => Nat.blt s.curveLimit.toNat last
  | _ => false
/-- Where the last byte of a TABLE_WRITE ends. -/
def State.tableEnd (s : State) (d : Desc) : Nat :=
  let last := bits d 207 192 + bits d 223 208
  match bits d 129 128 with
  | 0 => 512 * s.groupBase.toNat + 64 * last
  | 1 => 512 * s.curveBase.toNat + 512 * last
  | _ => bits d 335 288 + 512 * bits d 223 208
/-- Bytes of one source record of a table (R353). -/
def recordSize (table : Nat) : Nat := match table with
  | 0 => 64
  | 1 => 512
  | _ => 576
/-- One record of a TABLE_WRITE; none where its table block fails its CRC (R353). -/
def State.writeRecord (s : State) (w : Nat) (d : Desc) (i : Nat) (r : List Byte) : Option State :=
  let n := bits d 207 192 + i
  match bits d 129 128 with
  | 0 => s.mergeBonded w (512 * s.groupBase.toNat + 64 * n) r
  | 1 => some (s.extWrite (s.blockAt w (512 * s.curveBase.toNat + 512 * n)) (mkBlock r 0))
  | _ => some (s.extWrite (s.blockAt w (bits d 335 288 + 512 * i))
      (mkBlock (r.take 512) (BitVec.ofNat 32 (ofBytes (sliceBytes r 512 4)))))
/-- Writes records in increasing order, up to the first that cannot be written (R353). -/
def State.writeRecords (s : State) (w : Nat) (d : Desc) : Nat → List (List Byte) → State × Option Nat
  | _, [] => (s, none)
  | i, r :: rs =>
    match s.writeRecord w d i r with
    | some t => t.writeRecords w d (i + 1) rs
    | none => (s, some i)
/-- A descriptor's reads of the companion have been answered (R334). -/
def State.readsDone (s : State) (f : Flight) : State :=
  { s with link := { s.link with toComp := s.link.toComp.filter (fun m => match m with
      | .rdNc _ _ (.flight r q) => !(r == f.ring && q == f.seq)
      | _ => true) } }
/-- Asks the companion for a range of lines (R334). -/
def State.readComp (s : State) (f : Flight) (a n : Nat) : State :=
  { s with link := { s.link with toComp := s.link.toComp ++ [.rdNc a (n / 64) (.flight f.ring f.seq)] } }
/-- The records of a TABLE_WRITE arrive and are written; a table block that fails its CRC ends it with MEM:0x009. -/
def State.runTable (s : State) (f : Flight) (src : List Byte) : State :=
  let d := f.words
  let size := recordSize (bits d 129 128)
  let count := bits d 223 208
  if src.length = size * count then
    match (s.readsDone f).writeRecords (s.lead f.wing) d 0 (chunks size count src) with
    | (t, none) => t.onFlight f.ring f.seq (fun g => { g with ready := true })
    | (t, some i) =>
      let n := t.blockAt (t.lead f.wing) (512 * t.groupBase.toNat + 64 * (bits d 207 192 + i))
      let ch := blockChan n
      (t.badBlock f.wing n).endArray f.wing
        (memCode 9) 4 ch true
  else s
/-- A TABLE_WRITE starts (R140, R353). -/
def State.startTable (s : State) (f : Flight) (src : List Byte) : State :=
  let d := f.words
  if s.tableOver d then s.refuse f (stepCode 1)
  else if bondedTop s.split < s.tableEnd d then s.refuse f (mapCode 4)
  else ((s.begin_ f).readComp f (bits d 287 224) (recordSize (bits d 129 128) * bits d 223 208)).runTable f src
/-- TABLE_WRITE: it starts, and takes its source once all of it has come (R353). -/
def execTableWrite (ring : Nat) (seq : BitVec 32) (src : List Byte) (s : State) : Res :=
  below 128 ring (.next (
    match s.flight ring seq with
    | some f =>
      if f.stage = .running then (if famOf f.words = 0xD ∧ f.ready = false then s.runTable f src else s)
      else s.starting ring seq 0xD (fun g => s.startTable g src)
    | none => s))

/-! ### COPY (R352) -/

/-- One block of a COPY: its data and source tag; the error is the bonded block that failed its CRC. -/
def State.copySource (s : State) (w : Nat) (d : Desc) (src : List Byte) (i : Nat) : Except Nat Block :=
  if bit d 128 then
    let n := s.blockAt w (bits d 255 192 + 512 * i)
    if (s.block n).good then .ok (s.block n) else .error n
  else .ok (mkBlock (sliceBytes src (512 * i) 512) 0)
/-- Writes one block of a COPY to its destination. -/
def State.copyBlock (s : State) (f : Flight) (i : Nat) (b : Block) : State :=
  let d := f.words
  let a := bits d 319 256 + 512 * i
  if bit d 129 then
    s.extWrite (s.blockAt (s.lead f.wing) a) (mkBlock b.data (if bit d 130 then b.tag else BitVec.ofNat 32 (bits d 383 352)))
  else s.writeComp a b.data (.flight f.ring f.seq)
/-- The blocks of a COPY from block i on; the one that fails its CRC ends it. -/
def State.copyFrom (s : State) (f : Flight) (src : List Byte) : Nat → Nat → State × Option Nat
  | _, 0 => (s, none)
  | i, n + 1 =>
    match s.copySource (s.lead f.wing) f.words src i with
    | .error k => (s, some k)
    | .ok b =>
      let t := if bit f.words 128 then s.countExt (blockChan (s.blockAt (s.lead f.wing) (bits f.words 255 192 + 512 * i))) 1 else s
      (t.copyBlock f i b).copyFrom f src (i + 1) n
/-- A COPY moves its bytes once its source is at hand (R352). -/
def State.runCopy (s : State) (f : Flight) (src : List Byte) : State :=
  let d := f.words
  if bit d 128 || src.length == bits d 351 320 then
    match (s.readsDone f).copyFrom f src 0 (bits d 351 320 / 512) with
    | (t, none) => t.onFlight f.ring f.seq (fun g => { g with ready := true })
    | (t, some n) =>
      let ch := blockChan n
      (t.badBlock f.wing n).endFlight f 2 (memCode 9) 4 ch
  else s
/-- Whether a COPY names a bonded address beyond the space in force (R352). -/
def State.copyBeyond (s : State) (d : Desc) : Bool :=
  let top := bondedTop s.split
  let n := bits d 351 320
  (bit d 128 && Nat.blt top (bits d 255 192 + n)) || (bit d 129 && Nat.blt top (bits d 319 256 + n))
/-- A COPY starts (R352). -/
def State.startCopy (s : State) (f : Flight) (src : List Byte) : State :=
  let d := f.words
  if s.copyBeyond d then s.refuse f (mapCode 4)
  else
    let t := s.begin_ f
    (if bit d 128 then t else t.readComp f (bits d 255 192) (bits d 351 320)).runCopy f src
/-- COPY: it starts, and moves its bytes once its source has come (R352). -/
def execCopy (ring : Nat) (seq : BitVec 32) (src : List Byte) (s : State) : Res :=
  below 128 ring (.next (
    match s.flight ring seq with
    | some f =>
      if f.stage = .running then (if famOf f.words = 6 ∧ f.ready = false then s.runCopy f src else s)
      else s.starting ring seq 6 (fun g => s.startCopy g src)
    | none => s))

/-! ### Control descriptors (R353, R357) -/

/-- FENCE: it starts at once (R347, R353). -/
def execFence (ring : Nat) (seq : BitVec 32) (s : State) : Res :=
  below 128 ring (.next (s.starting ring seq 7 s.begin_))
/-- An OP_MAP with the selected entries replaced (R353). -/
def mergeMap (old : Word) (d : Desc) : Word :=
  BitVec.ofNat 64 ((List.range 16).foldl (fun a t =>
    a + (if bit d (192 + t) then bits d (131 + 4 * t) (128 + 4 * t) else opEntry old t) * 2 ^ (4 * t)) 0)
/-- A PACE_SET writes the OP_MAP of its ring's wing and commits (R353). -/
def State.startPaceSet (s : State) (f : Flight) : State :=
  let t := s.begin_ f
  let t1 := if t.lead f.wing = 0 then { t with link := { t.link with opMap0 := mergeMap t.link.opMap0 f.words } }
    else { t with link := { t.link with opMap1 := mergeMap t.link.opMap1 f.words } }
  t1.commitFlight f
/-- PACE_SET (R353). -/
def execPaceSet (ring : Nat) (seq : BitVec 32) (s : State) : Res :=
  below 128 ring (.next (s.starting ring seq 0xA s.startPaceSet))

/-- Whether the record of a descriptor is decided and not posted (R357). -/
def State.recordPending (s : State) (ring : Nat) (seq : BitVec 32) (p : OutRec → Bool) : Bool :=
  let named (o : OutRec) : Bool := o.ring == ring && o.seq == seq && o.reserved && p o
  s.cq.any (fun e => e.2.waiting.any named || e.2.held.any (fun h => named h.1))
/-- Ends the target of an ABORT that is in flight; the status says whether it ran (R357). -/
def State.abortFlight (s : State) (g : Flight) : State × Nat :=
  if g.stage = .queued then (s.settleFlight { g with status := 0 } 3 (stepCode 4) 0 0, 0)
  else if g.cls = .array then (s.endRunning g.wing 3 (stepCode 4) 0 0 (some 2), 1)
  else (s.endFlight g 3 (stepCode 4) 0 0, 1)
/-- How many unfetched targets are marked (R357). -/
def State.markCount (s : State) : Nat := (s.sq.map (fun r => r.2.marks.length)).sum
/-- Whether a SEQ counts as submitted but not yet fetched, and at which index it lies (R357). -/
def SubRing.unfetched (r : SubRing) (seq : BitVec 32) : Option (BitVec 32) :=
  if (seq - r.expect).toNat < (r.tail - r.head).toNat then some (r.head + (seq - r.expect)) else none
/-- An ABORT starts and decides its target by the first matching case (R357). -/
def State.startAbort (s : State) (f : Flight) : State :=
  let tr := bits f.words 134 128
  let ts : BitVec 32 := BitVec.ofNat 32 (bits f.words 191 160)
  let done (t : State) (status : Nat) (after : Option (Nat × BitVec 32)) : State := t.commitFlight { f with status := status, after := after }
  match s.flight tr ts with
  | some g =>
    if famOf g.words = 8 then s.refuse f (stepCode 1)
    else
      let (t, status) := s.abortFlight g
      done t status (some (tr, ts))
  | none =>
    if s.recordPending tr ts (fun o => o.family == 8) then s.refuse f (stepCode 1)
    else if s.recordPending tr ts (fun _ => true) then done s 2 none
    else match (s.sring tr).unfetched ts with
      | some i =>
        if (s.sring tr).marks.any (fun m => m.1 == i) then done s 2 none
        else if 32 ≤ s.markCount then done s 4 none
        else done (s.onSring tr (fun r => { r with marks := r.marks ++ [(i, f.ring, f.seq)] })) 0 none
      | none => done s 3 none
/-- ABORT (R357). -/
def execAbort (ring : Nat) (seq : BitVec 32) (s : State) : Res :=
  below 128 ring (.next (s.starting ring seq 8 s.startAbort))

/-! ### Commit points (R355, R356) -/

/-- Whether every write of a step to bonded memory is acknowledged (R355). -/
def State.writesAcked (s : State) (w : Nat) : Bool :=
  s.chans.all (fun c => !(s.wings (s.lead w)).contains (wingOfChan c.1) || c.2.writes.all (fun o => o.isNone))
/-- Whether a FENCE may commit: every descriptor fetched before it from the rings that it names has posted its outcome
(R353). -/
def State.fenceClear (s : State) (f : Flight) : Bool :=
  let mask := bits f.words 255 128
  let names (r : Nat) : Bool := if mask = 0 then r == f.ring else mask / 2 ^ r % 2 == 1
  let old (o : OutRec) : Bool := o.reserved && names o.ring && Nat.blt o.order f.order
  s.flights.all (fun g => !(names g.ring && Nat.blt g.order f.order)) &&
  s.cq.all (fun e => e.2.waiting.all (fun o => !old o) && !e.2.held.any (fun h => old h.1))
/-- Whether a running descriptor has reached its commit point (R355). -/
def State.commits (s : State) (f : Flight) : Bool :=
  let l := s.lead f.wing
  f.stage == .running && !s.link.toComp.any (ownMsg f.ring f.seq) &&
  (match famOf f.words with
   | 2 => f.ready && s.writesAcked l
   | 3 => f.ready && s.writesAcked l
   | 4 => f.ready && s.writesAcked l
   | 7 => s.fenceClear f
   | 9 => f.ready && (s.wing l).reformDue.isNone && (s.wing l).reform.isNone && (s.wing l).phase == 7
   | 12 => false
   | _ => f.ready)
/-- What the commit point of a descriptor does besides its record (R149, R152, R168, R350, R404). -/
def State.commitNow (s : State) (f : Flight) : State :=
  let l := s.lead f.wing
  match famOf f.words with
  | 1 => (s.commitLoad f).commitFlight f
  | 2 => (s.closeStep l true).commitFlight f
  | 3 => (s.closeStep l true).commitFlight f
  | 4 =>
    match s.commitRefresh f with
    | (t, none) => (t.closeStep l true).commitFlight f
    | (t, some e) => t.passFault f e
  | 5 => (s.onFab l (fun x => { x with colls := x.colls.filter (fun c => !(c.ring == f.ring && c.seq == f.seq)) })).commitFlight f
  | 9 =>
    let st := match (s.wing l).window with
      | some v => v.status
      | none => 0
    (s.onWing l (fun x => { x with window := none, level := false })).commitFlight { f with status := st }
  | _ => s.commitFlight f
/-- COMMIT_POINT: a running descriptor whose work is done is COMMITTED, unless another event has decided it (R355, R356).
A REFORM commits at its capstone (R379). -/
def execCommitPoint (ring : Nat) (seq : BitVec 32) (s : State) : Res :=
  below 128 ring (.next (
    match s.flight ring seq with
    | some f => if s.commits f then s.commitNow f else s
    | none => s))

/-! ### Postings (R344, R354) -/

/-- The record that a completion ring posts next is sent to the companion. -/
def State.post (s : State) (j : Nat) (timeUs : Nat) : State :=
  let c := s.cring j
  match c.waiting with
  | [] => s
  | r :: rest =>
    if s.mayPost c r then
      let bs := recordBytes c r timeUs
      (s.onCring j (fun x => { x with waiting := rest, held := some (r, bs) })).writeComp c.recordAddr bs (.record j)
    else s
/-- OUTCOME_POST (R354). -/
def execOutcomePost (cq timeUs : Nat) (s : State) : Res := below 128 cq (.next (s.post cq timeUs))
/-- POSTING_RETRY: a posting that the companion answered with an error is sent again (R344). -/
def execPostingRetry (cq : Nat) (s : State) : Res :=
  below 128 cq (.next (
    let c := s.cring cq
    match c.held with
    | some h =>
      if c.retry && s.link.up then (s.onCring cq (fun x => { x with retry := false })).writeComp c.recordAddr h.2 (.record cq)
      else s
    | none => s))

end Sys2Proof.Machine
end

