-- ==== Sys2Proof/Machine/FabricCmds.lean ====
section
/-!
DEFINITION. The commands of the optical fabric (R305 to R326), COLLECTIVE, and the end of a pace window (R54 to R56, R70,
R71).
-/

namespace Sys2Proof.Machine

/-! ### Ports (R305 to R313) -/

/-- What a port has to answer goes out (R310, R311). -/
def State.replyPort (s : State) (p : Nat) : State := if (s.port p).live then s.onPort p Port.reply else s
/-- FRAME_RECEIVE: a data slot arrives at a port (R309, R310). -/
def execFrameReceive (port : Nat) (x : Slot) (s : State) : Res :=
  below 80 port (.next (if (s.port port).live then (s.takeSlot port x).replyPort port else s))
/-- LINK_STATUS_WORD: a link field with its CRC-32C arrives; one that fails it says nothing (R310). -/
def execLinkStatusWord (port : Nat) (link : BitVec 96) (crc : BitVec 32) (s : State) : Res :=
  below 80 port (.next (if (s.port port).live && crc32c (toBytes 12 link.toNat) == crc then
    (s.takeLink port link).replyPort port else s))
/-- FRAME_RESEND_TIMEOUT: unanswered frames are sent again (R310). -/
def execFrameResendTimeout (port : Nat) (s : State) : Res :=
  below 80 port (.next (if (s.port port).live && !(s.port port).replay.isEmpty then s.resendPort port else s))
/-- TRAIN (R312). -/
def execTrain (port : Nat) (t : TrainInfo) (s : State) : Res := below 80 port (.next (s.takeTrain port t))
/-- PORT_TRAIN_PHASE (R312). -/
def execPortTrainPhase (port : Nat) (t : TrainPhase) (s : State) : Res := below 80 port (.next (s.trainPhase port t))
/-- PORT_TRAIN_RETRY (R312). -/
def execPortTrainRetry (port : Nat) (s : State) : Res := below 80 port (.next (s.trainAgain port))
/-- PORT_LOST (R313). -/
def execPortLost (port : Nat) (s : State) : Res := below 80 port (.next (s.losePort port))
/-- LASER_LOST (R305). -/
def execLaserLost (laser : Nat) (s : State) : Res := below 10 laser (.next (s.laserDark laser))
/-- LASER_INPUT_RESTORED (R305). -/
def execLaserInputRestored (laser : Nat) (s : State) : Res := below 10 laser (.next (s.laserLit laser))
/-- DEGRADED_WINDOW (R306). -/
def execDegradedWindow (port : Nat) (s : State) : Res := below 80 port (.next (s.onPort port Port.window))

/-! ### Flows (R317 to R319) -/

/-- STREAM_DATA (R317). -/
def execStreamData (core : Nat) (slot : BitVec 3) (f : Frame) (s : State) : Res :=
  atCore core (.next (s.takeUp (wingOf core) f 1 0 (fun t p => t.takeStream core slot.toNat p f)))
/-- GRANT (R317). -/
def execGrant (core : Nat) (slot : BitVec 3) (f : Frame) (s : State) : Res :=
  atCore core (.next (s.takeUp (wingOf core) f 3 4 (fun t p => t.takeGrant core slot.toNat p f)))
/-- BULK_DATA at the mirror (R146, R298). -/
def execBulkData (wing : Nat) (f : Frame) (s : State) : Res := atWing wing (.next (s.takeBulk wing f))
/-- BULK_RETURN at the owner (R146). -/
def execBulkReturn (wing : Nat) (f : Frame) (s : State) : Res :=
  atWing wing (.next (s.takeUp wing f 2 1 (fun t p => t.takeReturn wing p f)))
/-- BULK_REFUSAL at the owner (R298). -/
def execBulkRefusal (wing : Nat) (f : Frame) (s : State) : Res :=
  atWing wing (.next (s.takeUp wing f 2 2 (fun t p => t.takeRefusal wing p f)))
/-- ABANDON (R319). -/
def execAbandon (wing : Nat) (f : Frame) (s : State) : Res :=
  atWing wing (.next (s.takeUp wing f 3 2 (fun t p => t.takeAbandon wing p f)))
/-- FABRIC_TIMEOUT (R319). -/
def execFabricTimeout (wing : Nat) (flow : BitVec 24) (s : State) : Res := atWing wing (.next (s.flowTimeout wing flow.toNat))

/-! ### Collectives (R320 to R326) -/

/-- COLLECTIVE (R320 to R322). -/
def execCollective (ring : Nat) (seq : BitVec 32) (s : State) : Res :=
  below 128 ring (.next (s.starting ring seq 5 s.startColl))
/-- START (R322). -/
def execStartFrame (wing : Nat) (f : Frame) (s : State) : Res :=
  atWing wing (.next (s.takeUp wing f 3 1 (fun t p => t.takeStart wing p f)))
/-- COLL_ANCHOR (R322). -/
def execCollAnchor (wing : Nat) (f : Frame) (s : State) : Res :=
  atWing wing (.next (s.takeUp wing f 0 1 (fun t p => t.takeAnchor wing p f)))
/-- COLL_DATA (R322, R323). -/
def execCollData (wing : Nat) (f : Frame) (s : State) : Res :=
  atWing wing (.next (s.takeUp wing f 0 0 (fun t p => t.takeColl wing p f)))
/-- PACE_NOTICE (R325, R326). -/
def execPaceNotice (wing : Nat) (f : Frame) (s : State) : Res :=
  atWing wing (.next (s.takeUp wing f 3 3 (fun t p => t.takeNotice wing p f)))
/-- PACE_NOTICE_REPEAT (R325). -/
def execPaceNoticeRepeat (wing : Nat) (s : State) : Res :=
  atWing wing (.next (((s.fab wing).colls.filter (fun c => c.noticed)).foldl (fun (t : State) c => t.sendNotice wing false c) s))

/-! ### The end of a pace window (R54 to R56, R70, R71, R417, R419) -/

/-- The reference core of a wing (R54). -/
def refCore (w : Nat) : Nat := if w = 0 then mkCore 208 408 else mkCore 624 408
/-- The 64 sampled cores of a cluster, spread evenly: every 13th column from 6 on and every 17th row from 8 on (R71; log 49). -/
def sampledCores (n : Nat) : List Nat :=
  (List.range 64).map (fun i => mkCore (n % 8 * 104 + 6 + 13 * (i % 8)) (n / 8 * 136 + 8 + 17 * (i / 8)))
/-- The share of its beats, in units of 0.1 %, in which a cluster's sampled cores waited on a neighbour (Table 2.7). -/
def State.waitShare (s : State) (n : Nat) : Nat :=
  let cs := (sampledCores n).map (fun c => (s.core c).pace)
  1000 * (cs.map (·.winWaits)).sum / (cs.map (·.winBeats)).sum
/-- What a window leaves in PLINTH_PACE (Table 2.6), and its part of the recovery of the reference: only a window wholly within
limits counts (R56). The first window after release leaves WINDOW_TAG at 1 (R70; log 49). -/
def WingState.closeWindow (x : WingState) (count : Nat) : WingState :=
  let ok := !x.refFault && !x.paceDirty
  { x with paceCount := BitVec.ofNat 32 count, paceValid := ok, refWait := if ok then x.refWait - 1 else x.refWait,
           paceDirty := x.refFault, windowTag := x.windowTag + 1 }
/-- What a window leaves at a cluster (Table 2.7, R417); balancing holds while the pace is not valid (R419). -/
def Cluster.closeWindow (x : Cluster) (permille : Nat) (valid rise : Bool) : Cluster :=
  let n := min 1000 permille
  let y : Cluster := { x with waitPermille := BitVec.ofNat 10 n, lagging := Nat.ble n 10 }
  { y with balance := if valid then (y.rebalance rise).balance else y.balance }
/-- A new window starts: its beats and waits are counted from 0 (R54). -/
def Core.newWindow (c : Core) : Core := { c with pace := { c.pace with winBeats := 0, winWaits := 0 } }
/-- The end of a wing's window: the beats of its reference core, the wait shares of its clusters (R54, R70, R71). -/
def State.windowEnd (s : State) (l : Nat) : State :=
  let valid := !(s.wing l).refFault && !(s.wing l).paceDirty
  let rise := Config.riseOk (s.wing1ms l) (s.wing l).power.vCommon s.slopeMw
  let s1 := s.onWing l (fun x => x.closeWindow (s.core (refCore l)).pace.winBeats)
  let s2 := ((List.range 48).filter (fun n => (s.wings l).contains (wingOfCluster n))).foldl (fun (t : State) n =>
    t.onCluster n (fun x => x.closeWindow (s.waitShare n) valid rise)) s1
  let s3 := s2.mapCores l Core.newWindow
  if valid then s3.noticeFall l else s3
/-- PACE_WINDOW_END (R54, R56, R70, R71, R325, R417). Its operands repeat what the controller has counted: an event with another
count, or another share of a cluster that it lists, does not occur. -/
def execPaceWindowEnd (wing : Nat) (count : BitVec 32) (waits : List (Nat × Nat)) (s : State) : Res :=
  atWing wing (.next (
    let l := s.lead wing
    if s.powered && count.toNat == (s.core (refCore l)).pace.winBeats % 2 ^ 32 && waits.all (fun e => e.2 == min 1000 (s.waitShare e.1))
    then s.windowEnd l else s))

end Sys2Proof.Machine
end

