-- ==== Sys2Proof/Machine/LinkCmds.lean ====
section
/-!
DEFINITION. The messages of the Tirrik link and its training (R331 to R337).
-/

namespace Sys2Proof.Machine

/-- INV: the line is dropped and acknowledged; a pinned doorbell line is read again (R334 to R336). -/
def execInv (addr : BitVec 64) (s : State) : Res :=
  .next (
    let a := addr.toNat / 64 * 64
    if s.link.cache.any (fun c => c.addr == a) then
      let l1 : Link := { s.link with cache := s.link.cache.filter (fun c => c.addr != a), toComp := s.link.toComp ++ [.invAck a] }
      let s1 := { s with link := l1 }
      let s2 := (List.range 128).foldl (fun (t : State) i =>
        if (t.sring i).inUse && (t.sring i).dbAddr == a then t.readShared a (.doorbell false i) else t) s1
      (List.range 128).foldl (fun (t : State) j =>
        if (t.cring j).inUse && (t.cring j).dbAddr == a then t.readShared a (.doorbell true j) else t) s2
    else s.linkEvent 0x804)
/-- DATA: read data arrives; data without a request breaks the protocol (R334, R336). -/
def execData (addr : BitVec 64) (line : Desc) (s : State) : Res :=
  .next (
    match takeMsg (isRead addr.toNat) (lineTaken (addr.toNat / 64 * 64)) s.link.toComp with
    | none => s.linkEvent 0x804
    | some (m, ms) =>
      let s1 := { s with link := { s.link with toComp := ms } }
      match useOf m with
      | some u => s1.takeData addr.toNat u line
      | none => s1)
/-- WR_ACK: the oldest write is visible to every agent (R334). -/
def execWrAck (s : State) : Res :=
  .next (
    match takeMsg isWrNc (fun _ => []) s.link.toComp with
    | none => s.linkEvent 0x804
    | some (m, ms) =>
      let s1 := { s with link := { s.link with toComp := ms } }
      match useOf m with
      | some u => s1.takeWrAck u
      | none => s1)
/-- COMPANION_ERROR_RESPONSE (R336, R344). -/
def execCompanionErrorResponse (write : Bool) (addr : BitVec 64) (s : State) : Res :=
  .next (
    match takeMsg (if write then isWrNcAt addr.toNat else isRead addr.toNat) (lineTaken (addr.toNat / 64 * 64)) s.link.toComp with
    | none => s.linkEvent 0x804
    | some (m, ms) =>
      let s1 := { s with link := { s.link with toComp := ms } }
      match useOf m with
      | some u => s1.takeError write u
      | none => s1)

/-- TIRRIK_FLIT: a failed CRC or a gap is answered with a re-send request; a malformed message is discarded and recorded
(R332, R336). -/
def execTirrikFlit (seq : BitVec 12) (crcOk : Bool) (ack : Option (Bool × BitVec 12)) (wellFormed : Bool) (s : State) : Res :=
  .next (
    if s.link.up then
      if !crcOk then
        let (v, f) := satAdd s.link.badFlits s.link.badSat 1
        { s with link := { s.link with badFlits := v, badSat := f, rxNak := true }.answer }
      else if seq ≠ s.link.rxExpect then
        if flitDist seq s.link.rxExpect ≤ 512 then { s with link := s.link.answer }
        else { s with link := { s.link with rxNak := true }.answer }
      else
        let s1 := { s with link := { s.link with rxExpect := seq + 1, rxNak := false }.answer }
        let s2 := if wellFormed then s1 else s1.linkEvent 0x804
        match ack with
        | some (nak, q) => s2.takeAnswer nak q
        | none => s2
    else s)
/-- TIRRIK_RESEND_TIMEOUT: no answer within 2 µs (R332). -/
def execTirrikResendTimeout (s : State) : Res :=
  .next (if s.link.up && !s.link.replay.isEmpty then s.resendFlits else s)
/-- The ports of every wing in cold phase 4 start to train once the link's first attempt has ended (R368). -/
def State.portsAfterLink (s : State) : State :=
  [0, 1].foldl (fun (t : State) v => if (t.wing v).phase = 4 then t.startPorts v else t) s
/-- TIRRIK_TRAIN: a training attempt ends (R12, R13, R333, R368). -/
def execTirrikTrain (lanes : Nat) (companionVersion : BitVec 8) (s : State) : Res :=
  .next (
    if s.link.training && !s.link.up then
      let s1 := { s with link := { s.link with training := false } }
      let s2 := if lanes < 16 then s1.linkEvent 0x802
        else if companionVersion = 0 then s1.linkEvent 0x803
        else s1.linkUp (if lanes < 32 then 16 else 32) 1
      s2.portsAfterLink
    else s)
/-- TIRRIK_TRAIN_RETRY: a link that is down tries again every 100 ms, from phase 4 on (R333, R368). -/
def execTirrikTrainRetry (s : State) : Res :=
  .next (
    if !s.link.up && (Nat.ble 4 s.west.phase.toNat || Nat.ble 4 s.east.phase.toNat) then
      { s with link := { s.link with training := true } }
    else s)
/-- TIRRIK_LANE_LOSS: fewer than 16 lanes remain (R337). -/
def execTirrikLaneLoss (lanes : Nat) (s : State) : Res := .next (if lanes < 16 then s.linkDown 0x807 else s)

end Sys2Proof.Machine
end

