-- ==== Sys2Proof/Machine/PowerCmds.lean ====
section
/-!
DEFINITION. The power controllers' events (R410 to R428): samples, control periods, sensors, coolant flow and power input.
-/

namespace Sys2Proof.Machine

/-- POWER_SAMPLE: every 10 µs; the clusters' own powers come with the last sample of each millisecond (R412). -/
def execPowerSample (vin iin : BitVec 16) (clusterW : List (Nat × BitVec 16 × BitVec 16)) (s : State) : Res :=
  .next (
    if s.powered then
      let s1 := clusterW.foldl (fun (t : State) e =>
        if e.1 < 48 then t.onCluster e.1 (fun x => { x with powerW := e.2.1, ballastW := e.2.2 }) else t) s
      s1.sample vin iin
    else s)
/-- CONTROL_PERIOD (R414 to R416, R418, R419): nothing until the compute rails have first risen. -/
def execControlPeriod (wing : Nat) (s : State) : Res :=
  atWing wing (.next (
    let l := s.lead wing
    if s.powered && Nat.ble 460 (s.wing l).power.vCommon then s.control l else s))
/-- SENSOR_READ (R420, R422, R423). -/
def execSensorRead (readings : List (Nat × List Int)) (s : State) : Res :=
  .next (
    if s.powered then
      let mine := readings.filter (fun e => Nat.blt e.1 48)
      let s1 := mine.foldl (fun (t : State) e => t.readCluster e.1 e.2) s
      if mine.any (fun e => s1.tripsAt e.1 e.2) then s1.trip else s1
    else s)
/-- THROTTLE_TICK: every 1 ms (R421). -/
def execThrottleTick (s : State) : Res :=
  .next (if s.powered then { s with clusters := s.clusters.map (fun e => (e.1, s.throttleCluster e.1 e.2)) } else s)
/-- REGION_RESTORE: TMAX has been 85 °C or less for 100 ms (R422). -/
def execRegionRestore (cluster : Nat) (s : State) : Res :=
  below 48 cluster (.next (
    let x := s.cluster cluster
    if s.powered && x.regionOff && Nat.ble 1000 x.coolReads then
      s.backFrom (s.onCluster cluster (fun y => { y with regionOff := false, throttle := 100, offReads := 0, coolReads := 0 }))
    else s))

/-- A wing whose tests wait for flow (Table 13.5). -/
def WingState.flowGone (x : WingState) : WingState :=
  if x.phase = 5 ∨ (x.phase = 8 ∧ x.warmPhase = 4) ∨ (x.phase = 9 ∧ x.reform.any (fun r => r.phase == 4)) then
    { x with phase := 11 } else x
/-- FLOW_LOST: after capstone compute stops and a running step ends (R424); before it, phases that need flow wait (R369). -/
def execFlowLost (s : State) : Res :=
  .next (
    let s1 := { s with pins := { s.pins with flowOk := false }, west := s.west.flowGone, east := s.east.flowGone }
    if s.powered && (s.capstoned || s.west.phase == 7 || s.east.phase == 7) && !s.power.flowStop then
      let s2 := { s1 with power := { s1.power with flowStop := true } }.recordPower (flowCode 1) 0
      let s3 := [0, 1].foldl (fun (t : State) w => if t.lead w = w then t.endStep w (flowCode 1) 0 0 true else t) s2
      [0, 1].foldl (fun (t : State) w => t.onWing w (fun x => { x with power := { x.power with ballast := 0 } })) s3
    else s1)
/-- FLOW_RESTORE: flow has been good for 1 s (R424). -/
def execFlowRestore (s : State) : Res :=
  .next (if s.pins.flowOk && s.power.flowStop then s.backFrom { s with power := { s.power with flowStop := false } } else s)
/-- FLOW_WAIT_TIMEOUT: flow has been absent for 60 s; the wings that wait for it enter FAILED (R369, R424). -/
def execFlowWaitTimeout (s : State) : Res :=
  .next (
    if s.pins.flowOk then s
    else
      let ws := [0, 1].filter (fun w => (s.wing w).phase == 11 || (s.power.flowStop && Nat.ble 7 (s.wing w).phase.toNat && Nat.ble (s.wing w).phase.toNat 9))
      if ws.isEmpty then s
      else ws.foldl (fun (t : State) w => t.failWing w (flowCode 2)) (s.recordPower (flowCode 2) 0))
/-- INPUT_RANGE (R425). -/
def execInputRange (s : State) : Res := .next (if s.powered then s.inputFails 1 else s)
/-- INPUT_OVERCURRENT (R425). -/
def execInputOvercurrent (s : State) : Res := .next (if s.powered then s.inputFails 2 else s)
/-- CURRENT_LIMIT (R411, R425). -/
def execCurrentLimit (s : State) : Res :=
  .next (if s.powered then { s with west := s.west.cutV, east := s.east.cutV } else s)
/-- RAIL_FAULT (R425). -/
def execRailFault (cluster : Nat) (s : State) : Res :=
  below 48 cluster (.next (
    if s.powered && (s.cluster cluster).railUp then
      let w := wingOfCluster cluster
      let s1 := (s.onCluster cluster (fun x => { x with railFault := true })).recordPower (powerCode 3) cluster
      (s1.followUnit w (powerCode 3) (.vdomain cluster)).endStep w (powerCode 3) 2 cluster true
    else s))
/-- INPUT_RESTORE (R425). -/
def execInputRestore (s : State) : Res :=
  .next (if s.power.inputFault then s.backFrom { s with power := { s.power with inputFault := false } } else s)

end Sys2Proof.Machine
end

