-- ==== Sys2Proof/Machine/SecCmds.lean ====
section
/-!
DEFINITION. The commands of firmware, test packs, identity, settings and debug lock (R406, R436 to R444).
-/

namespace Sys2Proof.Machine

/-- PACK_INSTALL: GO in PLINTH_PACK_LEN (R406, R437). -/
def execPackInstall (img : SignedImage) (s : State) : Res := .next (s.startPack (some img))
/-- FW_INSTALL: GO in PLINTH_FW_LEN (R436). -/
def execFwInstall (img : SignedImage) (s : State) : Res := .next (s.startFw (some img))
/-- SECURITY_OPERATION_DONE (R444). -/
def execSecurityOperationDone (s : State) : Res := .next s.finishSec
/-- ARM_TRIAL (R442). -/
def execArmTrial (s : State) : Res := .next (s.startSec 1 0 none)
/-- RAISE_FLOOR (R442). -/
def execRaiseFloor (newFloor : Byte) (s : State) : Res := .next (s.startSec 2 newFloor.toNat none)
/-- ADVANCE_IDENTITY (R439, R442). -/
def execAdvanceIdentity (tok : SignedImage) (s : State) : Res := .next (s.startSec 3 0 (some tok))
/-- DEBUG_UNLOCK (R442, R443). -/
def execDebugUnlock (tok : SignedImage) (s : State) : Res := .next (s.startSec 4 0 (some tok))
/-- DEBUG_LOCK (R442, R443). -/
def execDebugLock (s : State) : Res := .next (s.startSec 5 0 none)
/-- ATTEST (R440, R442). -/
def execAttest (companion : Bool) (s : State) : Res := .next (s.startSec 6 (if companion then 1 else 0) none)

end Sys2Proof.Machine
end

