-- ==== Sys2Proof/Machine/SidebandCmds.lean ====
section
/-!
DEFINITION. The sideband (R454 to R459) and the test access port (R446, R460). Both lie in the housekeeping block: they
answer while the housekeeping supply is up.
-/

namespace Sys2Proof.Machine

/-- Runs an operation of the housekeeping block while its supply is up. -/
def State.house (s : State) (f : State → State) : Res := .next (if s.pins.housekeeping then f s else s)
/-- Changes the sideband. -/
def State.onSb (s : State) (f : Sideband → Sideband) : State := { s with sb := f s.sb }
/-- Changes the test access port. -/
def State.onTap (s : State) (f : Tap → Tap) : State := { s with tap := f s.tap }

/-! ### Common command codes (R454, R458; log 31) -/

/-- ENTDAA: a target without a dynamic address takes the one assigned. -/
def execEntdaa (addr : BitVec 7) (s : State) : Res :=
  s.house (fun s => s.onSb (fun x => { x with dynAddr := x.dynAddr <|> some addr }))
/-- SETDASA: the same, addressed by the static address. -/
def execSetdasa (addr : BitVec 7) (s : State) : Res :=
  s.house (fun s => s.onSb (fun x => { x with dynAddr := x.dynAddr <|> some addr }))
/-- RSTDAA: the dynamic address goes. -/
def execRstdaa (s : State) : Res := s.house (fun s => s.onSb (fun x => { x with dynAddr := none }))
/-- ENEC: in-band interrupts are enabled. -/
def execEnec (s : State) : Res := s.house (fun s => s.onSb (fun x => { x with ibiOn := true }))
/-- DISEC: in-band interrupts are disabled, and none waits. -/
def execDisec (s : State) : Res :=
  s.house (fun s => s.onSb (fun x => { x with ibiOn := false, ibiDue := false, ibiRefused := false }))
/-- The n bytes of an answer, highest first. -/
def cccBytes (n v : Nat) : List Byte := (toBytes n v).reverse
/-- GETPID. -/
def execGetpid (s : State) : Res := s.house (fun s => s.onSb (fun x => { x with ccc := cccBytes 6 Config.sbPid.toNat }))
/-- GETBCR. -/
def execGetbcr (s : State) : Res := s.house (fun s => s.onSb (fun x => { x with ccc := [Config.sbBcr] }))
/-- GETDCR. -/
def execGetdcr (s : State) : Res := s.house (fun s => s.onSb (fun x => { x with ccc := [Config.sbDcr] }))
/-- GETSTATUS: the pending state of the target is what one part reports. -/
def execGetstatus (s : State) : Res :=
  s.house (fun s => s.onSb (fun x => { x with ccc := cccBytes 2 (Config.sbStatus (if x.ibiDue then 1 else 0)).toNat }))
/-- GETMWL. -/
def execGetmwl (s : State) : Res := s.house (fun s => s.onSb (fun x => { x with ccc := cccBytes 2 Config.sbMwl.toNat }))
/-- GETMRL. -/
def execGetmrl (s : State) : Res := s.house (fun s => s.onSb (fun x => { x with ccc := cccBytes 2 Config.sbMrl.toNat }))

/-! ### Private transfers (R455 to R457, R459) -/

/-- SB_STATUS (Table 17.5). -/
def State.sbStatusWord (s : State) : Nat :=
  1 + flagAt s.sb.plinthReady 8 + flagAt s.power.tripped 9 + flagAt s.pins.pwrOk 10 + flagAt s.pins.flowOk 11 +
  flagAt s.pins.coldRst 12 + flagAt s.pins.attn 13
/-- SB_ERR (Table 17.5). -/
def Sideband.errWord (x : Sideband) : Nat :=
  x.errOffset.toNat + x.errKind.toNat * 2 ^ 16 + x.refused.toNat * 2 ^ 18 + flagAt x.refusedSat 49
/-- CLEAR in SB_ERR. -/
def Sideband.clear (x : Sideband) : Sideband := { x with errOffset := 0, errKind := 0, refused := 0, refusedSat := false }
/-- A refused access: SB_ERR records its offset and kind. -/
def Sideband.refuse (x : Sideband) (off kind : Nat) : Sideband :=
  let (n, f) := satAdd x.refused x.refusedSat 1
  { x with errOffset := BitVec.ofNat 16 off, errKind := BitVec.ofNat 2 kind, refused := n, refusedSat := f }
/-- What a sideband read of an offset returns (R456, R457, R459). -/
def State.sbValue (s : State) (off : Nat) : Word :=
  if off = 0xF000 then BitVec.ofNat 64 s.sbStatusWord
  else if off = 0xF008 then BitVec.ofNat 64 s.sb.errWord
  else if 0xF000 ≤ off then 0
  else if s.power.tripped then
    (if off = 0xD30 then s.sb.snapTherm else if off = 0xD38 then s.sb.snapErr else if off = 0xD10 then s.sb.snapInput else 0)
  else if s.sb.plinthReady then BitVec.ofNat 64 (s.readPlinth s.sbIndexes off)
  else 0
/-- Whether the sideband may write an offset: PLINTH_PWR_CTRL, its INDEX copies (R456), and CLEAR in SB_ERR (R459). -/
def sbWritable (off : Nat) : Bool := [0xD00, 0xC10, 0xC28, 0xE78, 0xE90, 0xF008].contains off
/-- A permitted sideband write. -/
def State.sbPut (s : State) (off : Nat) (v : Word) : State :=
  match off with
  | 0xD00 => if s.powered && s.sb.plinthReady then s.writePwrCtrl v else s
  | 0xC10 => s.onSb (fun x => { x with spallIndex := BitVec.ofNat 20 (bits v 19 0) })
  | 0xC28 => s.onSb (fun x => { x with logIndex := BitVec.ofNat 10 (bits v 9 0) })
  | 0xE78 => s.onSb (fun x => { x with ledgerIndex := BitVec.ofNat 9 (bits v 8 0) })
  | 0xE90 => s.onSb (fun x => { x with measIndex := BitVec.ofNat 2 (bits v 1 0) })
  | 0xF008 => if bit v 63 then s.onSb Sideband.clear else s
  | _ => s
/-- The offset that a transfer names: its first two bytes, or the current one where it is shorter. -/
def Sideband.named (x : Sideband) (bs : List Byte) : Nat := if bs.length < 2 then x.offset.toNat else ofBytes (bs.take 2)

/-- SB_SET_OFFSET: a private write of 2 bytes. -/
def execSbSetOffset (bytes : List Byte) (s : State) : Res :=
  s.house (fun s => s.onSb (fun x =>
    let off := x.named bytes
    if bytes.length ≠ 2 then x.refuse off 3
    else if off % 8 ≠ 0 then x.refuse off 2
    else { x with offset := BitVec.ofNat 16 off }))
/-- SB_WRITE: a private write of 10 bytes. -/
def execSbWrite (bytes : List Byte) (s : State) : Res :=
  s.house (fun s =>
    let off := s.sb.named bytes
    if bytes.length ≠ 10 then s.onSb (fun x => x.refuse off 3)
    else if off % 8 ≠ 0 then s.onSb (fun x => x.refuse off 2)
    else if !sbWritable off then s.onSb (fun x => x.refuse off 1)
    else (s.onSb (fun x => { x with offset := BitVec.ofNat 16 off })).sbPut off (BitVec.ofNat 64 (ofBytes (bytes.drop 2))))
/-- SB_READ: a private read of 8 bytes. -/
def execSbRead (len : Nat) (s : State) : Res :=
  s.house (fun s =>
    let off := s.sb.offset.toNat
    if len ≠ 8 then s.onSb (fun x => { x.refuse off 3 with reply := List.replicate len 0 })
    else
      let v := s.sbValue off
      s.onSb (fun x => { x with reply := toBytes 8 v.toNat, offset := x.offset + 8 }))
/-- SB_ERR_CLEAR. -/
def execSbErrClear (s : State) : Res := s.house (fun s => s.onSb Sideband.clear)

/-! ### In-band interrupts (R458) -/

/-- The data byte of an in-band interrupt. -/
def State.ibiByte (s : State) : Byte := BitVec.ofNat 8 (flagAt s.west.attn 0 + flagAt s.east.attn 1)
/-- One attempt to raise the interrupt that is due. -/
def State.raiseIbi (s : State) (accepted : Bool) : State :=
  let b := s.ibiByte
  s.onSb (fun x => { x with ibi := b, ibiDue := !accepted, ibiRefused := !accepted })
/-- ATTN_IBI: the interrupt of an assertion of ATTN_N. -/
def execAttnIbi (accepted : Bool) (s : State) : Res :=
  s.house (fun s => if s.sb.ibiDue && !s.sb.ibiRefused then s.raiseIbi accepted else s)
/-- IBI_RETRY: a refused interrupt is raised again while ATTN_N stays asserted. -/
def execIbiRetry (accepted : Bool) (s : State) : Res :=
  s.house (fun s => if s.sb.ibiRefused && s.pins.attn then s.raiseIbi accepted else s)

/-! ### Test access port (R446, R460; log 32) -/

/-- The levels that the cells of the boundary register capture: G1 to G10 and G16 of Table 17.2. -/
def State.boundary (s : State) : List Bool :=
  [Config.boundaryCell s.freeCtr, Config.boundaryCell (s.freeCtr + 1), bit s.pins.maddr 0, bit s.pins.maddr 1,
   !s.pins.coldRst, Config.boundaryCell (s.freeCtr + 2), s.pins.pwrOk, !s.pins.flowOk, !s.pins.thermTrip, !s.pins.attn, false]
/-- BYPASS. -/
def execBypass (s : State) : Res := s.house (fun s => s.onTap (fun t => { t with ir := .bypass, driven := none, dr := 0 }))
/-- IDCODE: version 1, part number 0x1768, manufacturer 0x2A5. -/
def execIdcode (s : State) : Res :=
  s.house (fun s => s.onTap (fun t => { t with ir := .idcode, driven := none, dr := 0x1176854B }))
/-- SAMPLE/PRELOAD: the levels are captured and the cells loaded. -/
def execSamplePreload (preload : List Bool) (s : State) : Res :=
  s.house (fun s => { (s.onTap (fun t => { t with
    ir := .samplePreload, driven := none, capture := s.boundary, preload := preload })) with freeCtr := s.freeCtr + 3 })
/-- EXTEST: the cells drive their levels while COLD_RST_N is asserted; otherwise it executes as BYPASS. -/
def execExtest (s : State) : Res :=
  s.house (fun s => s.onTap (fun t =>
    if s.pins.coldRst then { t with ir := .extest, driven := some t.preload }
    else { t with ir := .bypass, driven := none, dr := 0 }))
/-- TRST_N resets the port. -/
def execTrstN (s : State) : Res :=
  s.house (fun s => s.onTap (fun t => { t with ir := .idcode, driven := none, dr := 0x1176854B }))

end Sys2Proof.Machine
end

