-- ==== Sys2Proof/Machine/TensorCmds.lean ====
section
/-!
DEFINITION. The meanings of the tensor engine's commands (Table 4.2, R108 to R116).
-/

namespace Sys2Proof.Machine

/-- NOP (R108): nothing. -/
def execNop (core : Nat) (s : State) : Res := atCore core (.next s)
/-- LOAD_A (R103, R105, R109, R110). -/
def execLoadA (core : Nat) (c : TCmd) (k : TChk) (s : State) : Res := s.portAt core (.loadA core c .ok) (.loadA core c k)
/-- LOAD_B (R103, R109, R110). -/
def execLoadB (core : Nat) (c : TCmd) (k : TChk) (s : State) : Res := s.portAt core (.loadB core c .ok) (.loadB core c k)
/-- LOAD_ANCHOR (R109, R111). -/
def execLoadAnchor (core : Nat) (c : TCmd) (k : TChk) (s : State) : Res := s.portAt core (.loadAnchor core c .ok) (.loadAnchor core c k)
/-- MMA (R114). -/
def execMma (core : Nat) (c : TCmd) (k : TChk) (s : State) : Res := s.actAt core (.mma core c .ok) (fun x => teMma x c k)
/-- MERGE (R109, R112). -/
def execMerge (core : Nat) (c : TCmd) (k : TChk) (s : State) : Res := s.portAt core (.merge core c .ok) (.merge core c k)

/-- STORE (R113). Stochastic rounding names the core as its program does (R95); padding bytes that the spec leaves open
are free values, numbered by freeCtr. -/
def execStore (core : Nat) (c : TCmd) (k : TChk) (s : State) : Res :=
  atCore core (.next (if s.acting core (.store core c .ok) then
    let r := teStore (s.core core) c k (localCore s.split (wingOf core) core) s.freeCtr
    ({ s with freeCtr := s.freeCtr + r.2.2 }).coreStep core (r.1, r.2.1)
  else s))

end Sys2Proof.Machine
end

