-- ==== Sys2Proof/Machine/VectorCmds.lean ====
section
/-!
DEFINITION. The meanings of the vector engine's commands (Table 5.2, R124, R125), with their issue beats.
-/

namespace Sys2Proof.Machine

/-- The fields of a vector command as its word gives them, without what a read of the register file finds (R127). -/
def vbare (c : VCmd) : VCmd := { c with vrfErr := none }

/-- VNOP (Table 5.2): nothing. -/
def execVnop (core : Nat) (s : State) : Res := atCore core (.next s)
/-- VLD (R122). -/
def execVld (core : Nat) (c : VCmd) (s : State) : Res := s.actAt core (.vld core (vbare c)) (fun x => veLoad x c)
/-- VST (R122). -/
def execVst (core : Nat) (c : VCmd) (s : State) : Res := s.actAt core (.vst core (vbare c)) (fun x => veStore x c)
/-- VADD (Table 5.2). -/
def execVadd (core : Nat) (c : VCmd) (s : State) : Res :=
  s.actAt core (.vadd core (vbare c)) (fun x => vBinary x c f32Add (fun a b => a + b))
/-- VSUB (Table 5.2). -/
def execVsub (core : Nat) (c : VCmd) (s : State) : Res :=
  s.actAt core (.vsub core (vbare c)) (fun x => vBinary x c f32Sub (fun a b => a - b))
/-- VMUL (Table 5.2). -/
def execVmul (core : Nat) (c : VCmd) (s : State) : Res :=
  s.actAt core (.vmul core (vbare c)) (fun x => vBinary x c f32Mul (fun a b => a * b))
/-- VFMA: VA × VB + VC with one rounding (Table 5.2). -/
def execVfma (core : Nat) (c : VCmd) (s : State) : Res :=
  s.actAt core (.vfma core (vbare c)) (fun x => vLanes x c 1 (fun i => f32Fma (vlane (x.vreg c.va) i) (vbLane x c i) (vlane (x.vreg c.vc) i)))
/-- VDIV (Table 5.2). -/
def execVdiv (core : Nat) (c : VCmd) (s : State) : Res :=
  s.actAt core (.vdiv core (vbare c)) (fun x => vLanes x c 4 (fun i => f32Div (vlane (x.vreg c.va) i) (vbLane x c i)))
/-- VSQRT (Table 5.2). -/
def execVsqrt (core : Nat) (c : VCmd) (s : State) : Res := s.actAt core (.vsqrt core (vbare c)) (fun x => vUnary x c 4 Num.sqrt)
/-- VRSQRT (Table 5.2). -/
def execVrsqrt (core : Nat) (c : VCmd) (s : State) : Res := s.actAt core (.vrsqrt core (vbare c)) (fun x => vUnary x c 4 Num.rsqrt)
/-- VEXP2 (Table 5.2). -/
def execVexp2 (core : Nat) (c : VCmd) (s : State) : Res := s.actAt core (.vexp2 core (vbare c)) (fun x => vUnary x c 4 Num.exp2)
/-- VLOG2 (Table 5.2). -/
def execVlog2 (core : Nat) (c : VCmd) (s : State) : Res := s.actAt core (.vlog2 core (vbare c)) (fun x => vUnary x c 4 Num.log2)
/-- VMAX (R125). -/
def execVmax (core : Nat) (c : VCmd) (s : State) : Res := s.actAt core (.vmax core (vbare c)) (fun x => vBinary x c f32Max i32Max)
/-- VMIN (R125). -/
def execVmin (core : Nat) (c : VCmd) (s : State) : Res := s.actAt core (.vmin core (vbare c)) (fun x => vBinary x c f32Min i32Min)
/-- VCMP (Table 5.2). -/
def execVcmp (core : Nat) (t : VTest) (c : VCmd) (s : State) : Res := s.actAt core (.vcmp core t (vbare c)) (fun x => veCmp x t c)
/-- VSEL: the predicate bit chooses VA or VB (Table 5.2); with PRED = 1 the lanes whose bit is 0 keep VD (Table 5.1). -/
def execVsel (core : Nat) (c : VCmd) (s : State) : Res :=
  s.actAt core (.vsel core (vbare c)) (fun x => vLanes x c 1 (fun i =>
    if x.vec.pred.getLsbD i then vlane (x.vreg c.va) i else vbLane x c i))
/-- VCVT (R125). -/
def execVcvt (core : Nat) (k : VCvt) (c : VCmd) (s : State) : Res := s.actAt core (.vcvt core k (vbare c)) (fun x => veCvt x k c)
/-- VSUM (R125). -/
def execVsum (core : Nat) (c : VCmd) (s : State) : Res := s.actAt core (.vsum core (vbare c)) (fun x => veSum x c)
/-- VPOWI (R125); the lanes with n below 0 take free values, numbered by freeCtr. -/
def execVpowi (core : Nat) (c : VCmd) (s : State) : Res :=
  atCore core (.next (if s.acting core (.vpowi core (vbare c)) then
    ({ s with freeCtr := s.freeCtr + 32 }).coreStep core (vePowi (s.core core) c s.freeCtr)
  else s))

end Sys2Proof.Machine
end

