-- ==== Sys2Proof/Machine/Dispatch.lean ====
section
/-!
DEFINITION. One arm per command: each is one direct call of its meaning.
-/

namespace Sys2Proof.Machine

/-- The effect of a command on everything but the queue. -/
def exec (i : Instr) (s : State) : Host.Outcome State Fault Refusal :=
  match i with
  | .beat core info => Sys2Proof.Machine.execBeat core info s
  | .engineTimeout core => Sys2Proof.Machine.execEngineTimeout core s
  | .computeRail core => Sys2Proof.Machine.execComputeRail core s
  | .layerStart wing => Sys2Proof.Machine.execLayerStart wing s
  | .layerEndSample wing => Sys2Proof.Machine.execLayerEndSample wing s
  | .stall core => Sys2Proof.Machine.execStall core s
  | .paceWindowEnd wing count waits => Sys2Proof.Machine.execPaceWindowEnd wing count waits s
  | .refLost wing => Sys2Proof.Machine.execRefLost wing s
  | .couplingTimeout e => Sys2Proof.Machine.execCouplingTimeout e s
  | .nop core => Sys2Proof.Machine.execNop core s
  | .loadA core c k => Sys2Proof.Machine.execLoadA core c k s
  | .loadB core c k => Sys2Proof.Machine.execLoadB core c k s
  | .loadAnchor core c k => Sys2Proof.Machine.execLoadAnchor core c k s
  | .mma core c k => Sys2Proof.Machine.execMma core c k s
  | .merge core c k => Sys2Proof.Machine.execMerge core c k s
  | .store core c k => Sys2Proof.Machine.execStore core c k s
  | .vnop core => Sys2Proof.Machine.execVnop core s
  | .vld core c => Sys2Proof.Machine.execVld core c s
  | .vst core c => Sys2Proof.Machine.execVst core c s
  | .vadd core c => Sys2Proof.Machine.execVadd core c s
  | .vsub core c => Sys2Proof.Machine.execVsub core c s
  | .vmul core c => Sys2Proof.Machine.execVmul core c s
  | .vfma core c => Sys2Proof.Machine.execVfma core c s
  | .vdiv core c => Sys2Proof.Machine.execVdiv core c s
  | .vsqrt core c => Sys2Proof.Machine.execVsqrt core c s
  | .vrsqrt core c => Sys2Proof.Machine.execVrsqrt core c s
  | .vexp2 core c => Sys2Proof.Machine.execVexp2 core c s
  | .vlog2 core c => Sys2Proof.Machine.execVlog2 core c s
  | .vmax core c => Sys2Proof.Machine.execVmax core c s
  | .vmin core c => Sys2Proof.Machine.execVmin core c s
  | .vcmp core t c => Sys2Proof.Machine.execVcmp core t c s
  | .vsel core c => Sys2Proof.Machine.execVsel core c s
  | .vcvt core k c => Sys2Proof.Machine.execVcvt core k c s
  | .vsum core c => Sys2Proof.Machine.execVsum core c s
  | .vpowi core c => Sys2Proof.Machine.execVpowi core c s
  | .snop core => Sys2Proof.Machine.execSnop core s
  | .ctrSet core ctr imm => Sys2Proof.Machine.execCtrSet core ctr imm s
  | .ctrAdd core ctr imm => Sys2Proof.Machine.execCtrAdd core ctr imm s
  | .ctrTest core pred ctr c imm => Sys2Proof.Machine.execCtrTest core pred ctr c imm s
  | .loopCmd core src ctr imm len => Sys2Proof.Machine.execLoopCmd core src ctr imm len s
  | .gate core pred sense len => Sys2Proof.Machine.execGate core pred sense len s
  | .fire core ep => Sys2Proof.Machine.execFire core ep s
  | .consume core ep => Sys2Proof.Machine.execConsume core ep s
  | .take core ep ctr => Sys2Proof.Machine.execTake core ep ctr s
  | .token core ep src ctr imm => Sys2Proof.Machine.execToken core ep src ctr imm s
  | .dnop core => Sys2Proof.Machine.execDnop core s
  | .dstart core slot desc => Sys2Proof.Machine.execDstart core slot desc s
  | .dtile core slot => Sys2Proof.Machine.execDtile core slot s
  | .blockIssue core slot => Sys2Proof.Machine.execBlockIssue core slot s
  | .prescanDone core slot => Sys2Proof.Machine.execPrescanDone core slot s
  | .rnop core => Sys2Proof.Machine.execRnop core s
  | .arrive core wafer course member order host => Sys2Proof.Machine.execArrive core wafer course member order host s
  | .await core wafer course ext => Sys2Proof.Machine.execAwait core wafer course ext s
  | .tprod core tally countM1 remote order target => Sys2Proof.Machine.execTprod core tally countM1 remote order target s
  | .tcons core tally countM1 => Sys2Proof.Machine.execTcons core tally countM1 s
  | .twait core tally countM1 ext => Sys2Proof.Machine.execTwait core tally countM1 ext s
  | .meshPacketReceive core link hop side payload => Sys2Proof.Machine.execMeshPacketReceive core link hop side payload s
  | .meshAck core link scheduled nak lseq => Sys2Proof.Machine.execMeshAck core link scheduled nak lseq s
  | .meshResendTimeout core link scheduled => Sys2Proof.Machine.execMeshResendTimeout core link scheduled s
  | .streamBlock core ep data => Sys2Proof.Machine.execStreamBlock core ep data s
  | .creditPacket core ep data pair => Sys2Proof.Machine.execCreditPacket core ep data pair s
  | .controlToken core w => Sys2Proof.Machine.execControlToken core w s
  | .courseMessage host course member sender order => Sys2Proof.Machine.execCourseMessage host course member sender order s
  | .courseRelease core course => Sys2Proof.Machine.execCourseRelease core course s
  | .courseTreeMessage wing course parityOk node => Sys2Proof.Machine.execCourseTreeMessage wing course parityOk node s
  | .tallyMessage core tally countM1 => Sys2Proof.Machine.execTallyMessage core tally countM1 s
  | .unscheduledPacket core turn => Sys2Proof.Machine.execUnscheduledPacket core turn s
  | .busBlockSend core entry => Sys2Proof.Machine.execBusBlockSend core entry s
  | .busBlock core entry data crc => Sys2Proof.Machine.execBusBlock core entry data crc s
  | .controlWord core w crcOk => Sys2Proof.Machine.execControlWord core w crcOk s
  | .readAccept chan core slot block alloc => Sys2Proof.Machine.execReadAccept chan core slot block alloc s
  | .readDelivery chan => Sys2Proof.Machine.execReadDelivery chan s
  | .writeAccept chan src corrupt => Sys2Proof.Machine.execWriteAccept chan src corrupt s
  | .writeAcknowledgement chan => Sys2Proof.Machine.execWriteAcknowledgement chan s
  | .extBlockAccess chan op => Sys2Proof.Machine.execExtBlockAccess chan op s
  | .channelFail chan => Sys2Proof.Machine.execChannelFail chan s
  | .drainStart wing => Sys2Proof.Machine.execDrainStart wing s
  | .drainNotice core => Sys2Proof.Machine.execDrainNotice core s
  | .drainSample wing => Sys2Proof.Machine.execDrainSample wing s
  | .drainTimeout wing => Sys2Proof.Machine.execDrainTimeout wing s
  | .inv addr => Sys2Proof.Machine.execInv addr s
  | .data addr line => Sys2Proof.Machine.execData addr line s
  | .wrAck => Sys2Proof.Machine.execWrAck s
  | .companionErrorResponse write addr => Sys2Proof.Machine.execCompanionErrorResponse write addr s
  | .setupWr addr size value => Sys2Proof.Machine.execSetupWr addr size value s
  | .setupRd addr size => Sys2Proof.Machine.execSetupRd addr size s
  | .coreLimitWrite core value => Sys2Proof.Machine.execCoreLimitWrite core value s
  | .coreMemRelease core mask => Sys2Proof.Machine.execCoreMemRelease core mask s
  | .coreArithStatusClear core mask => Sys2Proof.Machine.execCoreArithStatusClear core mask s
  | .attnClear wing => Sys2Proof.Machine.execAttnClear wing s
  | .staleClear core => Sys2Proof.Machine.execStaleClear core s
  | .rtLinkClear core link => Sys2Proof.Machine.execRtLinkClear core link s
  | .portClear port => Sys2Proof.Machine.execPortClear port s
  | .linkErrClear => Sys2Proof.Machine.execLinkErrClear s
  | .pwrErrClear => Sys2Proof.Machine.execPwrErrClear s
  | .pwrCtrlWrite by_ value => Sys2Proof.Machine.execPwrCtrlWrite by_ value s
  | .sqEnable ring on => Sys2Proof.Machine.execSqEnable ring on s
  | .cqEnable ring on => Sys2Proof.Machine.execCqEnable ring on s
  | .descriptorFetch wing => Sys2Proof.Machine.execDescriptorFetch wing s
  | .programLoad ring seq img => Sys2Proof.Machine.execProgramLoad ring seq img s
  | .stepRun ring seq => Sys2Proof.Machine.execStepRun ring seq s
  | .update ring seq blocks => Sys2Proof.Machine.execUpdate ring seq blocks s
  | .rootRefresh ring seq => Sys2Proof.Machine.execRootRefresh ring seq s
  | .collective ring seq => Sys2Proof.Machine.execCollective ring seq s
  | .copy ring seq src => Sys2Proof.Machine.execCopy ring seq src s
  | .fence ring seq => Sys2Proof.Machine.execFence ring seq s
  | .abort ring seq => Sys2Proof.Machine.execAbort ring seq s
  | .testWindow ring seq reports => Sys2Proof.Machine.execTestWindow ring seq reports s
  | .paceSet ring seq => Sys2Proof.Machine.execPaceSet ring seq s
  | .dumpSync ring seq => Sys2Proof.Machine.execDumpSync ring seq s
  | .reform ring seq => Sys2Proof.Machine.execReform ring seq s
  | .tableWrite ring seq src => Sys2Proof.Machine.execTableWrite ring seq src s
  | .commitPoint ring seq => Sys2Proof.Machine.execCommitPoint ring seq s
  | .outcomePost cq timeUs => Sys2Proof.Machine.execOutcomePost cq timeUs s
  | .postingRetry cq => Sys2Proof.Machine.execPostingRetry cq s
  | .tirrikFlit seq crcOk ack wellFormed => Sys2Proof.Machine.execTirrikFlit seq crcOk ack wellFormed s
  | .tirrikResendTimeout => Sys2Proof.Machine.execTirrikResendTimeout s
  | .tirrikTrain lanes companionVersion => Sys2Proof.Machine.execTirrikTrain lanes companionVersion s
  | .tirrikTrainRetry => Sys2Proof.Machine.execTirrikTrainRetry s
  | .frameReceive port x => Sys2Proof.Machine.execFrameReceive port x s
  | .linkStatusWord port link crc => Sys2Proof.Machine.execLinkStatusWord port link crc s
  | .frameResendTimeout port => Sys2Proof.Machine.execFrameResendTimeout port s
  | .collData wing f => Sys2Proof.Machine.execCollData wing f s
  | .collAnchor wing f => Sys2Proof.Machine.execCollAnchor wing f s
  | .streamData core slot f => Sys2Proof.Machine.execStreamData core slot f s
  | .bulkData wing f => Sys2Proof.Machine.execBulkData wing f s
  | .bulkReturn wing f => Sys2Proof.Machine.execBulkReturn wing f s
  | .bulkRefusal wing f => Sys2Proof.Machine.execBulkRefusal wing f s
  | .startFrame wing f => Sys2Proof.Machine.execStartFrame wing f s
  | .abandon wing f => Sys2Proof.Machine.execAbandon wing f s
  | .paceNotice wing f => Sys2Proof.Machine.execPaceNotice wing f s
  | .grant core slot f => Sys2Proof.Machine.execGrant core slot f s
  | .train port t => Sys2Proof.Machine.execTrain port t s
  | .portTrainPhase port t => Sys2Proof.Machine.execPortTrainPhase port t s
  | .portTrainRetry port => Sys2Proof.Machine.execPortTrainRetry port s
  | .portLost port => Sys2Proof.Machine.execPortLost port s
  | .laserLost laser => Sys2Proof.Machine.execLaserLost laser s
  | .degradedWindow port => Sys2Proof.Machine.execDegradedWindow port s
  | .fabricTimeout wing flow => Sys2Proof.Machine.execFabricTimeout wing flow s
  | .paceNoticeRepeat wing => Sys2Proof.Machine.execPaceNoticeRepeat wing s
  | .powerSample vin iin clusterW => Sys2Proof.Machine.execPowerSample vin iin clusterW s
  | .controlPeriod wing => Sys2Proof.Machine.execControlPeriod wing s
  | .sensorRead readings => Sys2Proof.Machine.execSensorRead readings s
  | .throttleTick => Sys2Proof.Machine.execThrottleTick s
  | .regionRestore cluster => Sys2Proof.Machine.execRegionRestore cluster s
  | .flowLost => Sys2Proof.Machine.execFlowLost s
  | .flowRestore => Sys2Proof.Machine.execFlowRestore s
  | .flowWaitTimeout => Sys2Proof.Machine.execFlowWaitTimeout s
  | .inputRange => Sys2Proof.Machine.execInputRange s
  | .inputOvercurrent => Sys2Proof.Machine.execInputOvercurrent s
  | .currentLimit => Sys2Proof.Machine.execCurrentLimit s
  | .railFault cluster => Sys2Proof.Machine.execRailFault cluster s
  | .inputRestore => Sys2Proof.Machine.execInputRestore s
  | .coldRstAssert => Sys2Proof.Machine.execColdRstAssert s
  | .coldRstDeassert => Sys2Proof.Machine.execColdRstDeassert s
  | .warmRstAssert => Sys2Proof.Machine.execWarmRstAssert s
  | .pwrOkDeassert => Sys2Proof.Machine.execPwrOkDeassert s
  | .pwrOkAssert => Sys2Proof.Machine.execPwrOkAssert s
  | .flowOkAssert => Sys2Proof.Machine.execFlowOkAssert s
  | .housekeepingUp => Sys2Proof.Machine.execHousekeepingUp s
  | .coldPhase wing dur10ms fwOk reports => Sys2Proof.Machine.execColdPhase wing dur10ms fwOk reports s
  | .portPhaseEnd wing => Sys2Proof.Machine.execPortPhaseEnd wing s
  | .warmPhase wing reports => Sys2Proof.Machine.execWarmPhase wing reports s
  | .reformStart wing => Sys2Proof.Machine.execReformStart wing s
  | .reformPhase wing reports kats => Sys2Proof.Machine.execReformPhase wing reports kats s
  | .capstone wing elapsedMs => Sys2Proof.Machine.execCapstone wing elapsedMs s
  | .stepBoundary wing reports => Sys2Proof.Machine.execStepBoundary wing reports s
  | .testDue core => Sys2Proof.Machine.execTestDue core s
  | .testOverdue core => Sys2Proof.Machine.execTestOverdue core s
  | .packInstall img => Sys2Proof.Machine.execPackInstall img s
  | .fwInstall img => Sys2Proof.Machine.execFwInstall img s
  | .securityOperationDone => Sys2Proof.Machine.execSecurityOperationDone s
  | .armTrial => Sys2Proof.Machine.execArmTrial s
  | .raiseFloor newFloor => Sys2Proof.Machine.execRaiseFloor newFloor s
  | .advanceIdentity tok => Sys2Proof.Machine.execAdvanceIdentity tok s
  | .debugUnlock tok => Sys2Proof.Machine.execDebugUnlock tok s
  | .debugLock => Sys2Proof.Machine.execDebugLock s
  | .attest companion => Sys2Proof.Machine.execAttest companion s
  | .entdaa addr => Sys2Proof.Machine.execEntdaa addr s
  | .setdasa addr => Sys2Proof.Machine.execSetdasa addr s
  | .rstdaa => Sys2Proof.Machine.execRstdaa s
  | .enec => Sys2Proof.Machine.execEnec s
  | .disec => Sys2Proof.Machine.execDisec s
  | .getpid => Sys2Proof.Machine.execGetpid s
  | .getbcr => Sys2Proof.Machine.execGetbcr s
  | .getdcr => Sys2Proof.Machine.execGetdcr s
  | .getstatus => Sys2Proof.Machine.execGetstatus s
  | .getmwl => Sys2Proof.Machine.execGetmwl s
  | .getmrl => Sys2Proof.Machine.execGetmrl s
  | .sbSetOffset bytes => Sys2Proof.Machine.execSbSetOffset bytes s
  | .sbWrite bytes => Sys2Proof.Machine.execSbWrite bytes s
  | .sbRead len => Sys2Proof.Machine.execSbRead len s
  | .sbErrClear => Sys2Proof.Machine.execSbErrClear s
  | .attnIbi accepted => Sys2Proof.Machine.execAttnIbi accepted s
  | .ibiRetry accepted => Sys2Proof.Machine.execIbiRetry accepted s
  | .bypass => Sys2Proof.Machine.execBypass s
  | .idcode => Sys2Proof.Machine.execIdcode s
  | .samplePreload preload => Sys2Proof.Machine.execSamplePreload preload s
  | .extest => Sys2Proof.Machine.execExtest s
  | .trstN => Sys2Proof.Machine.execTrstN s
  | .debugHaltRequest wing => Sys2Proof.Machine.execDebugHaltRequest wing s
  | .debugHaltEnter wing => Sys2Proof.Machine.execDebugHaltEnter wing s
  | .debugStep wing => Sys2Proof.Machine.execDebugStep wing s
  | .debugRelease wing => Sys2Proof.Machine.execDebugRelease wing s
  | .tirrikLaneLoss lanes => Sys2Proof.Machine.execTirrikLaneLoss lanes s
  | .referenceRestored wing => Sys2Proof.Machine.execReferenceRestored wing s
  | .laserInputRestored laser => Sys2Proof.Machine.execLaserInputRestored laser s
  | .wireGroupFailure u group => Sys2Proof.Machine.execWireGroupFailure u group s
  | .housekeepingSupplyFail => Sys2Proof.Machine.execHousekeepingSupplyFail s
  | .testBudgetExpiry wing => Sys2Proof.Machine.execTestBudgetExpiry wing s

end Sys2Proof.Machine
end

