-- ==== Sys2Proof/Safety.lean ====
section
/-!
DEFINITION. What counts as a safe state: the bonded memory and every core's memory in their one canonical form.
-/

namespace Sys2Proof.Machine

/-- A core's memory is in canonical form. -/
def Core.safe (c : Core) : Bool := Memory.wf c.mem.bytes

/-- Every core of a wing is safe, listed or not. -/
def WingState.safe (x : WingState) : Bool := x.base.safe && x.cores.all (fun e => e.2.safe)

/-- The state's memories are in canonical form. -/
def State.safe (s : State) : Bool := Memory.wf s.bonded && s.west.safe && s.east.safe

/-- A step goes well when it answers a next state. -/
def Good (r : Host.Outcome State Fault Refusal) : Prop := ∃ t, r = .next t

end Sys2Proof.Machine
end

