-- ==== Sys2Proof/WellFormed.lean ====
section
/-!
DEFINITION. Which commands are well formed: the unit that each names exists (R18 to R22, R31, R34, R340).
-/

namespace Sys2Proof

/-- The unit that a command acts at. -/
inductive Owner where
  | module
  | core (c : Nat)
  | wing (w : Nat)
  | cluster (n : Nat)
  | chan (n : Nat)
  | port (p : Nat)
  | laser (l : Nat)
  | ring (r : Nat)
deriving DecidableEq, Repr

/-- Whether the module has a unit (R18, R22, R31, R34, R340, Table 11.1). -/
def Owner.exists : Owner → Bool
  | .module => true
  | .core c => Nat.blt (c % 4096) 832 && Nat.blt (c / 4096) 816
  | .wing w => Nat.blt w 2
  | .cluster n => Nat.blt n 48
  | .chan n => Nat.blt n 1536
  | .port p => Nat.blt p 80
  | .laser l => Nat.blt l 10
  | .ring r => Nat.blt r 128

/-- The unit of a coupling event (R66). -/
def CouplingEvent.owner : CouplingEvent → Owner
  | .noBeat n => .cluster n
  | .skew c => .core c

/-- The units that a command names. -/
def Instr.owners : Instr → List Owner
  | .beat core i => .core core :: (match i.lateFrom with
    | some p => [.core p.1]
    | none => [])
  | .engineTimeout core => [.core core]
  | .computeRail core => [.core core]
  | .layerStart wing => [.wing wing]
  | .layerEndSample wing => [.wing wing]
  | .stall core => [.core core]
  | .paceWindowEnd wing _ _ => [.wing wing]
  | .refLost wing => [.wing wing]
  | .couplingTimeout e => [e.owner]
  | .nop core => [.core core]
  | .loadA core _ _ => [.core core]
  | .loadB core _ _ => [.core core]
  | .loadAnchor core _ _ => [.core core]
  | .mma core _ _ => [.core core]
  | .merge core _ _ => [.core core]
  | .store core _ _ => [.core core]
  | .vnop core => [.core core]
  | .vld core _ => [.core core]
  | .vst core _ => [.core core]
  | .vadd core _ => [.core core]
  | .vsub core _ => [.core core]
  | .vmul core _ => [.core core]
  | .vfma core _ => [.core core]
  | .vdiv core _ => [.core core]
  | .vsqrt core _ => [.core core]
  | .vrsqrt core _ => [.core core]
  | .vexp2 core _ => [.core core]
  | .vlog2 core _ => [.core core]
  | .vmax core _ => [.core core]
  | .vmin core _ => [.core core]
  | .vcmp core _ _ => [.core core]
  | .vsel core _ => [.core core]
  | .vcvt core _ _ => [.core core]
  | .vsum core _ => [.core core]
  | .vpowi core _ => [.core core]
  | .snop core => [.core core]
  | .ctrSet core _ _ => [.core core]
  | .ctrAdd core _ _ => [.core core]
  | .ctrTest core _ _ _ _ => [.core core]
  | .loopCmd core _ _ _ _ => [.core core]
  | .gate core _ _ _ => [.core core]
  | .fire core _ => [.core core]
  | .consume core _ => [.core core]
  | .take core _ _ => [.core core]
  | .token core _ _ _ _ => [.core core]
  | .dnop core => [.core core]
  | .dstart core _ _ => [.core core]
  | .dtile core _ => [.core core]
  | .blockIssue core _ => [.core core]
  | .prescanDone core _ => [.core core]
  | .rnop core => [.core core]
  | .arrive core _ _ _ _ _ => [.core core]
  | .await core _ _ _ => [.core core]
  | .tprod core _ _ _ _ _ => [.core core]
  | .tcons core _ _ => [.core core]
  | .twait core _ _ _ => [.core core]
  | .meshPacketReceive core _ _ _ _ => [.core core]
  | .meshAck core _ _ _ _ => [.core core]
  | .meshResendTimeout core _ _ => [.core core]
  | .streamBlock core _ _ => [.core core]
  | .creditPacket core _ _ _ => [.core core]
  | .controlToken core _ => [.core core]
  | .courseMessage host _ _ sender _ => [.core host, .core sender]
  | .courseRelease core _ => [.core core]
  | .courseTreeMessage wing _ _ node => [.wing wing, .cluster node]
  | .tallyMessage core _ _ => [.core core]
  | .unscheduledPacket core _ => [.core core]
  | .busBlockSend core _ => [.core core]
  | .busBlock core _ _ _ => [.core core]
  | .controlWord core _ _ => [.core core]
  | .readAccept chan core _ _ _ => [.chan chan, .core core]
  | .readDelivery chan => [.chan chan]
  | .writeAccept chan _ _ => [.chan chan]
  | .writeAcknowledgement chan => [.chan chan]
  | .extBlockAccess chan _ => [.chan chan]
  | .channelFail chan => [.chan chan]
  | .drainStart wing => [.wing wing]
  | .drainNotice core => [.core core]
  | .drainSample wing => [.wing wing]
  | .drainTimeout wing => [.wing wing]
  | .inv _ => []
  | .data _ _ => []
  | .wrAck => []
  | .companionErrorResponse _ _ => []
  | .setupWr _ _ _ => []
  | .setupRd _ _ => []
  | .coreLimitWrite core _ => [.core core]
  | .coreMemRelease core _ => [.core core]
  | .coreArithStatusClear core _ => [.core core]
  | .attnClear wing => [.wing wing]
  | .staleClear core => [.core core]
  | .rtLinkClear core _ => [.core core]
  | .portClear port => [.port port]
  | .linkErrClear => []
  | .pwrErrClear => []
  | .pwrCtrlWrite _ _ => []
  | .sqEnable ring _ => [.ring ring]
  | .cqEnable ring _ => [.ring ring]
  | .descriptorFetch wing => [.wing wing]
  | .programLoad ring _ _ => [.ring ring]
  | .stepRun ring _ => [.ring ring]
  | .update ring _ _ => [.ring ring]
  | .rootRefresh ring _ => [.ring ring]
  | .collective ring _ => [.ring ring]
  | .copy ring _ _ => [.ring ring]
  | .fence ring _ => [.ring ring]
  | .abort ring _ => [.ring ring]
  | .testWindow ring _ _ => [.ring ring]
  | .paceSet ring _ => [.ring ring]
  | .dumpSync ring _ => [.ring ring]
  | .reform ring _ => [.ring ring]
  | .tableWrite ring _ _ => [.ring ring]
  | .commitPoint ring _ => [.ring ring]
  | .outcomePost cq _ => [.ring cq]
  | .postingRetry cq => [.ring cq]
  | .tirrikFlit _ _ _ _ => []
  | .tirrikResendTimeout => []
  | .tirrikTrain _ _ => []
  | .tirrikTrainRetry => []
  | .frameReceive port _ => [.port port]
  | .linkStatusWord port _ _ => [.port port]
  | .frameResendTimeout port => [.port port]
  | .collData wing _ => [.wing wing]
  | .collAnchor wing _ => [.wing wing]
  | .streamData core _ _ => [.core core]
  | .bulkData wing _ => [.wing wing]
  | .bulkReturn wing _ => [.wing wing]
  | .bulkRefusal wing _ => [.wing wing]
  | .startFrame wing _ => [.wing wing]
  | .abandon wing _ => [.wing wing]
  | .paceNotice wing _ => [.wing wing]
  | .grant core _ _ => [.core core]
  | .train port _ => [.port port]
  | .portTrainPhase port _ => [.port port]
  | .portTrainRetry port => [.port port]
  | .portLost port => [.port port]
  | .laserLost laser => [.laser laser]
  | .degradedWindow port => [.port port]
  | .fabricTimeout wing _ => [.wing wing]
  | .paceNoticeRepeat wing => [.wing wing]
  | .powerSample _ _ _ => []
  | .controlPeriod wing => [.wing wing]
  | .sensorRead _ => []
  | .throttleTick => []
  | .regionRestore cluster => [.cluster cluster]
  | .flowLost => []
  | .flowRestore => []
  | .flowWaitTimeout => []
  | .inputRange => []
  | .inputOvercurrent => []
  | .currentLimit => []
  | .railFault cluster => [.cluster cluster]
  | .inputRestore => []
  | .coldRstAssert => []
  | .coldRstDeassert => []
  | .warmRstAssert => []
  | .pwrOkDeassert => []
  | .pwrOkAssert => []
  | .flowOkAssert => []
  | .housekeepingUp => []
  | .coldPhase wing _ _ _ => [.wing wing]
  | .portPhaseEnd wing => [.wing wing]
  | .warmPhase wing _ => [.wing wing]
  | .reformStart wing => [.wing wing]
  | .reformPhase wing _ _ => [.wing wing]
  | .capstone wing _ => [.wing wing]
  | .stepBoundary wing _ => [.wing wing]
  | .testDue core => [.core core]
  | .testOverdue core => [.core core]
  | .packInstall _ => []
  | .fwInstall _ => []
  | .securityOperationDone => []
  | .armTrial => []
  | .raiseFloor _ => []
  | .advanceIdentity _ => []
  | .debugUnlock _ => []
  | .debugLock => []
  | .attest _ => []
  | .entdaa _ => []
  | .setdasa _ => []
  | .rstdaa => []
  | .enec => []
  | .disec => []
  | .getpid => []
  | .getbcr => []
  | .getdcr => []
  | .getstatus => []
  | .getmwl => []
  | .getmrl => []
  | .sbSetOffset _ => []
  | .sbWrite _ => []
  | .sbRead _ => []
  | .sbErrClear => []
  | .attnIbi _ => []
  | .ibiRetry _ => []
  | .bypass => []
  | .idcode => []
  | .samplePreload _ => []
  | .extest => []
  | .trstN => []
  | .debugHaltRequest wing => [.wing wing]
  | .debugHaltEnter wing => [.wing wing]
  | .debugStep wing => [.wing wing]
  | .debugRelease wing => [.wing wing]
  | .tirrikLaneLoss _ => []
  | .referenceRestored wing => [.wing wing]
  | .laserInputRestored laser => [.laser laser]
  | .wireGroupFailure _ _ => []
  | .housekeepingSupplyFail => []
  | .testBudgetExpiry wing => [.wing wing]

/-- A command is well formed when every unit that it names exists. -/
def Instr.wf (i : Instr) : Bool := i.owners.all Owner.exists

end Sys2Proof
end

