-- ==== Sys2Proof/Certificates/Slice0/Obligations.lean ====
section
/-!
DEFINITION. What is claimed of the model: the statements for the provers, each a Prop.
-/

namespace Sys2Proof.Claim

open Sys2Proof.Machine

/-- A command answers a next state of which P holds. -/
def Answers (i : Instr) (s : State) (P : State → Prop) : Prop := ∃ t, exec i s = .next t ∧ P t

/-- Between two states only the cores that the wings list differ. -/
def CoresOnly (s t : State) : Prop :=
  (∀ w, ({ t.wing w with cores := (s.wing w).cores } : WingState) = s.wing w) ∧
  ({ t with west := s.west, east := s.east } : State) = s

/-- Between two states only core k differs, and it is x afterwards. -/
def OneCore (k : Nat) (s t : State) (x : Core) : Prop :=
  t.core k = x ∧ (∀ c, c ≠ k → t.core c = s.core c) ∧ CoresOnly s t

/-- A sparse map takes value v at key k and keeps every other key. -/
def SetsKey {α : Type} (d : α) (old new : List (Nat × α)) (k : Nat) (v : α) : Prop :=
  Map.get d new k = v ∧ ∀ j, j ≠ k → Map.get d new j = Map.get d old j

/-- The core at which a command of a schedule runs (Tables 4.2, 5.2, 7.3, 8.1, 9.6). -/
def scheduledAt : Instr → Option Nat
  | .loadA c _ _ | .loadB c _ _ | .loadAnchor c _ _ | .mma c _ _ | .merge c _ _ | .store c _ _ => some c
  | .vld c _ | .vst c _ | .vadd c _ | .vsub c _ | .vmul c _ | .vfma c _ | .vdiv c _ | .vsqrt c _ | .vrsqrt c _ => some c
  | .vexp2 c _ | .vlog2 c _ | .vmax c _ | .vmin c _ | .vcmp c _ _ | .vsel c _ | .vcvt c _ _ | .vsum c _ | .vpowi c _ => some c
  | .ctrSet c _ _ | .ctrAdd c _ _ | .ctrTest c _ _ _ _ | .loopCmd c _ _ _ _ | .gate c _ _ _ | .fire c _ | .consume c _ => some c
  | .take c _ _ | .token c _ _ _ _ | .dstart c _ _ | .dtile c _ => some c
  | .arrive c _ _ _ _ _ | .await c _ _ _ | .tprod c _ _ _ _ _ | .tcons c _ _ | .twait c _ _ _ => some c
  | _ => none

/-- What the invariant of the machine says: every memory is in canonical form, and every command that waits names units
that exist. -/
def Inv (s : State) : Prop := s.safe = true ∧ ∀ c ∈ s.pending, c.wf = true

/-- A register of the vector engine after a lane-wise command: lane k of VD takes f k where the command writes it, every
other register stays, and the issue beats are counted (R124, R128). -/
def Lanes (k : Nat) (s t : State) (cmd : VCmd) (issue : Nat) (f : Nat → F32) : Prop :=
  OneCore k s t { s.core k with vec := { (s.core k).vec with
      regs := (t.core k).vec.regs, beats := (satAdd (s.core k).vec.beats (s.core k).vec.sat issue).1,
      sat := (satAdd (s.core k).vec.beats (s.core k).vec.sat issue).2 } } ∧
  (∀ v : BitVec 5, v ≠ cmd.vd → (t.core k).vreg v = (s.core k).vreg v) ∧
  ∀ i, i < 32 → vlane ((t.core k).vreg cmd.vd) i =
    if cmd.pred && !(s.core k).vec.pred.getLsbD i then vlane ((s.core k).vreg cmd.vd) i else f i

/-- The sum of 2^n lanes from lane i · 2^n on, by a tree of n levels over neighbours (R125). -/
def treeSum (add : F32 → F32 → F32) (lane : Nat → F32) : Nat → Nat → F32
  | 0, i => lane i
  | n + 1, i => add (treeSum add lane n (2 * i)) (treeSum add lane n (2 * i + 1))

/-- A command as its schedule holds it: without what the checkers or a read of the register file find. -/
def asScheduled : Instr → Instr
  | .loadA c w _ => .loadA c w .ok
  | .loadB c w _ => .loadB c w .ok
  | .loadAnchor c w _ => .loadAnchor c w .ok
  | .mma c w _ => .mma c w .ok
  | .merge c w _ => .merge c w .ok
  | .store c w _ => .store c w .ok
  | .vld c w => .vld c (vbare w)
  | .vst c w => .vst c (vbare w)
  | .vadd c w => .vadd c (vbare w)
  | .vsub c w => .vsub c (vbare w)
  | .vmul c w => .vmul c (vbare w)
  | .vfma c w => .vfma c (vbare w)
  | .vdiv c w => .vdiv c (vbare w)
  | .vsqrt c w => .vsqrt c (vbare w)
  | .vrsqrt c w => .vrsqrt c (vbare w)
  | .vexp2 c w => .vexp2 c (vbare w)
  | .vlog2 c w => .vlog2 c (vbare w)
  | .vmax c w => .vmax c (vbare w)
  | .vmin c w => .vmin c (vbare w)
  | .vcmp c t w => .vcmp c t (vbare w)
  | .vsel c w => .vsel c (vbare w)
  | .vcvt c t w => .vcvt c t (vbare w)
  | .vsum c w => .vsum c (vbare w)
  | .vpowi c w => .vpowi c (vbare w)
  | i => i

/-- Core k acts on a command: the core exists, its schedule has the command at its present beat, its compute rail is up, and it
neither waits nor drains nor suppresses the beat (R48, R49, R52, R63, R201, R210). -/
def Acts (k : Nat) (s : State) (i : Instr) : Prop := validCore k = true ∧ s.acting k (asScheduled i) = true

/-- A packet or message leaves the router that had accepted it, the router's local input and the port that it reached: nothing
else differs. -/
def Delivered (s t : State) : Prop :=
  CoresOnly s t ∧ ∀ c, ({ t.core c with router := { (t.core c).router with
    out := (s.core c).router.out, toSend := (s.core c).router.toSend, local_ := (s.core c).router.local_,
    memPort := (s.core c).router.memPort } } : Core) = s.core c

/-- Core k is x after an arrival, and nothing else differs but the packet that has arrived. -/
def AtCore (k : Nat) (s t : State) (x : Core → Core) : Prop := ∃ u, Delivered s u ∧ OneCore k u t (x (u.core k))

/-- A step that runs on a wing ends: its descriptor is FAULTED with a code and a place, every other array descriptor in flight
on the wing goes with it, and no run is left (R168, R356). -/
def StepEnds (w : Nat) (s t : State) (code : Code) (kind loc : Nat) : Prop :=
  ∀ g, s.stepRuns w = true → s.runningArray (s.lead w) = some g →
    (∀ f ∈ t.flights, f.cls = .array → f.wing ≠ s.lead w) ∧
    (∃ r ∈ (t.cring (s.sring g.ring).cq.toNat).waiting, r.ring = g.ring ∧ r.seq = g.seq ∧ r.disp = 2 ∧ r.fault = code ∧
      r.whereKind = kind ∧ r.where_ = loc) ∧
    (t.wing (s.lead w)).run = none ∧ (t.wing (s.lead w)).pass = none

/-- The ring of the descriptor that runs on a wing serves that wing alone: no descriptor of the other wing is in flight on it
(R340). -/
def RingApart (w : Nat) (s : State) : Prop :=
  ∀ g, s.runningArray (s.lead w) = some g → ∀ f ∈ s.flights, f.ring = g.ring → f.wing = g.wing

/-- The exact integer that V and C of a lane stand for (R76). -/
def laneSum (l : Lane) : Int := l.v.toInt + l.c.toInt * 2 ^ 96

/-- A descriptor of a family is in flight and may start (R347), with no debug halt in force on its wing. -/
def CanStart (s : State) (ring : Nat) (seq : BitVec 32) (fam : Nat) (f : Flight) : Prop :=
  ring < 128 ∧ s.flight ring seq = some f ∧ famOf f.words = fam ∧ s.mayStart f = true ∧ (s.wing (s.lead f.wing)).halted = false

/-- The link field that a port sent last, between a port before and after one slot that carries no frame: in the slot, or in the
link-status word that stands before it (R307). -/
def portSaid (x y : Port) : BitVec 96 :=
  if x.pos + 1 = 43 ∨ x.pos + 1 = 86 then BitVec.ofNat 96 y.statusOut.toNat else slotLink y.slotOut

/-- A descriptor is no longer in flight, and its outcome is the last to wait on its completion ring (R354, R356). -/
def Decided (s t : State) (f : Flight) (disp status : Nat) (code : Code) : Prop :=
  t.flight f.ring f.seq = none ∧
  ∃ r, (t.cring (s.sring f.ring).cq.toNat).waiting = (s.cring (s.sring f.ring).cq.toNat).waiting ++ [r] ∧
    r.ring = f.ring ∧ r.seq = f.seq ∧ r.family = famOf f.words ∧ r.disp = disp ∧ r.status = status ∧ r.fault = code

end Sys2Proof.Claim

open Sys2Proof Sys2Proof.Machine Sys2Proof.Claim

/-! ### The queue, the units and the invariant -/

/-- The model's form of the block: a step runs the command at the front of the queue with the queue's rest, and with no
command waiting the block idles (log 6). -/
def Obligations.StepRunsFrontCommand : Prop :=
  (∀ (s : State) (c : Instr) (cs : List Instr), s.pending = c :: cs → step s = exec c { s with pending := cs }) ∧
  (∀ s : State, s.pending = [] → step s = .next s)

/-- Every command whose units exist answers a next state, in every state, and no other command does (R18 to R22, R31, R34,
R340): no command ends in a fault. A command changes everything but the queue. -/
def Obligations.CommandsAnswerAndKeepQueue : Prop :=
  (∀ (i : Instr) (s : State),
     (i.wf = true → ∃ t, exec i s = .next t) ∧ (i.wf = false → exec i s = .refused .noSuchUnit)) ∧
  (∀ (i : Instr) (s t : State), exec i s = .next t → t.pending = s.pending)

/-- Every step keeps every memory in canonical form and every waiting command well formed, from any such state. -/
def Obligations.StepKeepsInvariant : Prop :=
  ∀ s t : State, Inv s → step s = .next t → Inv t

/-- The state after reset satisfies the invariant, and holds the values of the Reset columns: the wings in reset, preferred
operating point 3, epoch 0, no descriptor, no memory written; each core's arithmetic and limit registers, each ring, the
power, health, link and fabric registers at the values of Tables 3.9, 6.7, 10.3, 10.5, 11.9, 12.14, 12.15, 13.8, 14.8 and
15.3. What else the reset state holds is the model's choice where its log says so (log 1 to 4). -/
def Obligations.ResetState : Prop :=
  (Inv State.reset) ∧
  (let s := State.reset
   s.pending = [] ∧ s.flights = [] ∧ s.split = false ∧ s.capstoned = false ∧ s.domainSet = false ∧ s.hopLimit = 8 ∧
   s.extTimeout = 10 ∧ s.link.up = false ∧ s.link.opMap0 = 0x3333333333333333#64 ∧ s.link.opMap1 = 0x3333333333333333#64 ∧
   s.power.cap = 420 ∧ s.power.slope = 250 ∧ s.power.westShare = 50 ∧ s.health.autoTest = true ∧ s.health.period = 24 ∧
   s.health.obsSteps = 10000 ∧ s.health.repeatWindow = 24 ∧
   (∀ w, w < 2 → (s.wing w).phase = 0 ∧ (s.wing w).power.prefOp = 3 ∧ (s.wing w).epoch = 0 ∧
     (s.wing w).attn = false ∧ (s.wing w).run = none) ∧
   (∀ i, i < 128 → (s.sring i).enable = false ∧ (s.sring i).weight = 1 ∧ (s.cring i).enable = false) ∧
   ∀ k, validCore k = true → (s.core k).mem.on = 0 ∧ (s.core k).arith.satDefault = true ∧ (s.core k).arith.status = 0 ∧ (s.core k).limit.sections = 0xFF ∧
     (s.core k).limit.tiles = 8 ∧ (s.core k).limit.slots = 8 ∧ (s.core k).limit.depth = 16 ∧ (s.core k).limit.sendEp = 16 ∧
     (s.core k).limit.recvEp = 16)

/-- A command of a schedule has no effect at a beat to which its core's schedule does not give it (R48, R49, R58), at a core that
waits (R63), is in sink mode after a drain notice (R210), whose beat lies in a suppressed window (R201), or whose compute rail
is held at retention (R52). The five commands that do nothing leave the state as it is (Tables 4.2, 5.2, 7.3, 8.1, 9.6). -/
def Obligations.IdleCoresAndNopsChangeNothing : Prop :=
  (∀ (i : Instr) (s : State) (k : Nat), scheduledAt i = some k → validCore k = true →
     ((∀ w ∈ s.wordsNow k, decodeCmd k w ≠ some (asScheduled i)) ∨ (s.core k).pace.wait ≠ none ∨ (s.core k).pace.idle = true ∨
       (s.core k).flow.sink = true ∨ (s.core k).suppressed = true ∨ s.railOn (clusterOf k) = false) →
     exec i s = .next s) ∧
  (∀ (k : Nat) (s : State), validCore k = true →
     exec (.nop k) s = .next s ∧ exec (.vnop k) s = .next s ∧ exec (.snop k) s = .next s ∧
     exec (.dnop k) s = .next s ∧ exec (.rnop k) s = .next s)

/-! ### Tensor engine (R109 to R116) -/

/-- LOAD_A and LOAD_B replace the data and the scales of one buffer half by the bytes that they read; the other half, and
everything else, stays (R104, R110). LOAD_ANCHOR gives the i-th selected tile, in increasing order, the 16 row maxima and the
16 column maxima of the i-th 64 bytes that it reads, each a 16-bit number with its lower byte first; other tiles and all
lanes stay (R5, R111). A LOAD_A, LOAD_B, LOAD_ANCHOR or MERGE whose data a stream or an endpoint has still to write waits, and
its beat is late or external (R63, R109). -/
def Obligations.LoadsReplaceTheirTargets : Prop :=
  (∀ (k : Nat) (s : State) (cmd : TCmd) (n : Nat) (d sc : List Byte), Acts k s (.loadA k cmd .ok) → s.portLate k 1 cmd = none →
    loadABytes (s.core k) cmd = .ok n → (s.core k).readMem cmd.addr.toNat n = .ok d →
    (s.core k).readMem cmd.scaleAddr.toNat (if isExactFmt cmd.fmt.toNat then 16 * cmdTr cmd * cmdKBlocks cmd else 0) = .ok sc →
    Answers (.loadA k cmd .ok) s (fun t =>
      OneCore k s t { s.core k with tensor := { (s.core k).tensor with a := (t.core k).tensor.a } } ∧
      SetsKey {} (s.core k).tensor.a (t.core k).tensor.a (cmdHalf cmd)
        { data := BitVec.ofNat 16384 (ofBytes d), scale := BitVec.ofNat 1024 (ofBytes sc) })) ∧
  (∀ (k : Nat) (s : State) (cmd : TCmd) (d sc : List Byte), Acts k s (.loadB k cmd .ok) → s.portLate k 2 cmd = none →
    (s.core k).readMem cmd.addr.toNat (elemBytes cmd.fmt.toNat (cmd.kc.toNat * (16 * cmdTc cmd))) = .ok d →
    (s.core k).readMem cmd.scaleAddr.toNat (if isExactFmt cmd.fmt.toNat then 16 * cmdTc cmd * cmdKBlocks cmd else 0) = .ok sc →
    Answers (.loadB k cmd .ok) s (fun t =>
      OneCore k s t { s.core k with tensor := { (s.core k).tensor with b := (t.core k).tensor.b } } ∧
      SetsKey {} (s.core k).tensor.b (t.core k).tensor.b (cmdHalf cmd)
        { data := BitVec.ofNat 16384 (ofBytes d), scale := BitVec.ofNat 1024 (ofBytes sc) })) ∧
  (∀ (k : Nat) (s : State) (cmd : TCmd) (bs : List Byte), Acts k s (.loadAnchor k cmd .ok) → s.portLate k 3 cmd = none →
     (s.core k).readMem cmd.addr.toNat (64 * (cmdSel cmd).length) = .ok bs →
     Answers (.loadAnchor k cmd .ok) s (fun t =>
       OneCore k s t { s.core k with tensor := { (s.core k).tensor with tiles := (t.core k).tensor.tiles } } ∧
       (∀ n, n ∉ cmdSel cmd → (t.core k).tile n = (s.core k).tile n) ∧
       ∀ i n, (cmdSel cmd)[i]? = some n →
         ∃ rows cols : List (BitVec 16), rows.length = 16 ∧ cols.length = 16 ∧
           (t.core k).tile n = { (s.core k).tile n with rowMax := rows, colMax := cols } ∧
           ∀ j, j < 16 →
             (rows.getD j 0).toNat = (bs.getD (64 * i + 2 * j) 0).toNat + 256 * (bs.getD (64 * i + 2 * j + 1) 0).toNat ∧
             (cols.getD j 0).toNat = (bs.getD (64 * i + 32 + 2 * j) 0).toNat + 256 * (bs.getD (64 * i + 32 + 2 * j + 1) 0).toNat)) ∧
  (∀ (k : Nat) (s : State) (i : Instr) (p : PortCmd) (l : Lateness), scheduledAt i = some k → portOf i = some p → Acts k s i →
     s.portLate k p.op p.cmd = some l →
     Answers i s (fun t =>
       OneCore k s t { s.core k with pace := (t.core k).pace } ∧
       (t.core k).pace.wait = some { what := .engine i, ext := l.ext, late := if l.ext then 0 else 1 } ∧
       (l.ext = false → (t.core k).pace.lateCount = (satAdd (s.core k).pace.lateCount (s.core k).pace.lateSat 1).1) ∧
       (l.ext = true → (t.core k).pace.extCount = (satAdd (s.core k).pace.extCount (s.core k).pace.extSat 1).1)))

/-- An MMA whose tiles are ready and whose scales do not exceed the anchors changes the selected tiles alone: each takes the
products of its rows and columns over what it held, or over an empty tile where INIT is 1; the beats of the MMA are counted,
and on the exact path a rounded product sets INEXACT (R100, R114, R115, R120). What a checker finds in an MMA ends it: the
core finds that fault, and the tiles stay (R97, R98). -/
def Obligations.MmaAccumulatesSelectedTiles : Prop :=
  ∀ (k : Nat) (s : State) (cmd : TCmd), Acts k s (.mma k cmd .ok) →
    (let c := s.core k
     let p16 := mmaPath16 cmd
     let ha := Map.get {} c.tensor.a (cmdHalf cmd)
     let hb := Map.get {} c.tensor.b (cmdHalf cmd)
     let start (n : Nat) : Tile := if cmd.init then (c.tile n).initMma p16 else c.tile n
     let ts := (cmdSel cmd).map (fun n => (n, start n))
     let beats := mmaBeats cmd ha.data.toNat
     ((∀ n ∈ cmdSel cmd, (start n).init = true ∧ (start n).path16 = p16) →
      (p16 = false → anchorExceeded cmd ha hb ts = none) →
      Answers (.mma k cmd .ok) s (fun t =>
       OneCore k s t { c with
         tensor := { c.tensor with
           tiles := (t.core k).tensor.tiles, mmaBeats := (satAdd c.tensor.mmaBeats c.tensor.mmaSat beats).1,
           mmaSat := (satAdd c.tensor.mmaBeats c.tensor.mmaSat beats).2,
           dupTurn := if p16 then c.tensor.dupTurn + BitVec.ofNat 8 beats else c.tensor.dupTurn },
         arith := { c.arith with status := (t.core k).arith.status } } ∧
       (∀ n, n ∉ cmdSel cmd → (t.core k).tile n = c.tile n) ∧
       (∀ i n, (cmdSel cmd)[i]? = some n →
         (t.core k).tile n = (mmaTile cmd ha hb (cmdKBlocks cmd) i (start n)).1) ∧
       ∀ n, (t.core k).arith.status.getLsbD n = (c.arith.status.getLsbD n || (n == 3 &&
         (List.range (cmdSel cmd).length).any (fun i => (mmaTile cmd ha hb (cmdKBlocks cmd) i (start ((cmdSel cmd).getD i 0))).2))))) ∧
     ∀ chk f, mmaFault c p16 beats chk = some f → exec (.mma k cmd chk) s = .next (s.coreFault k f))

/-- A MERGE of well-formed partials changes the selected tiles alone: lane l of the i-th selected tile takes partial 256 i +
l of the bytes read, an EP128 word merged or an FP32 value added, and of the status only INEXACT and SCALE_MIXED may become
set (R84, R85, R100, R112). -/
def Obligations.MergeCombinesPartials : Prop :=
  ∀ (k : Nat) (s : State) (cmd : TCmd) (bs : List Byte), Acts k s (.merge k cmd .ok) → s.portLate k 5 cmd = none →
    (let c := s.core k
     let p16 := cmd.fmt.toNat == 0
     let wb := if p16 then 4 else 16
     let word (i l : Nat) : BitVec 128 := BitVec.ofNat 128 (eltAt (ofBytes bs) 0 (8 * wb) (256 * i + l))
     let start (n : Nat) : Tile := if cmd.init then (c.tile n).initMerge p16 else c.tile n
     c.readMem cmd.addr.toNat (256 * wb * (cmdSel cmd).length) = .ok bs →
     (∀ n ∈ cmdSel cmd, (start n).init = true ∧ (start n).path16 = p16) →
     (p16 = false → ∀ i l, i < (cmdSel cmd).length → l < 256 → epMalformed (word i l) = false) →
     Answers (.merge k cmd .ok) s (fun t =>
       OneCore k s t { c with tensor := { c.tensor with tiles := (t.core k).tensor.tiles },
                              arith := { c.arith with status := (t.core k).arith.status } } ∧
       (∀ n, n ∉ cmdSel cmd → (t.core k).tile n = c.tile n) ∧
       (∀ n, c.arith.status.getLsbD n = true → (t.core k).arith.status.getLsbD n = true) ∧
       (∀ n, n ≠ 3 → n ≠ 4 → (t.core k).arith.status.getLsbD n = c.arith.status.getLsbD n) ∧
       ∀ i n l, (cmdSel cmd)[i]? = some n → l < 256 →
         ((t.core k).tile n).lane l =
           if p16 then ((start n).lane l).addF32 (BitVec.ofNat 32 (word i l).toNat) (numOfF32 (BitVec.ofNat 32 (word i l).toNat)).finite
           else (((start n).lane l).merge (word i l)).1))

/-- An EP128 word of the selected lanes that is malformed (EP_VERSION other than 1, a nonzero reserved bit, or EMPTY with a
nonzero VALUE) is not merged: no tile changes, and the core finds CHECK:0x005 at the first such lane, which ends the step and
names the core (R84). -/
def Obligations.MalformedPartialIsRefused : Prop :=
  ∀ (k : Nat) (s : State) (cmd : TCmd) (bs : List Byte), Acts k s (.merge k cmd .ok) → s.portLate k 5 cmd = none → cmd.fmt.toNat ≠ 0 →
    (let c := s.core k
     let word (i l : Nat) : BitVec 128 := BitVec.ofNat 128 (eltAt (ofBytes bs) 0 128 (256 * i + l))
     let start (n : Nat) : Tile := if cmd.init then (c.tile n).initMerge false else c.tile n
     c.readMem cmd.addr.toNat (4096 * (cmdSel cmd).length) = .ok bs →
     (∀ n ∈ cmdSel cmd, (start n).init = true ∧ (start n).path16 = false) →
     ∀ i n l, (cmdSel cmd)[i]? = some n → l < 256 → epMalformed (word i l) = true →
       (∀ i' l', l' < 256 → 256 * i' + l' < 256 * i + l → epMalformed (word i' l') = false) →
       exec (.merge k cmd .ok) s = .next (s.coreFault k (.check 5 n l false)) ∧
       (s.underTest k = false → Answers (.merge k cmd .ok) s (fun t =>
         StepEnds (wingOf k) s t 0x4005#16 1 (localCore s.split (wingOf k) k) ∧ (t.core k).tensor = (s.core k).tensor)))

/-- STORE of allowed tiles writes the converted panel to ADDR and its scales, filled up to a whole line with free bytes, to
SCALE_ADDR; the tiles stay, the flags of the conversion are set, and the element counter of stochastic rounding goes on by
the values converted (R95, R100, R113, R162). -/
def Obligations.StoreWritesPanel : Prop :=
  ∀ (k : Nat) (s : State) (cmd : TCmd), Acts k s (.store k cmd .ok) →
    (let c := s.core k
     let ls := panelLanes c cmd
     let o := storeOut c cmd (localCore s.split (wingOf k) k) ls
     storeAllowed cmd ls = true →
     Answers (.store k cmd .ok) s (fun t =>
       t.freeCtr = s.freeCtr + (roundUp o.scale.length 64 - o.scale.length) ∧
       OneCore k { s with freeCtr := t.freeCtr } t
         { (c.writeMem cmd.addr.toNat o.data).writeMem cmd.scaleAddr.toNat (padLine s.freeCtr o.scale) with
           arith := { c.arith with status := (t.core k).arith.status, convCount := c.arith.convCount + o.conv } } ∧
       (t.core k).tensor = c.tensor ∧
       (o.flags.ovf = true → (t.core k).arith.status.getLsbD 5 = true) ∧
       (o.flags.undf = true → (t.core k).arith.status.getLsbD 6 = true) ∧
       (o.flags.invalid = true → (t.core k).arith.status.getLsbD 7 = true) ∧
       (o.flags.inexact = true → (t.core k).arith.status.getLsbD 8 = true) ∧
       (∀ n, c.arith.status.getLsbD n = true → (t.core k).arith.status.getLsbD n = true)))

/-- Merging words of the lane's own SCALE is exact and independent of their order: the lane's V and C end as the one form of
the exact sum, for every order, while the carry count stays below its limit; the status is the OR of all (R76, R82, R85). Two
words merge by R85: an EMPTY word leaves the other's value, equal SCALEs add exactly and keep SCALE, and a different SCALE
ends as the larger one with SCALE_MIXED set; the sticky status bits are the OR of both. -/
def Obligations.MergeAddsExactly : Prop :=
  (∀ (l : Lane) (ws : List (BitVec 128)), l.st &&& stEmpty = 0 →
     (∀ w ∈ ws, (epFields w).scale = l.e ∧ bit (epFields w).status 6 = false) →
     l.c.toInt.natAbs + ws.length < 2147483647 →
     (let r := ws.foldl (fun x w => (x.merge w).1) l
      laneSum r = laneSum l + (ws.map (fun w => (epFields w).value.toInt)).sum ∧ r.e = l.e ∧
      r.st &&& 0x40#8 = 0 ∧
      (∀ n, n < 6 → r.st.getLsbD n = (l.st.getLsbD n || ws.any (fun w => bit (epFields w).status n)))) ∧
     ∀ ws', ws.Perm ws' → ws'.foldl (fun x w => (x.merge w).1) l = ws.foldl (fun x w => (x.merge w).1) l) ∧
  (∀ (l : Lane) (w : BitVec 128),
     (let f := epFields w
      let r := (l.merge w).1
      (bit f.status 6 = true → r.v = l.v ∧ r.e = l.e ∧ r.c = l.c) ∧
      (bit f.status 6 = false → l.st &&& stEmpty ≠ 0 → r.v = f.value ∧ r.e = f.scale ∧ r.c = 0) ∧
      (bit f.status 6 = false → l.st &&& stEmpty = 0 → l.c.toInt.natAbs < 2147483646 → f.scale = l.e →
        laneSum r = laneSum l + f.value.toInt ∧ r.e = l.e) ∧
      (bit f.status 6 = false → l.st &&& stEmpty = 0 → f.scale ≠ l.e →
        r.st.getLsbD 5 = true ∧ r.e.toInt = max l.e.toInt f.scale.toInt) ∧
      (∀ n, n < 6 → (l.st.getLsbD n || bit f.status n) = true → r.st.getLsbD n = true)))

/-- On the exact path a lane's products accumulate exactly: with finite elements, scales that are no NaN, every product a
multiple of the window's unit and the sums within the carry count's range, V and C end as the exact sum of the products (R76,
R79, R82, R114). -/
def Obligations.ExactLaneHoldsExactSum : Prop :=
  ∀ (l : Lane) (terms : List (Nat × Machine.Num)) (b : Nat → Machine.Num) (sa sb : Nat → Nat) (limit : Nat) (val : Nat × Machine.Num → Int),
    (∀ n, n < limit → sa n ≠ 255 ∧ sb n ≠ 255) →
    (∀ x ∈ terms, x.1 / 32 < limit ∧ ∃ p m e q n f, x.2 = .fin p m e ∧ b x.1 = .fin q n f ∧
      ∃ z : Nat, e + f + (Int.ofNat (sa (x.1 / 32)) + Int.ofNat (sb (x.1 / 32)) - 254) - (l.e.toInt - 56) = Int.ofNat z ∧
        val x = (if p != q then -1 else 1) * Int.ofNat (m * n * 2 ^ z)) →
    (laneSum l).natAbs + (terms.map (fun x => (val x).natAbs)).sum < 2 ^ 126 →
    laneSum (exactLane l terms b sa sb limit).1 = laneSum l + (terms.map val).sum ∧
    (exactLane l terms b sa sb limit).2 = false

/-! ### Vector engine (R121 to R128) -/

/-- The two-operand arithmetic of the vector engine: each written lane takes the FP32 result rounded once, or the INT32
result modulo 2^32, of its lanes of VA and VB (lane 0 of VB with BCAST_B) (R124, R125, Table 5.2). The one-operand functions
of the vector engine, each with one rounding of the function's value, and their issue beats (R124, R125, Table 5.2). -/
def Obligations.VectorFunctionsOfLanes : Prop :=
  (∀ (k : Nat) (s : State) (cmd : VCmd), cmd.vrfErr = none →
     (let a (i : Nat) := vlane ((s.core k).vreg cmd.va) i
      let b (i : Nat) := vlane ((s.core k).vreg cmd.vb) (if cmd.bcastB then 0 else i)
      let gives (i : Instr) (issue : Nat) (f : Nat → F32) : Prop := Acts k s i → Answers i s (fun t => Lanes k s t cmd issue f)
      gives (.vadd k cmd) 1 (fun i => if cmd.ty = .int32 then a i + b i else f32Add (a i) (b i)) ∧
      gives (.vsub k cmd) 1 (fun i => if cmd.ty = .int32 then a i - b i else f32Sub (a i) (b i)) ∧
      gives (.vmul k cmd) 1 (fun i => if cmd.ty = .int32 then a i * b i else f32Mul (a i) (b i)) ∧
      gives (.vmax k cmd) 1 (fun i => if cmd.ty = .int32 then (if (a i).slt (b i) then b i else a i) else f32Max (a i) (b i)) ∧
      gives (.vmin k cmd) 1 (fun i => if cmd.ty = .int32 then (if (b i).slt (a i) then b i else a i) else f32Min (a i) (b i)) ∧
      gives (.vdiv k cmd) 4 (fun i => f32Div (a i) (b i)) ∧
      gives (.vfma k cmd) 1 (fun i => f32Fma (a i) (b i) (vlane ((s.core k).vreg cmd.vc) i)))) ∧
  (∀ (k : Nat) (s : State) (cmd : VCmd), cmd.vrfErr = none →
     (let a (i : Nat) := numOfF32 (vlane ((s.core k).vreg cmd.va) i)
      let gives (i : Instr) (f : Nat → F32) : Prop := Acts k s i → Answers i s (fun t => Lanes k s t cmd 4 f)
      gives (.vsqrt k cmd) (fun i => f32OfNum (a i).sqrt) ∧
      gives (.vrsqrt k cmd) (fun i => f32OfNum (a i).rsqrt) ∧
      gives (.vexp2 k cmd) (fun i => f32OfNum (a i).exp2) ∧
      gives (.vlog2 k cmd) (fun i => f32OfNum (a i).log2)))

/-- VSEL chooses by the predicate in every lane that it writes, VCMP writes every predicate bit and nothing else, VSUM puts the
sum over a fixed tree of five levels into lane 0 and zero elsewhere, and VPOWI raises to a power of at least 0; a lane whose
power is negative takes a value that the spec leaves open, any value (R123 to R125, Table 5.1, Table 5.2). -/
def Obligations.VectorSelectCompareSumPower : Prop :=
  ∀ (k : Nat) (s : State) (cmd : VCmd), cmd.vrfErr = none →
    (let c := s.core k
     let a (i : Nat) := vlane (c.vreg cmd.va) i
     let b (i : Nat) := vlane (c.vreg cmd.vb) (if cmd.bcastB then 0 else i)
     (Acts k s (.vsel k cmd) → Answers (.vsel k cmd) s (fun t =>
       Lanes k s t cmd 1 (fun i => if c.vec.pred.getLsbD i then a i else b i))) ∧
     (∀ test, Acts k s (.vcmp k test cmd) → Answers (.vcmp k test cmd) s (fun t =>
       OneCore k s t { c with vec := { c.vec with pred := (t.core k).vec.pred, beats := (satAdd c.vec.beats c.vec.sat 1).1,
                                                  sat := (satAdd c.vec.beats c.vec.sat 1).2 } } ∧
       ∀ i, i < 32 → (t.core k).vec.pred.getLsbD i = vTest test cmd.ty (a i) (b i))) ∧
     (Acts k s (.vsum k cmd) → Answers (.vsum k cmd) s (fun t => Lanes k s t cmd 5 (fun i => if i = 0 then
       treeSum (if cmd.ty = .int32 then (fun x y => x + y) else f32Add) a 5 0 else 0))) ∧
     (Acts k s (.vpowi k cmd) → Answers (.vpowi k cmd) s (fun t => t.freeCtr = s.freeCtr + 32 ∧
       ∃ open_ : Nat → F32, Lanes k { s with freeCtr := s.freeCtr + 32 } t cmd 5 (fun i =>
         if (b i).toInt < 0 then open_ i else f32Powi (a i) (b i).toInt.toNat))))

/-- VCVT: the BF16 halves to FP32 exactly, a NaN to the canonical one, INT32 to FP32 and FP32 to INT32 lane by lane, and FP32 to
BF16 into one half of VD while the other half keeps its value (R125). -/
def Obligations.VectorConversions : Prop :=
  ∀ (k : Nat) (s : State) (cmd : VCmd), cmd.vrfErr = none →
    (let c := s.core k
     let a (i : Nat) := vlane (c.vreg cmd.va) i
     let wide (i : Nat) : F32 := (vhalf (c.vreg cmd.va) i).setWidth 32 <<< 16
     let gives (kind : VCvt) (f : Nat → F32) : Prop :=
       Acts k s (.vcvt k kind cmd) → Answers (.vcvt k kind cmd) s (fun t => Lanes k s t cmd 1 f)
     gives .lowBf16ToF32 (fun i => if isNanF32 (wide i) then 0x7FC00000 else wide i) ∧
     gives .highBf16ToF32 (fun i => if isNanF32 (wide (32 + i)) then 0x7FC00000 else wide (32 + i)) ∧
     gives .i32ToF32 (fun i => f32OfNum (numOfInt (a i).toInt)) ∧
     gives .f32ToI32 (fun i => BitVec.ofNat 32 (roundInt 32 (numOfF32 (a i)) 1 0 false).1) ∧
     ∀ high : Bool, Acts k s (.vcvt k (if high then .f32ToHighBf16 else .f32ToLowBf16) cmd) →
      Answers (.vcvt k (if high then .f32ToHighBf16 else .f32ToLowBf16) cmd) s (fun t =>
       OneCore k s t { c with vec := { c.vec with regs := (t.core k).vec.regs, beats := (satAdd c.vec.beats c.vec.sat 1).1,
                                                  sat := (satAdd c.vec.beats c.vec.sat 1).2 } } ∧
       (∀ v : BitVec 5, v ≠ cmd.vd → (t.core k).vreg v = c.vreg v) ∧
       ∀ i, i < 32 →
         vhalf ((t.core k).vreg cmd.vd) (if high then i else 32 + i) = vhalf (c.vreg cmd.vd) (if high then i else 32 + i) ∧
         vhalf ((t.core k).vreg cmd.vd) (if high then 32 + i else i) =
           if cmd.pred && !c.vec.pred.getLsbD i then vhalf (c.vreg cmd.vd) (if high then 32 + i else i) else bf16OfF32 (a i)))

/-- VLD: lane i of VD takes bytes 4i to 4i + 3 of the 128 bytes at ADDR. VST: where its section is on, the 128 bytes at ADDR,
a multiple of 128, take VA, with the line state of both lines set, and every other byte of core memory stays (R122, R162 to
R164). -/
def Obligations.VectorLoadAndStore : Prop :=
  (∀ (k : Nat) (s : State) (cmd : VCmd) (bs : List Byte), Acts k s (.vld k cmd) → cmd.vrfErr = none →
    (s.core k).readMem cmd.addr.toNat 128 = .ok bs →
    Answers (.vld k cmd) s (fun t =>
      OneCore k s t { s.core k with vec := { (s.core k).vec with regs := (t.core k).vec.regs } } ∧
      (∀ v : BitVec 5, v ≠ cmd.vd → (t.core k).vreg v = (s.core k).vreg v) ∧
      ∀ i, i < 32 → vlane ((t.core k).vreg cmd.vd) i =
        if cmd.pred && !(s.core k).vec.pred.getLsbD i then vlane ((s.core k).vreg cmd.vd) i
        else BitVec.ofNat 32 (ofBytes (sliceBytes bs (4 * i) 4)))) ∧
  (∀ (k : Nat) (s : State) (cmd : VCmd), Acts k s (.vst k cmd) → cmd.vrfErr = none → cmd.addr.toNat % 128 = 0 → cmd.addr.toNat < 98304 →
    Memory.wf (s.core k).mem.bytes = true → (s.core k).mem.isOn (sectionOf cmd.addr.toNat) = true →
    Answers (.vst k cmd) s (fun t =>
      OneCore k s t { s.core k with
        mem := { (s.core k).mem with bytes := (t.core k).mem.bytes, lineSet := (t.core k).mem.lineSet, checks := (t.core k).mem.checks },
        dma := { (s.core k).dma with staged := (t.core k).dma.staged } } ∧
      (∀ a, (a < cmd.addr.toNat ∨ cmd.addr.toNat + 128 ≤ a) → Mem.get (t.core k).mem.bytes a = Mem.get (s.core k).mem.bytes a) ∧
      (∀ j, j < 128 → (Mem.get (t.core k).mem.bytes (cmd.addr.toNat + j)).toNat = ((s.core k).vreg cmd.va).toNat / 256 ^ j % 256) ∧
      (∀ n, (t.core k).mem.lineSet.getLsbD n =
        ((s.core k).mem.lineSet.getLsbD n || n == cmd.addr.toNat / 64 || n == cmd.addr.toNat / 64 + 1))))

/-- A parity error in the vector register file or the predicate, found on the reads of any vector command, ends the step with
MEM:0x007 of class MEM, which names the core, and nothing of the command takes effect; the core's registers record the code
(R127, Table 6.7). -/
def Obligations.VectorParityEndsStep : Prop :=
  ∀ (k : Nat) (s : State) (cmd : VCmd) (a : BitVec 17), cmd.vrfErr = some a → s.underTest k = false →
    ∀ i, (i ∈ [Instr.vld k cmd, .vst k cmd, .vadd k cmd, .vsub k cmd, .vmul k cmd, .vfma k cmd, .vdiv k cmd, .vsqrt k cmd,
        .vrsqrt k cmd, .vexp2 k cmd, .vlog2 k cmd, .vmax k cmd, .vmin k cmd, .vsel k cmd, .vsum k cmd, .vpowi k cmd] ∨
      (∃ test, i = .vcmp k test cmd) ∨ ∃ c, i = .vcvt k c cmd) →
    Acts k s i → Answers i s (fun t =>
      StepEnds (wingOf k) s t 0x2007#16 1 (localCore s.split (wingOf k) k) ∧
      (t.core k).vec = (s.core k).vec ∧ (t.core k).mem.bytes = (s.core k).mem.bytes ∧
      (t.core k).mem.errCode = 7 ∧ (t.core k).mem.errUnit = 6 ∧ (t.core k).mem.errAddr = a ∧
      (t.core k).health.lastEvent = 0x2007#16)

/-! ### Steering unit, courses and tally pairs (R193 to R208, R265 to R272) -/

/-- SET, ADD within 16 bits and TEST change one counter or one predicate and nothing else (R200, Tables 7.2, 7.3). The
steering unit stops the step with SYNC:0x00A: an ADD whose result falls outside 0 to 0xFFFF does not write its counter, a
LOOP with SRC = 1 whose count exceeds IMM suppresses its whole window, and a TAKE whose VALUE exceeds 0xFFFF writes nothing
(R203). A LOOP of LEN beats whose count is n of IMM suppresses, from its beat b on, exactly the beats b + LEN·n to
b + LEN·IMM - 1 besides what was suppressed already; a GATE whose predicate differs from SENSE suppresses the next LEN beats,
and otherwise nothing (R200, R201). -/
def Obligations.SteeringCommandsAct : Prop :=
  (∀ (k : Nat) (s : State) (n : BitVec 4) (imm : BitVec 16),
     (let c := s.core k
      let old := c.ctr n.toNat
      let counters (t : State) (v : BitVec 16) : Prop :=
        OneCore k s t { c with flow := { c.flow with counters := (t.core k).flow.counters } } ∧
        SetsKey 0 c.flow.counters (t.core k).flow.counters n.toNat v
      (Acts k s (.ctrSet k n imm) → Answers (.ctrSet k n imm) s (fun t => counters t imm)) ∧
      (Acts k s (.ctrAdd k n imm) → 0 ≤ (old.toNat : Int) + imm.toInt → (old.toNat : Int) + imm.toInt ≤ 0xFFFF →
        Answers (.ctrAdd k n imm) s (fun t => counters t (old + imm))) ∧
      ∀ (p : BitVec 3) (cond : Cond), Acts k s (.ctrTest k p n cond imm) → Answers (.ctrTest k p n cond imm) s (fun t =>
        OneCore k s t { c with flow := { c.flow with preds := (t.core k).flow.preds } } ∧
        ∀ j, j < 8 → (t.core k).flow.preds.getLsbD j = if j = p.toNat then
          (match cond with
           | .eq => decide (old = imm)
           | .lt => decide (old.toNat < imm.toNat)
           | .le => decide (old.toNat ≤ imm.toNat)
           | .ne => decide (old ≠ imm)) else c.flow.preds.getLsbD j))) ∧
  (∀ (k : Nat) (s : State) (n ep : BitVec 4) (imm len : BitVec 16) (v : BitVec 32),
     (let c := s.core k
      let e := c.recvEp ep.toNat
      (Acts k s (.ctrAdd k n imm) →
        (((c.ctr n.toNat).toNat : Int) + imm.toInt < 0 ∨ 0xFFFF < ((c.ctr n.toNat).toNat : Int) + imm.toInt) →
        exec (.ctrAdd k n imm) s = .next (s.coreFault k (.sync 0xA false 0 0))) ∧
      (Acts k s (.loopCmd k true n imm len) → imm.toNat < (c.ctr n.toNat).toNat →
        ∃ x : Core, exec (.loopCmd k true n imm len) s = .next ((s.setCore k x).coreFault k (.sync 0xA false 0 0)) ∧
          x = { c with flow := { c.flow with loops := x.flow.loops, suppress := x.flow.suppress } } ∧
          ∀ b, c.time ≤ b → x.suppressedAt b = (c.suppressedAt b || decide (b < c.time + len.toNat * imm.toNat))) ∧
      (Acts k s (.take k ep n) → e.bound = true → e.governed = true → (e.entry e.taken.toNat).token = some v →
        (e.entry e.taken.toNat).data = true → 0xFFFF < v.toNat →
        exec (.take k ep n) s = .next (s.coreFault k (.sync 0xA true ep.toNat e.taken.toNat))))) ∧
  (∀ (k : Nat) (s : State) (n : BitVec 4) (p : BitVec 3) (src sense : Bool) (imm len : BitVec 16),
     (let c := s.core k
      let count := if src then (c.ctr n.toNat).toNat else imm.toNat
      (Acts k s (.loopCmd k src n imm len) → count ≤ imm.toNat → Answers (.loopCmd k src n imm len) s (fun t =>
        OneCore k s t { c with flow := { c.flow with loops := (t.core k).flow.loops, suppress := (t.core k).flow.suppress } } ∧
        (c.time, c.time + len.toNat * imm.toNat) ∈ (t.core k).flow.loops ∧
        ∀ b, c.time ≤ b → (t.core k).suppressedAt b = (c.suppressedAt b ||
          (decide (c.time + len.toNat * count ≤ b) && decide (b < c.time + len.toNat * imm.toNat))))) ∧
      (Acts k s (.gate k p sense len) → Answers (.gate k p sense len) s (fun t =>
        OneCore k s t { c with flow := { c.flow with suppress := (t.core k).flow.suppress } } ∧
        ∀ b, c.time ≤ b → (t.core k).suppressedAt b = (c.suppressedAt b ||
          (c.flow.preds.getLsbD p.toNat != sense && decide (c.time < b) && decide (b ≤ c.time + len.toNat)))))))

/-- A FIRE that has its credits spends BLOCKS_PER_FIRING of them, and a pairing credit of a governed stream, and the flits of
its blocks stand ready in the order of its SEND stream, one to be injected in each beat; a CONSUME frees the firing's slots and
returns as many credits; without the credits a FIRE waits, counts its beat as late with CAUSE 6 or 5, and the rest of the
schedule moves one beat on (R63, R193, R194, R207, R208, R232). -/
def Obligations.FireAndConsumeMoveCredits : Prop :=
  ∀ (k : Nat) (s : State) (ep : BitVec 4),
    (let c := s.core k
     let e := c.sendEp ep.toNat
     let r := c.recvEp ep.toNat
     (Acts k s (.fire k ep) → e.bound = true → e.token = false → e.perFiring ≤ e.credits.toNat → (e.governed = true → e.pair ≠ 0) →
       Answers (.fire k ep) s (fun t =>
         OneCore k s t { c with flow := { c.flow with send := (t.core k).flow.send },
                                dma := { c.dma with firing := c.dma.firing ++ (if c.nextFlits e = [] then [] else
                                  [{ ep := ep.toNat, slot := e.stream.getD 0, peer := e.peer, peerEp := e.peerEp,
                                     order := c.orderBit ep.toNat, flits := c.nextFlits e, size := e.flits }]) } } ∧
         SetsKey {} c.flow.send (t.core k).flow.send ep.toNat { e with
           credits := e.credits - BitVec.ofNat 5 e.perFiring, pair := if e.governed then e.pair - 1 else e.pair,
           fired := e.fired + 1, sentBytes := e.sentBytes + 32 * e.flits * e.perFiring })) ∧
     (Acts k s (.fire k ep) → e.bound = true → e.token = false →
       (e.credits.toNat < e.perFiring ∨ (e.governed = true ∧ e.pair = 0)) →
       Answers (.fire k ep) s (fun t =>
         OneCore k s t { c with pace := (t.core k).pace } ∧
         (t.core k).pace.wait = some { what := .fire ep.toNat, ext := false, late := 1 } ∧
         (t.core k).pace.lateCount = (satAdd c.pace.lateCount c.pace.lateSat 1).1 ∧
         (t.core k).pace.shift = c.pace.shift + 1 ∧
         (c.pace.lateCount = 0 → c.pace.cause = 0 → (t.core k).pace.firstBeat = c.pace.beat ∧
           (t.core k).pace.cause = if e.credits.toNat < e.perFiring then 6 else 5))) ∧
     (Acts k s (.consume k ep) → r.bound = true → r.perFiring ≤ r.level.toNat →
       (r.governed = true → r.consumed.toNat < r.taken.toNat) →
       Answers (.consume k ep) s (fun t =>
         OneCore k s t ({ c with flow := { c.flow with recv := (t.core k).flow.recv } }.emit
           [.credit r.peer r.peerEp (c.orderBit (16 + ep.toNat)) r.perFiring 0]) ∧
         SetsKey {} c.flow.recv (t.core k).flow.recv ep.toNat
           { r with level := r.level - BitVec.ofNat 5 r.perFiring, consumed := r.consumed + 1 })))

/-- TOKEN sends its endpoint's next token, whose fields are those of Table 7.4 with SEQ the number of tokens sent before, and
spends a pairing credit; TAKE with both halves present writes VALUE into its counter, frees the skew entry and returns one
pairing credit to each sender (R204, R205, R207, R208). -/
def Obligations.TokenAndTakePair : Prop :=
  ∀ (k : Nat) (s : State) (ep ctr : BitVec 4),
    (let c := s.core k
     let e := c.sendEp ep.toNat
     let r := c.recvEp ep.toNat
     (∀ (src : Bool) (imm : BitVec 16), Acts k s (.token k ep src ctr imm) → e.bound = true → e.token = true → e.pair ≠ 0 →
       e.peerEp < 16 →
       Answers (.token k ep src ctr imm) s (fun t =>
         ∃ w : BitVec 128,
           OneCore k s t ({ c with flow := { c.flow with send := (t.core k).flow.send } }.emit
             [.token e.peer (c.orderBit ep.toNat) w]) ∧
           SetsKey {} c.flow.send (t.core k).flow.send ep.toNat { e with pair := e.pair - 1, fired := e.fired + 1 } ∧
           bits w 3 0 = 1 ∧ bits w 5 4 = c.flow.epoch.toNat ∧ bits w 9 6 = e.peerEp ∧
           bits w 25 10 = e.fired.toNat % 65536 ∧ bits w 31 26 = 0 ∧
           bits w 63 32 = (if src then c.ctr ctr.toNat else imm).toNat ∧ bits w 127 64 = 0)) ∧
     (∀ v : BitVec 32, Acts k s (.take k ep ctr) → r.bound = true → r.governed = true →
       (r.entry r.taken.toNat).token = some v → (r.entry r.taken.toNat).data = true → v.toNat ≤ 0xFFFF →
       Answers (.take k ep ctr) s (fun t =>
         OneCore k s t ({ c with
           flow := { c.flow with recv := (t.core k).flow.recv, counters := (t.core k).flow.counters } }.emit
           [.credit r.peer r.peerEp (c.orderBit (16 + ep.toNat)) 0 1,
            .credit r.tokenPeer r.tokenEp (c.orderBit (16 + ep.toNat)) 0 1]) ∧
         SetsKey 0 c.flow.counters (t.core k).flow.counters ctr.toNat (v.setWidth 16) ∧
         SetsKey {} c.flow.recv (t.core k).flow.recv ep.toNat
           { r with taken := r.taken + 1, skew := Map.erase r.skew (r.taken.toNat % 4) })))

/-- ARRIVE sends its message to the course's host or up the tree; AWAIT takes a held release at once; the host counts an
arrival once, releases every member in order and starts the next generation when the last one comes, and a release is held in
the flag of its course (R267). A wafer course: an arrival that does not complete its count is counted at the root; the last
one starts the next generation and releases every core of the span (R268). -/
def Obligations.CoursesMeet : Prop :=
  (∀ (k : Nat) (s : State) (wafer order : Bool) (course member : BitVec 6) (host : Nat),
    Acts k s (.arrive k wafer course member order host) →
    Answers (.arrive k wafer course member order host) s (fun t =>
      OneCore k s t ((s.core k).emit [if wafer then .wafer course.toNat else
        .course ((globalCore s.split (wingOf k) host).getD host) course.toNat member.toNat order]))) ∧
  (∀ (k : Nat) (s : State) (ext : Bool) (course : BitVec 6),
    (Acts k s (.await k false course ext) → ((s.core k).course course.toNat).held = true →
      Answers (.await k false course ext) s (fun t =>
        OneCore k s t { s.core k with router := { (s.core k).router with courses := (t.core k).router.courses } } ∧
        SetsKey {} (s.core k).router.courses (t.core k).router.courses course.toNat
          { (s.core k).course course.toNat with held := false })) ∧
    (Acts k s (.await k true course ext) → (s.core k).router.waferHeld.getLsbD course.toNat = true →
      Answers (.await k true course ext) s (fun t =>
        OneCore k s t { s.core k with router := { (s.core k).router with waferHeld := (t.core k).router.waferHeld } } ∧
        ∀ j, j < 64 → (t.core k).router.waferHeld.getLsbD j =
          ((s.core k).router.waferHeld.getLsbD j && j != course.toNat)))) ∧
  (∀ (k : Nat) (s : State) (course : BitVec 6), validCore k = true →
    Answers (.courseRelease k course) s (fun t => AtCore k s t (fun c => { c with router := { c.router with
      courses := Map.set c.router.courses course.toNat { c.course course.toNat with held := true } } }))) ∧
  (∀ (k : Nat) (s : State) (course member : BitVec 6) (sender : Nat) (order : Bool),
    validCore k = true → validCore sender = true →
    (let x := (s.core k).course course.toNat
     let y : Course := { x with arrived := x.arrived ||| (1#64 <<< member.toNat),
                                senders := Map.set x.senders member.toNat (sender, order) }
     member.toNat < x.participants.toNat → x.arrived.getLsbD member.toNat = false →
     Answers (.courseMessage k course member sender order) s (fun t => AtCore k s t (fun c =>
       if (List.range x.participants.toNat).all (fun i => y.arrived.getLsbD i) then
         { c with router := { c.router with
           courses := Map.set c.router.courses course.toNat { y with arrived := 0, senders := [], gen := !x.gen } } }.emit
           (y.senders.map (fun m : Nat × Nat × Bool => .release m.2.1 course.toNat m.2.2))
       else { c with router := { c.router with courses := Map.set c.router.courses course.toNat y } })))) ∧
  (∀ (w node : Nat) (s : State) (course : BitVec 6), w < 2 → node < 48 →
     (let l := s.lead w
      let r := Map.get {} (s.wing l).wafer course.toNat
      (r.arrived + 1 < r.participants →
        Answers (.courseTreeMessage w course true node) s (fun t => ∃ u, Delivered s u ∧
          t = u.onWings l (fun v => { v with wafer := Map.set v.wafer course.toNat { r with arrived := r.arrived + 1 } }))) ∧
      (r.arrived + 1 = r.participants →
        Answers (.courseTreeMessage w course true node) s (fun t =>
          (∀ v ∈ s.wings l, Map.get {} (t.wing v).wafer course.toNat = { r with arrived := 0, gen := !r.gen }) ∧
          ∀ k, wingOf k ∈ s.wings l → ∀ j, j < 64 →
            (t.core k).router.waferHeld.getLsbD j = ((s.core k).router.waferHeld.getLsbD j || j == course.toNat)))))

/-- Tally pairs: a local TPROD and an arriving tally message add to PROD while it stays within BUFFERS of CONS, TCONS adds to
CONS while it stays at most PROD, a remote TPROD sends its message, and TWAIT passes once COUNT items are there (R271, R272).
AWAIT without its release and TWAIT without its items wait from their own beat: that beat is late with CAUSE 7, or counts in
EXT_COUNT and not as late where the command marks an external wait (R62, R63, R65, R267, R271). -/
def Obligations.TalliesCountAndWait : Prop :=
  (∀ (k : Nat) (s : State) (n : BitVec 5) (m : Byte), validCore k = true →
     (let c := s.core k
      let x := c.tally n.toNat
      let put (y : Tally) (d : Core) : Core := { d with router := { d.router with tallies := Map.set d.router.tallies n.toNat y } }
      let up : Tally := { x with prod := x.prod + (m.setWidth 32 + 1) }
      let room : Prop := x.buffers ≠ 0 ∧ x.prod.toNat + m.toNat + 1 ≤ x.buffers.toNat + x.cons.toNat ∧
        x.prod.toNat + m.toNat + 1 ≤ 0xFFFFFFFF
      (room → Answers (.tallyMessage k n m) s (fun t => AtCore k s t (put up))) ∧
      (room → ∀ order target, Acts k s (.tprod k n m false order target) →
        Answers (.tprod k n m false order target) s (fun t => OneCore k s t (put up c))) ∧
      (∀ order target, Acts k s (.tprod k n m true order target) → Answers (.tprod k n m true order target) s (fun t =>
        OneCore k s t (c.emit [.tally ((globalCore s.split (wingOf k) target).getD target) n.toNat (m.toNat + 1) order]))) ∧
      (Acts k s (.tcons k n m) → x.buffers ≠ 0 → x.cons.toNat + m.toNat + 1 ≤ x.prod.toNat →
        Answers (.tcons k n m) s (fun t => OneCore k s t (put { x with cons := x.cons + (m.setWidth 32 + 1) } c))) ∧
      (∀ ext, Acts k s (.twait k n m ext) → m.toNat + 1 + x.cons.toNat ≤ x.prod.toNat →
        Answers (.twait k n m ext) s (fun t => OneCore k s t c)))) ∧
  (∀ (k : Nat) (s : State) (course : BitVec 6) (n : BitVec 5) (m : Byte) (wafer ext : Bool),
     (let c := s.core k
      let waits (t : State) (what : WaitFor) : Prop :=
        OneCore k s t { c with pace := (t.core k).pace } ∧
        (t.core k).pace.wait = some { what := what, ext := ext, late := if ext then 0 else 1 } ∧
        (t.core k).pace.beat = c.pace.beat ∧
        (t.core k).pace.lateCount = (if ext then c.pace.lateCount else (satAdd c.pace.lateCount c.pace.lateSat 1).1) ∧
        (t.core k).pace.extCount = (if ext then (satAdd c.pace.extCount c.pace.extSat 1).1 else c.pace.extCount) ∧
        (ext = false → c.pace.lateCount = 0 → c.pace.cause = 0 → (t.core k).pace.cause = 7 ∧ (t.core k).pace.firstBeat = c.pace.beat)
      (Acts k s (.await k wafer course ext) → c.isHeld wafer course.toNat = false → Answers (.await k wafer course ext) s (fun t => waits t (.await wafer course.toNat))) ∧
      (Acts k s (.twait k n m ext) → (c.tally n.toNat).prod.toNat < m.toNat + 1 + (c.tally n.toNat).cons.toNat →
        Answers (.twait k n m ext) s (fun t => waits t (.twait n.toNat (m.toNat + 1))))))

/-! ### DMA engine (R221 to R247) -/

/-- A DSTART of a free slot whose descriptor lies in a held burst starts its stream in its beat: the slot is busy with that
descriptor, nothing of it issued, and the burst becomes the more recently used; otherwise the slot is busy at once and a burst
fetch of four turns begins. DTILE acts on the oldest tile of its slot that none has acted on, one of an earlier stream first,
and records its beat as the release of a tile of the present stream (R224, R225, R230). DTILE at an EXT_IN slot of the
companion gateway also advances CONS of the slot's tally pair, and with the last tile the pair has the program's BUFFERS again;
before its tile has arrived it ends the step with SYNC:0x011 (R272, R273). -/
def Obligations.StreamsStartAndTile : Prop :=
  (∀ (k : Nat) (s : State) (slot : BitVec 3) (n : BitVec 9), Acts k s (.dstart k slot n) → (s.core k).slotBusy slot.toNat = false →
     (let c := s.core k
      let x := c.slot slot.toNat
      let busy (t : State) : Prop := ∀ j, j < 8 → (t.core k).slotBusy j = (c.slotBusy j || j == slot.toNat)
      (∀ d p dma, c.dma.held n.toNat = some (d, p, dma) → dOptical d = false →
        Answers (.dstart k slot n) s (fun t =>
          OneCore k s t { c with
            dma := { c.dma with slots := (t.core k).dma.slots, busy := (t.core k).dma.busy, bursts := dma.bursts },
            flow := { c.flow with send := (t.core k).flow.send }, router := { c.router with tallies := (t.core k).router.tallies } } ∧
          SetsKey {} c.dma.slots (t.core k).dma.slots slot.toNat
            { desc := d, pairDesc := p, index := n.toNat, start := c.time, owed := x.unacted } ∧ busy t ∧
          (dKind d ≠ 2 → (t.core k).flow.send = c.flow.send) ∧
          (dKind d = 2 → SetsKey {} c.flow.send (t.core k).flow.send (dEndpoint d)
            { c.sendEp (dEndpoint d) with stream := some slot.toNat, sentBytes := 0 }) ∧
          (dKind d ≠ 4 → (t.core k).router.tallies = c.router.tallies) ∧
          (dKind d = 4 → ((t.core k).tally slot.toNat).buffers = BitVec.ofNat 9 (dRing d)))) ∧
      (c.dma.held n.toNat = none →
        Answers (.dstart k slot n) s (fun t =>
          OneCore k s t { c with dma := { c.dma with
            slots := (t.core k).dma.slots, busy := (t.core k).dma.busy,
            fetch := c.dma.fetch ++ [{ burst := n.toNat / 8, turns := 4, slot := slot.toNat, index := n.toNat }] } } ∧
          SetsKey {} c.dma.slots (t.core k).dma.slots slot.toNat
            { index := n.toNat, start := c.time, fetching := true, owed := x.unacted } ∧ busy t)))) ∧
  (∀ (k : Nat) (s : State) (slot : BitVec 3), Acts k s (.dtile k slot) →
     (let c := s.core k
      let x := c.slot slot.toNat
      let y := c.tally slot.toNat
      let d := (x.owed.map (·.1)).headD x.desc
      let z : DmaSlot := if x.owed = [] then { x with released := x.released ++ [c.time] } else { x with owed := x.owed.drop 1 }
      (x.owed = [] → x.fetching = true ∨ (x.desc ≠ 0 ∧ x.released.length < dTiles x.desc)) →
      (dKind d ≠ 4 →
        Answers (.dtile k slot) s (fun t =>
          OneCore k s t { c with dma := { c.dma with slots := (t.core k).dma.slots } } ∧
          SetsKey {} c.dma.slots (t.core k).dma.slots slot.toNat { z with values := ((t.core k).slot slot.toNat).values } ∧
          (dValuesOnly x.desc = false → ((t.core k).slot slot.toNat).values = x.values))) ∧
      (dKind d = 4 → dOptical d = false → y.buffers ≠ 0 →
        (y.cons.toNat < y.prod.toNat →
          Answers (.dtile k slot) s (fun t =>
            OneCore k s t { c with dma := { c.dma with slots := (t.core k).dma.slots },
                                   router := { c.router with tallies := (t.core k).router.tallies } } ∧
            SetsKey {} c.dma.slots (t.core k).dma.slots slot.toNat z ∧
            SetsKey {} c.router.tallies (t.core k).router.tallies slot.toNat
              (if x.owed = [] ∧ x.released.length + 1 = dTiles x.desc then ({ y with cons := y.cons + 1 } : Tally).back
               else { y with cons := y.cons + 1 }))) ∧
        (y.prod.toNat ≤ y.cons.toNat → s.underTest k = false →
          Answers (.dtile k slot) s (fun t =>
            StepEnds (wingOf k) s t 0x5011#16 1 (localCore s.split (wingOf k) k) ∧ (t.core k).flow.errCode = 0x011#12)))))

/-- A block of a stream issues at its beat once its tile's gate is open: a READ hands the request for its block to the router
and counts it; so does a pre-scan, whose two descriptors issue side by side; an EXT_IN at the companion gateway asks for the
block's eight lines; the rows of a WRITE or EXT_OUT block become due for the engine's turns; the cursor moves past the block
(R230, R233, R234, R247). A DMA turn that nothing before it takes reads the next row of an outgoing block; with the fourth the
block of a dense WRITE goes to the router whole, with its rows as they were when their turns read them, the descriptor's TAG
and the block's CRC (R174, R221, R231). A pre-scan whose blocks have all come hands the lines of its maxima to the staging
buffer at CORE_ADDR and frees its slot (R221, R224, R233). -/
def Obligations.BlocksIssueAndPrescansFree : Prop :=
  (∀ (k : Nat) (s : State) (slot : BitVec 3), validCore k = true → s.works k = true → (s.core k).slotBusy slot.toNat = true →
     (let c := s.core k
      let x := c.slot slot.toNat
      let issued (y : DmaSlot) (t : State) : Prop := SetsKey {} c.dma.slots (t.core k).dma.slots slot.toNat y
      let counted (t : State) : Core := { c with dma := { c.dma with
        slots := (t.core k).dma.slots, blocksRd := (satAdd c.dma.blocksRd c.dma.rdSat 1).1, rdSat := (satAdd c.dma.blocksRd c.dma.rdSat 1).2 } }
      let asks (half : Bool) : Prop :=
        Answers (.blockIssue k slot) s (fun t =>
          OneCore k s t ((counted t).emit
              [.readReq slot.toNat
                (globalAddr s.split (wingOf k) (dBlockAddr (x.cur half) (x.next half).run (x.next half).blk) / 512)
                ((x.next half).run + (if half then secondRun else 0)) (x.next half).blk (bit (x.cur half) 15)
                (c.orderBit (32 + slot.toNat)) c.now]) ∧ issued (x.advance half) t)
      (dKind x.desc = 0 ∨ dKind x.desc = 3 → x.mayIssue false c.time = true → asks false) ∧
      (dKind x.desc = 3 → x.mayIssue false c.time = false → x.mayIssue true c.time = true → asks true) ∧
      (dKind x.desc = 4 → dOptical x.desc = false → x.mayIssue false c.time = true →
        Answers (.blockIssue k slot) s (fun t => ∃ u, OneCore k s u (counted u) ∧ issued (x.advance false) u ∧
          t = { u with link := { u.link with toComp := u.link.toComp ++ (List.range 8).map (fun i =>
            .rdNc (dBlockAddr x.desc x.issue.run x.issue.blk + 64 * i) 1 (.stream k slot.toNat x.issued)) } })) ∧
      (dKind x.desc = 1 ∨ dKind x.desc = 5 → x.ready c.time = true →
        Answers (.blockIssue k slot) s (fun t =>
          OneCore k s t { c with dma := { c.dma with slots := (t.core k).dma.slots } } ∧
          issued (if dValuesOnly x.desc then { x with issued := x.issued + 1 } else x.advance false) t)))) ∧
  (∀ (k n : Nat) (s : State), (s.core k).now % 4 = 2 → s.stepAt k = true → (s.core k).flow.sink = false →
     s.railOn (clusterOf k) = true → s.sendDue k = none → (s.core k).waiting = false → (s.core k).dma.fetch = [] →
     (s.core k).dma.dueRow = none → n < 8 → (∀ m, m < n → ((s.core k).slot m).rowsDue = false) →
     (let c := s.core k
      let x := c.slot n
      let d := x.cur false
      let past := match x.forming with
        | some p => p.data.take (128 * x.row)
        | none => []
      let data := past ++ (padTo 512 (x.denseOut d c).data).drop (128 * x.row)
      dKind x.desc = 1 → dSparse x.desc = 0 → x.rowsDue = true → c.rowFault d x.rd x.row = none →
      (x.row < 3 → OneCore k s (s.dmaTurn k) (c.setSlot n { x with
        row := x.row + 1, forming := some { x.denseOut d c with data := data } })) ∧
      (3 ≤ x.row → OneCore k s (s.dmaTurn k) (({ c with dma := { c.dma with
          slots := ((s.dmaTurn k).core k).dma.slots, blocksWr := (satAdd c.dma.blocksWr c.dma.wrSat 1).1, wrSat := (satAdd c.dma.blocksWr c.dma.wrSat 1).2 } } : Core).emit
          [.write n (globalAddr s.split (wingOf k) (dBlockAddr d x.rd.run x.rd.blk) / 512) (c.orderBit (32 + n))
            (BitVec.ofNat 4096 (ofBytes data)) (dTag d) (blockCrc data (dTag d))]) ∧
        SetsKey {} c.dma.slots ((s.dmaTurn k).core k).dma.slots n
          { x with row := 0, forming := none, read := x.read + 1, rd := x.rd.next d }))) ∧
  (∀ (k : Nat) (s : State) (slot : BitVec 3), validCore k = true →
     (let c := s.core k
      let x := c.slot slot.toNat
      c.slotBusy slot.toNat = true → dKind x.desc = 3 → c.flow.sink = false → x.more false = false → x.more true = false →
      x.done = x.issued + x.issuedB →
      Answers (.prescanDone k slot) s (fun t =>
        OneCore k s t { c with dma := (t.core k).dma } ∧
        x.scanLines.length = 64 * (dPsTr x.desc * dPsTc x.desc) ∧
        (∀ a, (t.core k).byteAt a = if dCoreAddr x.desc ≤ a ∧ a < dCoreAddr x.desc + x.scanLines.length
          then x.scanLines.getD (a - dCoreAddr x.desc) 0 else c.byteAt a) ∧
        (∀ j, j < 8 → (t.core k).slotBusy j = (c.slotBusy j && j != slot.toNat)) ∧
        ∀ j, j ≠ slot.toNat → (t.core k).slot j = c.slot j)))

/-! ### Arrivals at a core (R193 to R217) -/

/-- Blocks, credits and tokens arrive where they are bound: a block takes its slot of the receive buffer, in order of arrival
around its DEPTH slots, and the last of a governed firing marks the data half of its skew entry; in sink mode it is discarded
and its credit returned; a credit packet's data and pairing credits come back to their sender; a token of the current epoch, in
the pairing window and not held before, is kept in its skew entry (R193, R194, R206, R207, R211). A token breaks pairing by the
first rule that applies: a wrong version or a nonzero reserved field gives SYNC:0x006, an endpoint that is not bound
SYNC:0x00B, one that is not governed SYNC:0x006, a SEQ beyond the pairing window SYNC:0x005, and one that holds a token already
SYNC:0x004; each ends the step. A token of another epoch is dropped and counted, and ends no step (R196, R206, R216, R217).
The endpoint that an arrival meets is that of the present layer, or the one that a wait has kept from the layer before (R65). -/
def Obligations.ArrivalsReachEndpoints : Prop :=
  (∀ (k : Nat) (s : State) (ep : BitVec 5) (data : List Byte), validCore k = true →
    (let c := s.core k
     let n := ep.toNat % 16
     let e := c.recvFor n
     let firing := e.arrived / e.perFiring
     let whole : Bool := e.governed && (e.arrived + 1) % e.perFiring == 0
     (c.flow.sink = false → e.bound = true → e.level.toNat < e.depth →
       (whole = true → e.taken.toNat ≤ firing ∧ firing < e.taken.toNat + 4) →
       Answers (.streamBlock k ep data) s (fun t => AtCore k s t (fun d =>
         { d.setRecvFor n { e with
             level := e.level + 1, arrived := e.arrived + 1, skew := if whole then Map.set e.skew (firing % 4) { e.entry firing with data := true } else e.skew } with
           dma := d.dma.stage d.now (8 + n) (e.bufAddr + e.arrived % e.depth * (32 * e.flits)) (padTo (32 * e.flits) data) }))) ∧
     (c.flow.sink = true → (c.recvEp n).bound = true →
       Answers (.streamBlock k ep data) s (fun t => AtCore k s t (fun d =>
         (d.setRecv n { c.recvEp n with arrived := (c.recvEp n).arrived + 1 }).emit
           [.credit (c.recvEp n).peer (c.recvEp n).peerEp (c.orderBit (16 + n)) 1
             (if (c.recvEp n).governed && ((c.recvEp n).arrived + 1) % (c.recvEp n).perFiring == 0 then 1 else 0)]))))) ∧
  (∀ (k : Nat) (s : State) (ep : BitVec 5) (data pair : Nat), validCore k = true →
    (let e := (s.core k).sendFor (ep.toNat % 16)
     e.bound = true → e.credits.toNat + data ≤ e.depth → e.pair.toNat + pair ≤ 4 →
     Answers (.creditPacket k ep data pair) s (fun t => AtCore k s t (fun d => d.setSendFor (ep.toNat % 16)
       { e with credits := e.credits + BitVec.ofNat 5 data, pair := e.pair + BitVec.ofNat 3 pair })))) ∧
  (∀ (k : Nat) (s : State) (w : BitVec 128), validCore k = true →
    (let c := s.core k
     let e := c.recvFor (bits w 9 6)
     let seq := bits w 25 10
     c.flow.sink = false → bits w 5 4 = c.flow.epoch.toNat → bits w 3 0 = 1 → bits w 31 26 = 0 → bits w 127 64 = 0 →
     e.bound = true → e.governed = true → e.taken.toNat ≤ seq → seq < e.taken.toNat + 4 → (e.entry seq).token = none →
     Answers (.controlToken k w) s (fun t => AtCore k s t (fun d => d.setRecvFor (bits w 9 6)
       { e with skew := Map.set e.skew (seq % 4) { e.entry seq with token := some (BitVec.ofNat 32 (bits w 63 32)) } })))) ∧
  (∀ (k : Nat) (s : State) (w : BitVec 128), validCore k = true → s.underTest k = false →
     (let c := s.core k
      let e := c.recvFor (bits w 9 6)
      let seq := bits w 25 10
      let bad := bits w 3 0 ≠ 1 ∨ bits w 31 26 ≠ 0 ∨ bits w 127 64 ≠ 0
      let known := ¬bad ∧ e.bound = true ∧ e.governed = true
      let ends (n : Nat) : Prop := Answers (.controlToken k w) s (fun t =>
        StepEnds (wingOf k) s t (BitVec.ofNat 16 (0x5000 + n)) 1 (localCore s.split (wingOf k) k) ∧
        (t.core k).flow.errCode = BitVec.ofNat 12 n ∧ (t.core k).flow.errEp.toNat = bits w 9 6 ∧
        (t.core k).flow.errSeq.toNat = seq)
      (bits w 5 4 = c.flow.epoch.toNat → c.flow.sink = false →
        (bad → ends 6) ∧ (¬bad → e.bound = false → ends 0xB) ∧ (¬bad → e.bound = true → e.governed = false → ends 6) ∧
        (known → e.taken.toNat + 4 ≤ seq → ends 5) ∧
        (known → e.taken.toNat ≤ seq → seq < e.taken.toNat + 4 → (e.entry seq).token.isSome = true → ends 4)) ∧
      (bits w 5 4 ≠ c.flow.epoch.toNat → Answers (.controlToken k w) s (fun t =>
        t.flights = s.flights ∧ (t.core k).flow.recv = c.flow.recv ∧
        (t.core k).flow.staleCount = (satAdd c.flow.staleCount c.flow.staleSat 1).1 ∧
        (t.core k).flow.staleEpoch.toNat = bits w 5 4 ∧ (t.core k).flow.errCode = 7))))

/-! ### Mesh, broadcast buses and the control lane (R248 to R264) -/

/-- A packet that arrives in sequence and passes its checks is acknowledged and waits at its input; one that fails its CRC is
answered with a re-send request, and later ones of its kind are discarded until it comes again (R250, R254, R256). The flits
that a router sends give the packet back at the next one (R249). The link layer answers: an acknowledgement frees the packets
of the replay buffer up to its LSEQ, and a re-send request or its timeout sends them again from its LSEQ on, counted in
RESENDS; after the eighth failed attempt the link fails and the step ends with LINK:0x001 (R256, R257). An output serves the
scheduled packet that has reached the beat of its budget, which takes the next LSEQ of its kind, a place in the replay buffer,
and the output for its flits (R253). In a beat without one an output serves the unscheduled packet whose input has its turn; an
unscheduled packet comes in by the local port, in level mode at most one flit of a flow in 16 beats (R248, R258, R275). -/
def Obligations.MeshMovesPackets : Prop :=
  (∀ (k : Nat) (s : State) (link : BitVec 2) (hop : HopIn) (side : List (BitVec 96)) (payload : List (BitVec 256)),
     validCore k = true → posOk side = true → side.length = payload.length → (∀ b ∈ side, sideOk b = true ∧ bit b 11 = false) →
     (let c := s.core k
      let p := pktOf hop side payload
      let sched := pktScheduled p
      let x := c.mlink link.toNat
      let y := x.kind sched
      let lseq : BitVec 6 := BitVec.ofNat 6 (bits (side.headD 0) 10 5)
      let becomes (z : MeshLink) : Prop := Answers (.meshPacketReceive k link hop side payload) s (fun t =>
        OneCore k s t { c with router := { c.router with links := (t.core k).router.links } } ∧
        SetsKey {} c.router.links (t.core k).router.links link.toNat z)
      lseq = y.expect →
      (pktCrc p = p.crc → p.version = 1 → p.rsv = 0 → routeFails s.split k (pktRouted p (s.levelAt k)) = false → y.takes p = true →
        becomes { x.setKind sched { y with expect := y.expect + 1, discard := false, inBuf := y.inBuf ++ [p] } with
          answers := x.answers ++ [ackWord false sched lseq] }) ∧
      (pktCrc p ≠ p.crc → becomes { x.setKind sched { y with discard := true } with
        answers := x.answers ++ [ackWord true sched lseq] }))) ∧
  (∀ (p : Pkt) (lseq : BitVec 6) (ack : BitVec 9), 1 ≤ p.payload.length → p.payload.length ≤ 16 →
     (let side := pktSides p lseq ack
      pktOf { src := p.src, due := p.due } side p.payload = p ∧ posOk side = true ∧ (∀ b ∈ side, sideOk b = true) ∧
      (∀ b ∈ side, bits b 10 5 = lseq.toNat) ∧ bits (side.headD 0) 19 11 = ack.toNat)) ∧
  (∀ (k : Nat) (s : State) (link : BitVec 2) (q : BitVec 6) (pre post : List (BitVec 6 × Pkt × Nat)) (p : Pkt) (n : Nat),
     validCore k = true →
     (let c := s.core k
      let x := c.mlink link.toNat
      x.unsched.replay = pre ++ (q, p, n) :: post → (∀ e ∈ pre, e.1 ≠ q) →
      Answers (.meshAck k link false false q) s (fun t => ((t.core k).mlink link.toNat).unsched.replay = post) ∧
      (n < 7 → Answers (.meshAck k link false true q) s (fun t =>
        OneCore k s t { c with router := { c.router with links := (t.core k).router.links } } ∧
        ((t.core k).mlink link.toNat).unsched.replay = pre ++ ((q, p, n) :: post).map (fun e => (e.1, e.2.1, e.2.2 + 1)) ∧
        ((t.core k).mlink link.toNat).resends = (satAdd x.resends x.resendSat (post.length + 1)).1 ∧
        ∀ j, j ≠ link.toNat → (t.core k).mlink j = c.mlink j)) ∧
      (7 ≤ n → s.underTest k = false → Answers (.meshAck k link false true q) s (fun t =>
        StepEnds (wingOf k) s t 0x1001#16 1 (localCore s.split (wingOf k) k) ∧ ((t.core k).mlink link.toNat).failed = true)) ∧
      (n < 7 → pre = [] → Answers (.meshResendTimeout k link false) s (fun t =>
        OneCore k s t { c with router := { c.router with links := (t.core k).router.links } } ∧
        ((t.core k).mlink link.toNat).unsched.replay = ((q, p, n) :: post).map (fun e => (e.1, e.2.1, e.2.2 + 1)))))) ∧
  (∀ (k i o : Nat) (c : Core) (p : Pkt) (ps : List Pkt), i < 4 → o < 4 → i ≠ o → (c.mlink i).sched.inBuf = p :: ps →
     pktScheduled p = true → pktOut k p = o → p.due ≤ c.now →
     (∀ j, j < i → ∀ q, c.schedHead k j = some q → pktOut k q = o → c.now < q.due) →
     (let y := c.mlink o
      let z := Core.serveSched k c.now c o
      y.busy ≤ c.now → y.sched.room p = true → y.failed = false →
      z = { c with router := { c.router with links := z.router.links } } ∧ (∀ j, j ≠ i → j ≠ o → z.mlink j = c.mlink j) ∧
      z.mlink i = { c.mlink i with sched := { (c.mlink i).sched with inBuf := ps } } ∧
      z.mlink o = { y with
        sched := { y.sched with replay := y.sched.replay ++ [(y.sched.next, p, 0)], next := y.sched.next + 1 },
        sent := pktSides p y.sched.next (y.answers.headD 0), answers := y.answers.drop 1, busy := c.now + p.payload.length })) ∧
  (∀ (k : Nat) (s : State) (p : Pkt), validCore k = true → pktScheduled p = false →
     (s.levelAt k = true → Map.get 0 (s.core k).router.flows (pktDest p) ≤ (s.core k).now) →
     (let c := s.core k
      Answers (.unscheduledPacket k (.enter p)) s (fun t =>
        OneCore k s t { c with router := { c.router with
          localIn := c.router.localIn ++ [{ p with src := k, due := 0 }], flows := (t.core k).router.flows } } ∧
        SetsKey 0 c.router.flows (t.core k).router.flows (pktDest p) (c.now + 16 * p.payload.length)))) ∧
  (∀ (k : Nat) (s : State) (o : BitVec 3) (i : Nat) (p : Pkt) (ps : List Pkt), validCore k = true → o.toNat < 4 → i < 4 →
     i ≠ o.toNat →
     (let c := s.core k
      let y := c.mlink o.toNat
      c.nextUnsched (s.levelAt k) k o.toNat = some (i, p) → (c.mlink i).unsched.inBuf = p :: ps → pktScheduled p = false →
      c.outIdle (s.levelAt k) k o.toNat = true → y.failed = false → y.unsched.room p = true →
      Answers (.unscheduledPacket k (.serve o)) s (fun t =>
        OneCore k s t { c with router := { c.router with
          links := (t.core k).router.links, turn := (t.core k).router.turn, lastFlow := (t.core k).router.lastFlow } } ∧
        ((t.core k).mlink i).unsched.inBuf = ps ∧ SetsKey 4 c.router.turn (t.core k).router.turn o.toNat i ∧
        ((t.core k).mlink o.toNat).unsched.replay = y.unsched.replay ++ [(y.unsched.next, p, 0)])))

/-- A bus writer whose beat has come begins to place the block of its ring slot on the bus, and in each beat places one word of 16
bytes, with the last one the block; a listener stages a good block at its ring slot, and both count it. A block that fails its
CRC at a listener ends the step with LINK:0x002 (R262, R263). Control words: a start beat at a slot boundary that lies far
enough ahead sets where the first layer of a prepared step starts, a set-up word writes a core register, and a word that fails
its CRC ends the step with LINK:0x002 (R53, R263, R264). -/
def Obligations.BusesAndControlLane : Prop :=
  (∀ (k : Nat) (s : State) (n : BitVec 2), validCore k = true →
     (let c := s.core k
      let b := c.bus n.toNat
      c.flow.sink = false →
      (bit b.raw 5 = true → s.railOn (clusterOf k) = true → c.waiting = false → b.count < bits b.raw 31 16 + 1 → b.sending = false →
        c.flow.layerStart + bits b.raw 95 64 + b.count * bits b.raw 55 40 ≤ c.time →
        Answers (.busBlockSend k n) s (fun t =>
          OneCore k s t { c with router := { c.router with buses := (t.core k).router.buses } } ∧
          SetsKey { raw := 0 } c.router.buses (t.core k).router.buses n.toNat { b with sending := true, part := [] })) ∧
      (∀ w, b.sending = true → c.busWord (busSlot b.raw b.count + b.part.length) = .ok w →
        c.placeWord n.toNat b = (c.setBus n.toNat (if (b.part ++ w).length < busBytes b.raw then { b with part := b.part ++ w }
          else { b with sending := false, part := [], placed := b.part ++ w, count := b.count + 1 }), none)) ∧
      (∀ data crc, b.raw ≠ 0 → bit b.raw 5 = false →
        (crc32c (padTo (busBytes b.raw) data) = crc →
          Answers (.busBlock k n data crc) s (fun t =>
            OneCore k s t { c with
              dma := c.dma.stage c.now (24 + n.toNat) (busSlot b.raw b.count) (padTo (busBytes b.raw) data),
              router := { c.router with buses := (t.core k).router.buses } } ∧
            SetsKey { raw := 0 } c.router.buses (t.core k).router.buses n.toNat { b with count := b.count + 1 })) ∧
        (crc32c (padTo (busBytes b.raw) data) ≠ crc → s.underTest k = false →
          Answers (.busBlock k n data crc) s (fun t =>
            StepEnds (wingOf k) s t 0x1002#16 1 (localCore s.split (wingOf k) k) ∧ (t.core k).router.errCode = 2 ∧
            (t.core k).router.buses = c.router.buses))))) ∧
  (∀ (k : Nat) (s : State), validCore k = true →
     (∀ (b : BitVec 64) (r : Run) (x : StepSched) (p : Prog), s.sched (s.lead (wingOf k)) = some (r, x) →
       s.prog (s.lead (wingOf k)) r.handle = some p → r.began = false → b.toNat % 4 = 0 →
       s.maxBeat (s.lead (wingOf k)) + startLead s.split p.image x ≤ b.toNat →
       exec (.controlWord k (.startBeat b) true) s =
         .next (s.onWing (s.lead (wingOf k)) (fun x => { x with run := some { r with start := b.toNat } }))) ∧
     (∀ v : Word, Answers (.controlWord k (.setup 0x218 v) true) s (fun t =>
       OneCore k s t { s.core k with arith := { (s.core k).arith with status := (s.core k).arith.status &&& ~~~(v.setWidth 9) } })) ∧
     (∀ w : CtrlWord, s.underTest k = false → Answers (.controlWord k w false) s (fun t =>
       StepEnds (wingOf k) s t 0x1002#16 1 (localCore s.split (wingOf k) k) ∧ (t.core k).flow.sink = true)))

/-! ### Memory channels (R173 to R188) -/

/-- A request that a core's router holds is accepted by the channel of its block in a slot that has room for it: it leaves the
router and the memory port, the cache answers it or the memory does, HITS or MISSES counts it, the slot's read is taken, and it
waits for its delivery with the block as it stands; a block with ALLOC that missed takes a line, and a bad line of the cache
ends the step with MEM:0x00A (R176, R178, R181, R183). The oldest accepted read leaves its channel for the stream slot that
asked for it; a block that missed the cache and fails its CRC delivers nothing: the step of the wing ends with MEM:0x009, which
names the channel, and CLUS_MEM_ERR records the block's address (R174, R176, R188). -/
def Obligations.ReadsReachTheirSlots : Prop :=
  (∀ (ch k : Nat) (s : State) (slot : BitVec 3) (n run blk : Nat) (alloc : Bool), ch < 1536 → validCore k = true →
     blockChan n = ch → (s.core k).findReq slot.toNat n = some (run, blk) → s.mayAccept ch k slot.toNat n = true →
     (let x := s.chan ch
      let at_ := s.chanSlot ch
      let gone : State := (s.setCore k ((s.core k).dropOut (isReq slot.toNat n))).dropPort (attachCore ch) 1 slot.toNat
      let order := (s.core k).router.out.any (fun p => isReq slot.toNat n p && p.ordered)
      let answers := x.answers ++ [⟨k, slot.toNat, !order, (s.core (attachCore ch)).now + 160, some (run, blk, n)⟩]
      (∀ b, x.lookup n = some b → b.good = true →
        Answers (.readAccept ch k slot n alloc) s (fun t =>
          ({ t with chans := s.chans } : State) = gone ∧ (∀ j, j ≠ ch → t.chan j = s.chan j) ∧
          (let h := satAdd x.hits x.hitSat 1
           let reads := x.reads ++ [⟨k, slot.toNat, run, blk, n, b, false, at_⟩]
           let cache := (n, b) :: x.cache.filter (fun l => l.1 != n)
           t.chan ch = { x with
             cache := cache, hits := h.1, hitSat := h.2, reads := reads, readSlot := some at_, answers := answers }))) ∧
      (∀ b, x.lookup n = some b → b.good = false →
        Answers (.readAccept ch k slot n alloc) s (fun t =>
          StepEnds (wingOfChan ch) s t 0x200A#16 4 ch ∧ (t.chan ch).reads = x.reads)) ∧
      (x.lookup n = none →
        Answers (.readAccept ch k slot n alloc) s (fun t =>
          ({ t with chans := s.chans } : State) = gone ∧ (∀ j, j ≠ ch → t.chan j = s.chan j) ∧
          (let h := satAdd x.misses x.missSat 1
           let reads := x.reads ++ [⟨k, slot.toNat, run, blk, n, s.block n, true, at_⟩]
           t.chan ch = { x with
             cache := (t.chan ch).cache, misses := h.1, missSat := h.2, reads := reads, readSlot := some at_,
             dram := (at_ :: x.dram).take 3, answers := answers }) ∧
          (alloc = false → (t.chan ch).cache = x.cache) ∧
          (alloc = true → (t.chan ch).lookup n = some (s.block n)))))) ∧
  (∀ (ch : Nat) (s : State) (r : ChanRead) (rest : List ChanRead), ch < 1536 → (s.chan ch).reads = r :: rest →
     (¬(r.miss = true ∧ r.content.good = false) → Answers (.readDelivery ch) s (fun t =>
       (t.chan ch).reads = rest ∧ t.bonded = s.bonded ∧
       ∀ x u, x = (s.core r.core).slot r.slot →
         u = ((s.onChan ch (fun c => { c with reads := rest })).dropLocal r.core 2 r.slot).dropPort r.core 2 r.slot →
         (s.core r.core).flow.sink = false → (s.core r.core).slotBusy r.slot = true → dKind x.desc = 0 → dSparse x.desc = 0 →
         OneCore r.core u t (((u.core r.core).takeRead r.slot (s.core r.core).now x { run := r.run, blk := r.blk }
           r.content.data).settleSlot r.slot))) ∧
     (r.miss = true → r.content.good = false → Answers (.readDelivery ch) s (fun t =>
       (t.chan ch).reads = rest ∧ StepEnds (wingOfChan ch) s t 0x2009#16 4 ch ∧
       (t.cluster (512 * r.block / 2 ^ 34)).memErrCode = 9 ∧
       (t.cluster (512 * r.block / 2 ^ 34)).memErrAddr = BitVec.ofNat 48 (512 * r.block))))

/-- A block whose CRC passes is written with its side field: its 512 bytes read as its data afterwards, every other byte of
bonded memory stays, the matching line of the reuse cache goes, and the write waits for its acknowledgement, which the
writer's slot counts (R174, R176, R182, R224); the channel takes it in a slot that has room for it. A block that fails leaves
memory as it was and ends the step with MEM:0x00B; an attach router in sink mode discards it (R211). -/
def Obligations.WritesReachMemory : Prop :=
  (∀ (ch : Nat) (s : State) (n : Nat) (d : BitVec 4096) (g : BitVec 32), ch < 1536 → blockChan n = ch →
    s.mayWrite ch false = true → Memory.wf s.bonded = true →
    Answers (.writeAccept ch (.outside n d g) false) s (fun t =>
      (∀ a, (a < 512 * n ∨ 512 * n + 512 ≤ a) → Mem.get t.bonded a = Mem.get s.bonded a) ∧
      (∀ j, j < 512 → (Mem.get t.bonded (512 * n + j)).toNat = d.toNat / 256 ^ j % 256) ∧
      (t.block n).tag = g ∧ (t.block n).good = true ∧ (t.chan ch).lookup n = none ∧
      (t.chan ch).writes = (s.chan ch).writes ++ [none] ∧
      ({ t with bonded := s.bonded, side := s.side, chans := s.chans } : State) = s)) ∧
  (∀ (ch k : Nat) (s : State) (slot n : Nat) (d : BitVec 4096) (g crc : BitVec 32), ch < 1536 → validCore k = true →
    blockChan n = ch → (s.core k).findWrite slot = some (n, d, g, crc) → s.mayWrite ch true = true →
    ((s.core (attachCore ch)).flow.sink = true → Answers (.writeAccept ch (.engine k slot) false) s (fun t =>
      t.bonded = s.bonded ∧ t.side = s.side ∧ t.chans = s.chans)) ∧
    ((s.core (attachCore ch)).flow.sink = false → crc = blockCrc (toBytes 512 d.toNat) g → Memory.wf s.bonded = true →
      Answers (.writeAccept ch (.engine k slot) false) s (fun t =>
        (∀ a, (a < 512 * n ∨ 512 * n + 512 ≤ a) → Mem.get t.bonded a = Mem.get s.bonded a) ∧
        (∀ j, j < 512 → (Mem.get t.bonded (512 * n + j)).toNat = d.toNat / 256 ^ j % 256) ∧
        (t.block n).tag = g ∧ (t.block n).crc = crc ∧ (t.chan ch).lookup n = none ∧
        (t.chan ch).writes = (s.chan ch).writes ++ [some (k, slot)] ∧
        (t.chan ch).nWrites = (satAdd (s.chan ch).nWrites (s.chan ch).writeSat 1).1)) ∧
    ((s.core (attachCore ch)).flow.sink = false → crc ≠ blockCrc (toBytes 512 d.toNat) g →
      Answers (.writeAccept ch (.engine k slot) false) s (fun t =>
        t.bonded = s.bonded ∧ t.side = s.side ∧ StepEnds (wingOfChan ch) s t 0x200B#16 4 ch ∧ (t.core k).dma.errFault = 0x200B#16))) ∧
  (∀ (ch k : Nat) (s : State) (slot : Nat) (rest : List (Option (Nat × Nat))), ch < 1536 →
    (s.chan ch).writes = some (k, slot) :: rest → (s.core k).slotBusy slot = true →
    Answers (.writeAcknowledgement ch) s (fun t =>
      (t.chan ch).writes = rest ∧ (t.core k).slot slot = { (s.core k).slot slot with done := ((s.core k).slot slot).done + 1 } ∧
      ∀ j, j ≠ k → t.core j = s.core j))

/-- An unscheduled access: a read counts one DRAM operation, a whole-block write replaces the block, a line is merged into
its block, which keeps its tag and the other bytes, at the cost of two operations, each in a slot where the schedule leaves
room; a failed channel ends the step with
MEM:0x00C (R179, R180, R186). -/
def Obligations.UnscheduledAccesses : Prop :=
  (∀ (ch : Nat) (s : State) (n : Nat), ch < 1536 → blockChan n = ch → s.mayWrite ch false = true →
    ((s.block n).good = true → Answers (.extBlockAccess ch (.read n)) s (fun t =>
      ({ t with chans := s.chans } : State) = s ∧ (t.chan ch).extOps = (satAdd (s.chan ch).extOps (s.chan ch).extSat 1).1)) ∧
    (∀ (d : BitVec 4096) (g : BitVec 32), Memory.wf s.bonded = true →
      Answers (.extBlockAccess ch (.write n d g)) s (fun t =>
        ({ t with bonded := s.bonded, side := s.side, chans := s.chans } : State) = s ∧
        (∀ a, (a < 512 * n ∨ 512 * n + 512 ≤ a) → Mem.get t.bonded a = Mem.get s.bonded a) ∧
        (∀ j, j < 512 → (Mem.get t.bonded (512 * n + j)).toNat = d.toNat / 256 ^ j % 256) ∧ (t.block n).tag = g)) ∧
    (∀ (i : BitVec 3) (d : Desc), Memory.wf s.bonded = true → (s.block n).good = true →
      Answers (.extBlockAccess ch (.line n i d)) s (fun t =>
        ({ t with bonded := s.bonded, side := s.side, chans := s.chans } : State) = s ∧
        (∀ a, (a < 512 * n + 64 * i.toNat ∨ 512 * n + 64 * i.toNat + 64 ≤ a) → Mem.get t.bonded a = Mem.get s.bonded a) ∧
        (∀ j, j < 64 → (Mem.get t.bonded (512 * n + 64 * i.toNat + j)).toNat = d.toNat / 256 ^ j % 256) ∧
        (t.block n).tag = (s.block n).tag ∧ (t.block n).good = true))) ∧
  (∀ (ch : Nat) (s : State), ch < 1536 → Answers (.channelFail ch) s (fun t =>
    StepEnds (wingOfChan ch) s t 0x200C#16 4 ch ∧ (t.cluster (ch * 2 ^ 29 / 2 ^ 34)).memErrCode = 0xC))

/-! ### Drains (R209 to R215, R276) -/

/-- A drain that has been asked for starts: the wing drains with its cause, and after a fault or an abort its snapshot is
marked valid with the code and the step, and each plinth controller that takes part copies its wafer courses. A notice then
puts a core into sink mode: its waits end, its receive buffers and skew entries are empty, nothing is left to inject, to stage or
to fetch, every packet that its router has accepted goes on, and its endpoints' synchronisation state is kept (R210, R211,
R276). A drain ends at the first sample that finds every core empty: every data send endpoint holds DEPTH credits again and the
drain's length is recorded. A drain whose bound has passed without that times out with SYNC:0x008: every queue is cleared and a
re-form is asked for (R210, R212, R215). -/
def Obligations.DrainsBeginAndEnd : Prop :=
  (∀ (w : Nat) (s : State) (d : DrainRun), w < 2 → (s.wing (s.lead w)).drain = some d → d.active = false →
    Answers (.drainStart w) s (fun t =>
      ({ t with west := s.west, east := s.east } : State) = s ∧
      ∀ v, v < 2 → t.wing v =
        (let x := s.wing v
         let run : Option DrainRun := some { d with active := true, startBeat := s.maxBeat (s.lead w) }
         let cause : BitVec 3 := d.cause.setWidth 3
         let y : WingState := { x with drain := run, draining := true, drainCause := cause, allEmpty := false }
         let z : WingState := if v ≠ s.lead w then x else if d.cause = 3 then y
           else { y with snapValid := true, snapFault := d.code, snapStep := d.step }
         if d.cause ≠ 3 ∧ v ∈ s.wings (s.lead w) then { z with waferSnap := x.wafer } else z))) ∧
  (∀ (k : Nat) (s : State), validCore k = true → (s.wing (s.lead (wingOf k))).draining = true → (s.core k).flow.sink = false →
    ((s.core k).dma.slots.map (·.1)).Nodup →
    Answers (.drainNotice k) s (fun t =>
      (let c := s.core k
       let flow : Flow := { c.flow with send := (t.core k).flow.send, recv := (t.core k).flow.recv, sink := true }
       let router : Router := { c.router with out := (t.core k).router.out, toSend := (t.core k).router.toSend }
       let pace : Pace := { c.pace with wait := none }
       let x : Core := { c with flow := flow, router := router, pace := pace, dma := (t.core k).dma }
       OneCore k s t (if (s.wing (s.lead (wingOf k))).drainCause = 3 then x
         else { x with snap := some c.takeSnap, snapLost := false })) ∧
      (∀ e ∈ (t.core k).flow.recv, e.2.level = 0 ∧ e.2.skew = []) ∧
      (t.core k).dma.firing = [] ∧ (t.core k).dma.staged = [] ∧ (t.core k).dma.fetch = [] ∧
      ∃ more, (t.core k).router.out = (s.core k).router.out ++ more)) ∧
  (∀ (w : Nat) (s : State) (d : DrainRun), w < 2 → (s.wing (s.lead w)).drain = some d → d.active = true →
     (s.allCores (s.lead w) (fun c => c.drained) = true →
       Answers (.drainSample w) s (fun t =>
         (t.wing (s.lead w)).drain = none ∧ (t.wing (s.lead w)).draining = false ∧ (t.wing (s.lead w)).allEmpty = true ∧
         (t.wing (s.lead w)).lastDrain.toNat = min (s.maxBeat (s.lead w) - d.startBeat) 0xFFFFFF ∧
         (∀ k, wingOf k ∈ s.wings (s.lead w) →
           (t.core k).flow.epoch = (s.core k).flow.epoch ∧ (t.core k).mem = (s.core k).mem ∧
           ∀ e ∈ (t.core k).flow.send, e.2.token = false → e.2.credits = BitVec.ofNat 5 e.2.depth))) ∧
     (d.startBeat + d.bound ≤ s.maxBeat (s.lead w) → s.allCores (s.lead w) (fun c => c.drained) = false →
       Answers (.drainTimeout w) s (fun t =>
         (t.wing (s.lead w)).drain = none ∧ (t.wing (s.lead w)).draining = false ∧ (t.wing (s.lead w)).drainTimeout = true ∧
         ((s.wing (s.lead w)).reformDue = none → (t.wing (s.lead w)).reformDue = some 0x5008#16) ∧
         ∀ k, wingOf k ∈ s.wings (s.lead w) →
           (t.core k).router.out = [] ∧ (t.core k).router.toSend = [] ∧ (t.core k).pace.wait = none ∧
           (∀ e ∈ (t.core k).flow.recv, e.2.level = 0 ∧ e.2.skew = []) ∧
           ∀ e ∈ (t.core k).flow.send, e.2.token = false → e.2.credits = BitVec.ofNat 5 e.2.depth)))

/-! ### Beats, layers and pace (R45 to R67) -/

/-- A core begins its next beat once coupling is released and each logical neighbour has begun its present one: with nothing
due in it, its beat number and the beats of the pace window advance by one and nothing else changes; until then nothing happens
(R45, R50, R54). A late beat of a step counts in LATE_COUNT, moves the rest of the schedule by one, and the core does no
scheduled work in it (R62, R63). An engine
time-out and a compute-rail error of a core end the step with CORE:0x001 and CORE:0x004, naming the core (R386); a wait of
65,536 late beats ends it with PACE:0x002 and sets STALL (R65); a beat difference of more than 1 with PACE:0x005; a cluster
without a beat for 10 µs with PACE:0x004, which halts coupling (R66); a debug halt raises neither (R476). -/
def Obligations.BeatsAndCoreFaults : Prop :=
  (∀ (k : Nat) (s : State), validCore k = true →
     (let c := s.core k
      (s.mayBeat k = true → c.pace.wait = none → (s.wing (s.lead (wingOf k))).run = none →
        c.dma.firing = [] → c.router.buses = [] → c.router.toSend = [] →
        (∀ l ∈ c.router.links, l.2.sched.inBuf = [] ∧ l.2.answers = []) → (∀ x ∈ s.chans, x.2.answers = []) →
        Answers (.beat k {}) s (fun t => OneCore k s t { c with pace := { c.pace with
          beat := c.pace.beat + 1, winBeats := c.pace.winBeats + 1, idle := false } })) ∧
      (∀ cause sender, (let t := c.tick { late := some cause, lateFrom := sender } true
        t.pace.beat = c.pace.beat + 1 ∧ t.pace.shift = c.pace.shift + 1 ∧ t.waiting = true ∧
        t.pace.lateCount = (satAdd c.pace.lateCount c.pace.lateSat 1).1)) ∧
      (∀ i, (∃ n ∈ neighbours s.split k, (s.core n).now < c.now) ∨ (s.wing (s.lead (wingOf k))).coupled = false →
        exec (.beat k i) s = .next s) ∧
      (∀ n, n ∈ neighbours s.split k → s.split = false ∨ wingOf n = wingOf k))) ∧
  (∀ (k : Nat) (s : State), validCore k = true → s.underTest k = false →
    (let ends (i : Instr) (code : Code) : Prop := Answers i s (fun t =>
       StepEnds (wingOf k) s t code 1 (localCore s.split (wingOf k) k) ∧ (t.core k).health.lastEvent = code)
     ends (.engineTimeout k) 0x3001#16 ∧ ends (.computeRail k) 0x3004#16 ∧
     ((s.wing (s.lead (wingOf k))).halted = false → ends (.couplingTimeout (.skew k)) 0x8005#16) ∧
     ((s.wing (s.lead (wingOf k))).halted = true → exec (.couplingTimeout (.skew k)) s = .next s) ∧
     (∀ x, (s.core k).pace.wait = some x → 65536 ≤ x.late →
       ends (.stall k) 0x8002#16 ∧ Answers (.stall k) s (fun t => (t.core k).pace.stall = true)))) ∧
  (∀ (n : Nat) (s : State), n < 48 →
    ((s.wing (s.lead (wingOfCluster n))).coupled = false ∨ (s.wing (s.lead (wingOfCluster n))).halted = true) →
    exec (.couplingTimeout (.noBeat n)) s = .next s) ∧
  (∀ (n : Nat) (s : State), n < 48 → (s.wing (s.lead (wingOfCluster n))).coupled = true →
    (s.wing (s.lead (wingOfCluster n))).halted = false →
    Answers (.couplingTimeout (.noBeat n)) s (fun t =>
      StepEnds (wingOfCluster n) s t 0x8004#16 2 n ∧ (t.wing (s.lead (wingOfCluster n))).coupled = false ∧
      ((s.wing (s.lead (wingOfCluster n))).reformDue = none →
        (t.wing (s.lead (wingOfCluster n))).reformDue = some 0x8004#16)))

/-- A prepared step's first layer starts at a slot boundary, once the power controller lets it, with its beat in every core: the
beat that a control word has brought, or one at least 64 beats and the span allowance beyond the largest beat of the wing; each
later layer i + 1 starts at start(i) + 4 ceil((L(i) + 64) / 4), once every core has reached the end of layer i (R47, R53). The
layer-end sample of the layer: with no flag raised the layer counts as sampled, and after the last layer the step is ready for
its commit point; a late flag ends the step with PACE:0x001, which names the core with the smallest FIRST_BEAT, then the lowest
Y and X; loops not home end it with SYNC:0x003, or with SYNC:0x009 where nothing but unpaired halves is amiss (R64, R197,
R270). -/
def Obligations.LayersStartAndEnd : Prop :=
  (∀ (w : Nat) (s : State) (r : Run) (x : StepSched), w < 2 → s.sched (s.lead w) = some (r, x) →
     (r.began = false → (s.wing (s.lead w)).power.startWaits = false →
       Answers (.layerStart w) s (fun t => ∃ start, (r.start % 4 = 0 → start % 4 = 0) ∧
         (r.start ≠ 0 → s.maxBeat (s.lead w) ≤ r.start → start = r.start) ∧
         (r.start = 0 ∨ r.start < s.maxBeat (s.lead w) →
           start % 4 = 0 ∧ s.maxBeat (s.lead w) + 64 + spanBeats s.split ≤ start) ∧
         (t.wing (s.lead w)).run = some { r with began := true, layer := 0, start := start } ∧
         (∀ k, wingOf k ∈ s.wings (s.lead w) → (t.core k).pace.lateCount = 0 ∧ (t.core k).flow.layerStart = start ∧
           (t.core k).flow.layer = 0 ∧ (t.core k).flow.sink = false ∧ (t.core k).vec = {} ∧ (t.core k).tensor.tiles = []))) ∧
     (r.began = true → r.layer + 1 < x.layers.length → s.layerOver (s.lead w) r x = true →
       Answers (.layerStart w) s (fun t =>
         (t.wing (s.lead w)).run = some { r with
           layer := r.layer + 1, start := r.start + 4 * ((layerBeats x r.layer + 64 + 3) / 4) } ∧
         (∀ k, wingOf k ∈ s.wings (s.lead w) →
           (t.core k).flow.layerStart = r.start + 4 * ((layerBeats x r.layer + 64 + 3) / 4) ∧
           (t.core k).flow.layer = BitVec.ofNat 8 (r.layer + 1) ∧ (t.core k).pace.lateCount = (s.core k).pace.lateCount)))) ∧
  (∀ (w : Nat) (s : State) (r : Run) (x : StepSched), w < 2 → s.sched (s.lead w) = some (r, x) → r.began = true →
     (s.wing (s.lead w)).draining = false → (r.sampled < r.layer ∨ (r.sampled = r.layer ∧ s.layerOver (s.lead w) r x = true)) →
     (let l := s.lead w
      let late (c : Nat) : Prop := (s.flagsOf c r.sampled).late = true
      let away (c : Nat) : Prop := (s.flagsOf c r.sampled).away = true
      ((∀ c ∈ s.listed l, ¬late c ∧ ¬away c) →
        Answers (.layerEndSample w) s (fun t =>
          (t.wing l).run = some { r with sampled := r.sampled + 1 } ∧ (∀ k, t.core k = s.core k) ∧
          (r.sampled + 1 ≠ x.layers.length → t.flights = s.flights) ∧
          (r.sampled + 1 = x.layers.length → ∀ f ∈ t.flights, f.named r.ring r.seq = true → f.ready = true))) ∧
      (∀ k, k ∈ s.listed l → late k → s.underTest k = false →
        (∀ c ∈ s.listed l, late c → (s.core k).pace.firstBeat.toNat < (s.core c).pace.firstBeat.toNat ∨
          ((s.core k).pace.firstBeat = (s.core c).pace.firstBeat ∧ k ≤ c)) →
        Answers (.layerEndSample w) s (fun t => StepEnds (wingOf k) s t 0x8001#16 1 (localCore s.split (wingOf k) k))) ∧
      (∀ k, (∀ c ∈ s.listed l, ¬late c) → k ∈ s.listed l → away k → (∀ c ∈ s.listed l, away c → k ≤ c) → s.underTest k = false →
        ((∀ c ∈ s.listed l, away c → (s.flagsOf c r.sampled).unpaired = true) →
          Answers (.layerEndSample w) s (fun t => StepEnds (wingOf k) s t 0x5009#16 1 (localCore s.split (wingOf k) k))) ∧
        ((∃ c ∈ s.listed l, away c ∧ (s.flagsOf c r.sampled).unpaired = false) →
          Answers (.layerEndSample w) s (fun t => StepEnds (wingOf k) s t 0x5003#16 1 (localCore s.split (wingOf k) k))))))

/-- A lost reference ends a running step with PACE:0x003, sets REF_FAULT, clears PACE_VALID and sets a wait of 16 windows;
its return clears REF_FAULT; a window's end takes the beats of the reference core as its count, advances WINDOW_TAG, writes the
share of their beats that each cluster's sampled cores waited, and sets PACE_VALID and counts for the wait exactly when the
reference held for all of the window (R54, R56, R70, R71). -/
def Obligations.PaceFollowsReference : Prop :=
  ∀ (w : Nat) (s : State), w < 2 →
    Answers (.refLost w) s (fun t => StepEnds w s t 0x8003#16 0 0 ∧ (t.wing (s.lead w)).refFault = true ∧
      (t.wing (s.lead w)).paceValid = false ∧ (t.wing (s.lead w)).refWait = 16) ∧
    exec (.referenceRestored w) s = .next (s.setWing (s.lead w) { s.wing (s.lead w) with refFault := false }) ∧
    (∀ count waits, s.powered = true → count.toNat = (s.core (refCore (s.lead w))).pace.winBeats % 2 ^ 32 →
      (∀ e ∈ waits, e.2 = min 1000 (s.waitShare e.1)) →
      (let x := s.wing (s.lead w)
       let ok : Bool := !x.refFault && !x.paceDirty
       Answers (.paceWindowEnd w count waits) s (fun t =>
        (t.wing (s.lead w)).paceCount = count ∧ (t.wing (s.lead w)).windowTag = x.windowTag + 1 ∧
        (t.wing (s.lead w)).paceValid = ok ∧ (t.wing (s.lead w)).refFault = x.refFault ∧
        (t.wing (s.lead w)).refWait = (if ok then x.refWait - 1 else x.refWait) ∧
        (ok = false → ∀ p, t.port p = s.port p) ∧
        ∀ n, n < 48 → wingOfCluster n ∈ s.wings (s.lead w) →
          (t.cluster n).waitPermille.toNat = min 1000 (s.waitShare n) ∧
          (t.cluster n).lagging = decide (s.waitShare n ≤ 10))))

/-! ### The Tirrik link and register accesses (R331 to R344, R359 to R362) -/

/-- An INV of a line held drops it and is acknowledged, and the ring whose doorbell line it was reads it again; DATA answers
the oldest read of its line, of which the other lines stay asked for: a doorbell's index becomes TAIL or HEAD_SEEN and the line goes to the front of the cache, and a line
of a stream is kept until the eighth completes its block; WR_ACK answers the oldest write: a record so acknowledged is posted. An
error response is recorded, and halts a ring in use, holds the posting or ends the descriptor that made the access. A message that
breaks the protocol is discarded and recorded as LINK:0x804 (R334 to R336, R341, R344, R354). -/
def Obligations.LinkMessagesAct : Prop :=
  ∀ (s : State) (addr : BitVec 64) (line : Desc),
    (let a := addr.toNat / 64 * 64
     let noted : State := { s with link := { s.link with errCode := 0x804#12 } }
     (s.link.cache.any (fun c => c.addr == a) = true →
       Answers (.inv addr) s (fun t => ({ t with link := s.link } : State) = s ∧
         t.link.cache = s.link.cache.filter (fun c => c.addr != a) ∧
         (∃ more, t.link.toComp = s.link.toComp ++ .invAck a :: more) ∧
         ∀ i, i < 128 → ((s.sring i).inUse = true → (s.sring i).dbAddr = a → .rdShared a (.doorbell false i) ∈ t.link.toComp) ∧
           ((s.cring i).inUse = true → (s.cring i).dbAddr = a → .rdShared a (.doorbell true i) ∈ t.link.toComp))) ∧
     (s.link.cache.any (fun c => c.addr == a) = false → exec (.inv addr) s = .next noted) ∧
     (takeMsg (isRead addr.toNat) (lineTaken (addr.toNat / 64 * 64)) s.link.toComp = none →
       exec (.data addr line) s = .next noted ∧ exec (.companionErrorResponse false addr) s = .next noted) ∧
     (takeMsg isWrNc (fun _ => []) s.link.toComp = none → exec .wrAck s = .next noted) ∧
     (takeMsg (isWrNcAt addr.toNat) (lineTaken (addr.toNat / 64 * 64)) s.link.toComp = none → exec (.companionErrorResponse true addr) s = .next noted)) ∧
    (∀ m ms, takeMsg (isRead addr.toNat) (lineTaken (addr.toNat / 64 * 64)) s.link.toComp = some (m, ms) →
      (∀ q i, useOf m = some (.doorbell q i) →
        Answers (.data addr line) s (fun t => t.link.toComp = ms ∧ t.link.cache.head? = some ⟨addr.toNat, line, true⟩ ∧
          ({ t with link := s.link, sq := s.sq, cq := s.cq } : State) = s ∧
          (∀ j, t.sring j = if q = false ∧ j = i then { s.sring j with tail := BitVec.ofNat 32 line.toNat } else s.sring j) ∧
          (∀ j, t.cring j = if q = true ∧ j = i then { s.cring j with headSeen := BitVec.ofNat 32 line.toNat } else s.cring j))) ∧
      (∀ i, useOf m = some (.descriptor i) →
        Answers (.data addr line) s (fun t => t.link.toComp = ms ∧ t.link.cache.head? = some ⟨addr.toNat, line, false⟩ ∧
          ({ t with link := s.link } : State) = s) ∧
        ((s.sring i).inUse = true → (s.sring i).halted = false →
          Answers (.companionErrorResponse false addr) s (fun t => t.link.errCode = 0x805#12 ∧ t.link.toComp = ms ∧
          t.sring i = { s.sring i with halted := true, haltFault := 0x1805#16 } ∧
          (∃ r ∈ (t.cring (s.sring i).cq.toNat).waiting, r.ring = i ∧ r.family = 0 ∧ r.disp = 1 ∧ r.fault = 0x1805#16 ∧
            r.seq = (s.sring i).expect) ∧ ∀ k, t.core k = s.core k)) ∧
        (((s.sring i).inUse = false ∨ (s.sring i).halted = true) → exec (.companionErrorResponse false addr) s =
          .next { s with link := { s.link with toComp := ms, errCode := 0x805#12 } })) ∧
      (∀ r q, useOf m = some (.flight r q) →
        exec (.data addr line) s = .next { s with link := { s.link with toComp := ms } } ∧
        Answers (.companionErrorResponse false addr) s (fun t => t.link.errCode = 0x805#12 ∧ (s.flight r q = none → t.flights = s.flights))) ∧
      (∀ core slot blk, useOf m = some (.stream core slot blk) →
        (let new := (core, slot, blk, addr.toNat / 64 % 8, line)
         let mine (e : Nat × Nat × Nat × Nat × Desc) : Bool := e.1 == core && e.2.1 == slot && e.2.2.1 == blk
         let have_ := s.link.lines.filter mine
         (have_.length < 7 → exec (.data addr line) s = .next { s with link := { s.link with
           toComp := ms, lines := s.link.lines ++ [new] } }) ∧
         (7 ≤ have_.length → exec (.data addr line) s = .next (({ s with link := { s.link with
             toComp := ms, lines := s.link.lines.filter (fun e => !mine e) } } : State).placeExt core slot blk
           ((List.range 8).flatMap (fun i => match (have_ ++ [new]).find? (fun e => e.2.2.2.1 == i) with
             | some e => toBytes 64 e.2.2.2.2.toNat
             | none => [])))) ∧
         Answers (.companionErrorResponse false addr) s (fun t => t.link.errCode = 0x805#12 ∧
           StepEnds (wingOf core) s t 0x1805#16 1 (localCore s.split (wingOf core) core))))) ∧
    (∀ m ms j r bs, takeMsg isWrNc (fun _ => []) s.link.toComp = some (m, ms) → useOf m = some (.record j) → (s.cring j).held = some (r, bs) →
      Answers .wrAck s (fun t => t.link = { s.link with toComp := ms } ∧ (t.cring j).posted = (s.cring j).posted + 1 ∧
        (t.cring j).held = none ∧ (t.cring j).waiting = (s.cring j).waiting ∧
        (t.cring j).reserved = (if r.reserved then (s.cring j).reserved - 1 else (s.cring j).reserved) ∧
        (∀ i, i ≠ j → t.cring i = s.cring i) ∧ t.flights = s.flights ∧ t.bonded = s.bonded ∧ ∀ k, t.core k = s.core k)) ∧
    (∀ m ms r q, takeMsg isWrNc (fun _ => []) s.link.toComp = some (m, ms) → useOf m = some (.flight r q) →
      exec .wrAck s = .next { s with link := { s.link with toComp := ms } }) ∧
    (∀ m ms core slot blk, takeMsg isWrNc (fun _ => []) s.link.toComp = some (m, ms) → useOf m = some (.stream core slot blk) →
      validCore core = true → (s.core core).slotBusy slot = true →
      Answers .wrAck s (fun t => OneCore core { s with link := { s.link with toComp := ms } } t (((s.core core).setSlot slot {
        (s.core core).slot slot with done := ((s.core core).slot slot).done + 1 }).settleSlot slot))) ∧
    (∀ m ms j, takeMsg (isWrNcAt addr.toNat) (lineTaken (addr.toNat / 64 * 64)) s.link.toComp = some (m, ms) → useOf m = some (.record j) →
      Answers (.companionErrorResponse true addr) s (fun t =>
        t.link = { s.link with toComp := ms, errCode := 0x806#12 } ∧ t.cring j = { s.cring j with retry := true } ∧
        (∀ i, i ≠ j → t.cring i = s.cring i) ∧ ({ t with link := s.link, cq := s.cq } : State) = s))

/-- Flits. One in order is taken and answered; one taken before is answered again; one beyond a gap, or that fails its CRC, asks
for a re-send, and the latter counts. An acknowledgement drops the flits up to the one it names, a re-send request drops those
before it and sends the others again; a malformed message is discarded and recorded as LINK:0x804. With no answer in 2 µs each
unanswered flit is sent once more, and the eighth failed attempt of one takes the link down with LINK:0x807 recorded (R332,
R336, R337). Training ends with the link up at 32 or 16 lanes and the highest common version, 1, or down with LINK:0x802 or
LINK:0x803, and the ports of a wing in cold phase 4 then start to train (R368); a link that is down trains again from phase 4
on; a loss of lanes below 16 takes an up link down: LINK:0x807 is recorded, no descriptor stays in flight, and every completion
ring keeps what it has to post (R13, R333, R337). -/
def Obligations.FlitsAndTraining : Prop :=
  (∀ (s : State) (q : BitVec 12) (crcOk wf : Bool) (ack : Option (Bool × BitVec 12)),
     (let l := s.link
      let sent := if l.replay.length < 512 then l.replay ++ [(l.txNext, 0)] else l.replay
      let upTo (k : BitVec 12) : List (BitVec 12 × Nat) := match sent with
        | [] => []
        | e :: _ => if (k - e.1).toNat < sent.length then sent.drop ((k - e.1).toNat + 1) else sent
      let only (t : State) : Prop := ({ t with link := s.link } : State) = s
      let i : Instr := .tirrikFlit q crcOk ack wf
      (l.up = false → exec i s = .next s) ∧
      (l.up = true → crcOk = false → Answers i s (fun t => only t ∧ t.link.rxExpect = l.rxExpect ∧ t.link.rxNak = true ∧
         t.link.badFlits = (satAdd l.badFlits l.badSat 1).1 ∧ t.link.replay = sent)) ∧
      (l.up = true → crcOk = true → q ≠ l.rxExpect → Answers i s (fun t => only t ∧ t.link.rxExpect = l.rxExpect ∧
         t.link.rxNak = (l.rxNak || decide (512 < (l.rxExpect - q).toNat)) ∧ t.link.badFlits = l.badFlits ∧ t.link.replay = sent)) ∧
      (l.up = true → crcOk = true → q = l.rxExpect →
        (let good (t : State) (r : List (BitVec 12 × Nat)) : Prop := only t ∧ t.link.rxExpect = q + 1 ∧ t.link.rxNak = false ∧
           t.link.errCode = (if wf then l.errCode else 0x804#12) ∧ t.link.replay = r
         (ack = none → Answers i s (fun t => good t sent)) ∧
         (∀ k, ack = some (false, k) → Answers i s (fun t => good t (upTo k) ∧ t.link.resends = l.resends)) ∧
         (∀ k, ack = some (true, k) →
           ((∀ e ∈ upTo (k - 1), e.2 < 7) → Answers i s (fun t =>
             good t ((upTo (k - 1)).map (fun e => (e.1, e.2 + 1))) ∧
             t.link.resends = (satAdd l.resends l.resendSat (upTo (k - 1)).length).1)) ∧
           ((∃ e ∈ upTo (k - 1), 7 ≤ e.2) → Answers i s (fun t =>
             t.link.up = false ∧ t.link.errCode = 0x807#12 ∧ t.link.replay = [] ∧ t.link.resends = l.resends))))))) ∧
  (∀ s : State,
     (let l := s.link
      ((l.up = false ∨ l.replay = []) → exec .tirrikResendTimeout s = .next s) ∧
      (l.up = true → l.replay ≠ [] → (∀ e ∈ l.replay, e.2 < 7) → Answers .tirrikResendTimeout s (fun t =>
         ({ t with link := s.link } : State) = s ∧ t.link.replay = l.replay.map (fun e => (e.1, e.2 + 1)) ∧
         t.link.resends = (satAdd l.resends l.resendSat l.replay.length).1 ∧ t.link.up = true)) ∧
      (l.up = true → (∃ e ∈ l.replay, 7 ≤ e.2) → Answers .tirrikResendTimeout s (fun t =>
         t.link.up = false ∧ t.link.errCode = 0x807#12 ∧ t.link.replay = [] ∧ t.link.resends = l.resends)))) ∧
  (∀ (s : State) (lanes : Nat) (v : BitVec 8),
    ((s.link.up = true ∨ s.link.training = false) → exec (.tirrikTrain lanes v) s = .next s) ∧
    (s.link.up = false → s.link.training = true → Answers (.tirrikTrain lanes v) s (fun t =>
      ({ t with link := s.link, ports := s.ports } : State) = s ∧
      (∀ p, p < 80 → t.port p =
        if (s.port p).stat = .down ∧ (s.wing (portWing p (s.port p))).phase = 4 then { s.port p with stat := .training, phase := 1 }
        else s.port p) ∧
      (lanes < 16 → t.link = { s.link with training := false, errCode := 0x802#12 }) ∧
      (16 ≤ lanes → v = 0 → t.link = { s.link with training := false, errCode := 0x803#12 }) ∧
      (16 ≤ lanes → v ≠ 0 → t.link.up = true ∧ t.link.training = false ∧ t.link.version = 1 ∧
        t.link.width = (if lanes < 32 then 16 else 32) ∧ t.link.rxExpect = 0 ∧ t.link.txNext = 0 ∧ t.link.replay = [])))) ∧
  (∀ s : State, (s.link.up = true → exec .tirrikTrainRetry s = .next s) ∧
    (s.link.up = false → (4 ≤ s.west.phase.toNat ∨ 4 ≤ s.east.phase.toNat) →
      exec .tirrikTrainRetry s = .next { s with link := { s.link with training := true } }) ∧
    (s.west.phase.toNat < 4 → s.east.phase.toNat < 4 → exec .tirrikTrainRetry s = .next s)) ∧
  (∀ (s : State) (lanes : Nat),
    ((16 ≤ lanes ∨ s.link.up = false) → exec (.tirrikLaneLoss lanes) s = .next s) ∧
    (s.link.up = true → lanes < 16 → Answers (.tirrikLaneLoss lanes) s (fun t =>
      t.link.up = false ∧ t.link.width = 0 ∧ t.link.version = 0 ∧ t.link.errCode = 0x807#12 ∧ t.link.replay = [] ∧ t.link.cache = [] ∧
      t.link.toComp = [] ∧ t.flights = [])))

/-- Reads of the geometry registers return the values of Tables 1.6 to 1.8, in every state of a module whose link is up, and
change nothing but the answer that is sent. -/
def Obligations.GeometryReadsAsTabled : Prop :=
  ∀ s : State, s.link.up = true →
    (let answers (off d : Nat) : Prop := exec (.setupRd (BitVec.ofNat 64 off) 8) s =
       .next { s with link := { s.link with toComp := s.link.toComp ++ [.setupResp 0 (BitVec.ofNat 512 d)] } }
     answers 0x00 (1 + 1 * 2 ^ 8) ∧
     answers 0x08 (832 + 816 * 2 ^ 12 + 8 * 2 ^ 24 + 6 * 2 ^ 28 + 104 * 2 ^ 32 + 136 * 2 ^ 40 + 112 * 2 ^ 48 + 144 * 2 ^ 56) ∧
     answers 0x10 (4 + 32 * 2 ^ 4 + 40 * 2 ^ 12 + 16 * 2 ^ 20 + 80 * 2 ^ 28 + 388 * 2 ^ 36))

/-- Set-up accesses. Each access of an up link is answered, after every message sent before, with the data or with the status of
its refusal, which LINK_SETUP_ERR keeps. One of the wrong size or alignment is answered with BAD_ACCESS and changes nothing else. A read changes
nothing but its answer. A write to CORE_GROUP through an aperture reaches the core that it names, or with MODE 2 every core
of the wings that have reached a capstone and are not FAILED; a read through such an aperture, and an aperture that names no core, are refused. While the
link is down no access reaches the module (R338, R360 to R362, R372). -/
def Obligations.SetupAccessesAct : Prop :=
  ∀ (s : State) (addr : BitVec 64) (size : Nat) (v : Desc),
    (s.link.up = false → exec (.setupRd addr size) s = .next s ∧ exec (.setupWr addr size v) s = .next s) ∧
    (s.link.up = true → ∀ i : Instr, i = .setupRd addr size ∨ i = .setupWr addr size v →
      Answers i s (fun t => ∃ sent status d, t.link.toComp = sent ++ [.setupResp status d] ∧
        (status ≠ 0 → d = 0) ∧ (status = 1 → t.link.setupFault = 0x700A#16) ∧
        (status = 2 → t.link.setupFault = 0x700B#16) ∧ (status = 3 → t.link.setupFault = 0x700C#16))) ∧
    (s.link.up = true → addr.toNat < 0x4000000 →
      (let refused (status : Nat) (code : Code) (target : Nat) : State := { s with link := { s.link with
         toComp := s.link.toComp ++ [.setupResp status 0], setupFault := code, setupTarget := BitVec.ofNat 32 target } }
       ((size ≠ 8 ∨ addr.toNat % 8 ≠ 0) →
         exec (.setupRd addr size) s = .next (refused 3 0x700C#16 addr.toNat) ∧
         exec (.setupWr addr size v) s = .next (refused 3 0x700C#16 addr.toNat)) ∧
       Answers (.setupRd addr size) s (fun t => ({ t with link := s.link } : State) = s) ∧
       (∀ a, a < 64 → size = 8 → addr.toNat = 0x200000 + 0x1000 * a + 0xC10 →
         (let ap := Map.get {} s.link.apsel a
          let k := ap.target.toNat
          (ap.mode = 0 → validCore k = true → s.reached (wingOf k) = true →
            Answers (.setupWr addr size v) s (fun t =>
              t.link = { s.link with toComp := s.link.toComp ++ [.setupResp 0 0] } ∧
              OneCore k { s with link := t.link } t { s.core k with groups := v.setWidth 64 })) ∧
          (ap.mode = 0 → (validCore k = false ∨ s.reached (wingOf k) = false) →
            exec (.setupRd addr size) s = .next (refused 1 0x700A#16 k) ∧
            exec (.setupWr addr size v) s = .next (refused 1 0x700A#16 k)) ∧
          (ap.mode = 2 → (s.reached 0 = true ∨ s.reached 1 = true) →
            exec (.setupRd addr size) s = .next (refused 2 0x700B#16 addr.toNat) ∧
            Answers (.setupWr addr size v) s (fun t =>
              (let west : WingState := { t.west with base := s.west.base }
               let east : WingState := { t.east with base := s.east.base }
               CoresOnly { s with link := t.link } { t with west := west, east := east }) ∧
              t.link = { s.link with toComp := s.link.toComp ++ [.setupResp 0 0] } ∧
              ∀ c, validCore c = true → t.core c =
                if s.reached (wingOf c) = false then s.core c else { s.core c with groups := v.setWidth 64 }))))))

/-- A line access through an enabled bonded-memory window reaches the 64 bytes at BASE + offset, in the wing's bonded space:
a read returns them and changes only the count of accesses and the answer, a write replaces them and keeps every other byte
and the block's TAG. Beyond the space, and a write to a READ_ONLY window, are refused and change no memory (R180, R339,
R362). -/
def Obligations.WindowsReachBondedMemory : Prop :=
  ∀ (s : State) (n o : Nat) (addr : BitVec 64) (d : Desc), s.link.up = true → n < 4 → addr.toNat = (n + 1) * 2 ^ 40 + o → o % 64 = 0 →
    (let w := Map.get {} s.link.wins n
     let v := if s.split && w.wing then 1 else 0
     let a := w.base.toNat * 2 ^ 30 + o
     let g := globalAddr s.split v a
     30 ≤ w.sizeLog2.toNat → w.sizeLog2.toNat ≤ 39 → o < 2 ^ w.sizeLog2.toNat → s.reached v = true →
     (a + 64 ≤ bondedTop s.split → (s.block (g / 512)).good = true →
       Answers (.setupRd addr 64) s (fun t => ({ t with link := s.link, chans := s.chans } : State) = s ∧
         ∃ x : Desc, t.link.toComp = s.link.toComp ++ [.setupResp 0 x] ∧
           ∀ j, j < 64 → x.toNat / 256 ^ j % 256 = (Mem.get s.bonded (g + j)).toNat) ∧
       (w.readOnly = false → Memory.wf s.bonded = true → Answers (.setupWr addr 64 d) s (fun t =>
         t.link = { s.link with toComp := s.link.toComp ++ [.setupResp 0 0] } ∧
         ({ t with link := s.link, bonded := s.bonded, side := s.side, chans := s.chans } : State) = s ∧
         (∀ b, (b < g ∨ g + 64 ≤ b) → Mem.get t.bonded b = Mem.get s.bonded b) ∧
         (∀ j, j < 64 → (Mem.get t.bonded (g + j)).toNat = d.toNat / 256 ^ j % 256) ∧
         (t.block (g / 512)).tag = (s.block (g / 512)).tag ∧ (t.block (g / 512)).good = true))) ∧
     ((bondedTop s.split < a + 64 ∨ w.readOnly = true) →
       (let sent := s.link.toComp ++ [.setupResp 4 0]
        let target : BitVec 32 := BitVec.ofNat 32 addr.toNat
        exec (.setupWr addr 64 d) s = .next { s with link := { s.link with
          toComp := sent, setupFault := 0x700C#16, setupTarget := target } })))

/-- The register writes of a core with an action: a CORE_LIMIT value is in force at once, or waits while a step runs, and
programs loaded before see it; RELEASE turns sections off at once, or waits; a status flag written as 1, CLEAR of the stale
count and CLEAR of a link's re-send counters clear those fields alone (R100, R170, R219, R281, R294). -/
def Obligations.CoreRegisterWritesAct : Prop :=
  ∀ (k : Nat) (s : State), validCore k = true →
    (let c := s.core k
     let seen : State := s.onWing (s.lead (wingOf k)) (fun x => { x with progs := x.progs.map (fun p =>
       (p.1, { p.2 with limitWritten := true })) })
     (∀ v : Word,
       (s.stepRuns (wingOf k) = true → Answers (.coreLimitWrite k v) s (fun t =>
         OneCore k seen t { c with limit := { c.limit with pend := some v } })) ∧
       (s.stepRuns (wingOf k) = false → Answers (.coreLimitWrite k v) s (fun t => ∃ l : Limit,
         OneCore k seen t { c with limit := l } ∧ l.pend = none ∧ l.sections = v.extractLsb' 0 8 ∧ l.tiles = v.extractLsb' 8 4 ∧
         l.slots = v.extractLsb' 12 4 ∧ l.depth = v.extractLsb' 16 5 ∧ l.sendEp = v.extractLsb' 21 5 ∧
         l.recvEp = v.extractLsb' 26 5 ∧ l.errCode = c.limit.errCode))) ∧
     (∀ m : Byte,
       (s.stepRuns (wingOf k) = true → Answers (.coreMemRelease k m) s (fun t =>
         OneCore k s t { c with mem := { c.mem with releasePend := c.mem.releasePend ||| m } })) ∧
       (s.stepRuns (wingOf k) = false → Answers (.coreMemRelease k m) s (fun t => ∃ lines,
         OneCore k s t { c with mem := { c.mem with on := c.mem.on &&& ~~~m, retained := c.mem.retained &&& ~~~m, lineSet := lines } } ∧
         ∀ i, i < 1536 → lines.getLsbD i = (c.mem.lineSet.getLsbD i && !m.getLsbD (i / 192))))) ∧
     (∀ m : Word, Answers (.coreArithStatusClear k m) s (fun t =>
       OneCore k s t { c with arith := { c.arith with status := c.arith.status &&& ~~~(m.setWidth 9) } })) ∧
     Answers (.staleClear k) s (fun t =>
       OneCore k s t { c with flow := { c.flow with staleCount := 0, staleSat := false, staleEpoch := 0 } }) ∧
     (∀ l : BitVec 2, Answers (.rtLinkClear k l) s (fun t => ∃ links,
       OneCore k s t { c with router := { c.router with links := links } } ∧
       SetsKey {} c.router.links links l.toNat { c.mlink l.toNat with resends := 0, resendSat := false, lastAttempts := 0 })))

/-- The other register writes with an action clear or set the fields that they name alone: ATTN of a wing, and with it ATTN_N
and an in-band interrupt no longer due; a port's counters; LINK_CNT and LAST_CODE; PLINTH_PWR_ERR; PLINTH_PWR_CTRL while the
module is powered; ENABLE of a ring, whose doorbell line is then read and whose halt is cleared (R330, R341, R344, R373,
R380, R413, R428, R458). -/
def Obligations.ModuleRegisterWritesAct : Prop :=
  (∀ (w : Nat) (s : State), w < 2 → Answers (.attnClear w) s (fun t =>
    (∀ v, v < 2 → t.wing v = if v ∈ s.bootWings w then { s.wing v with attn := false } else s.wing v) ∧
    t.pins = { s.pins with attn := t.west.attn || t.east.attn } ∧
    t.sb = { s.sb with ibiDue := s.sb.ibiDue && t.pins.attn, ibiRefused := s.sb.ibiRefused && t.pins.attn } ∧
    ({ t with west := s.west, east := s.east, pins := s.pins, sb := s.sb } : State) = s)) ∧
  (∀ (p : Nat) (s : State), p < 80 → Answers (.portClear p) s (fun t => ({ t with ports := s.ports } : State) = s ∧
    (∀ q, q ≠ p → t.port q = s.port q) ∧
    t.port p = {
      s.port p with
      framesTx := 0, txSat := false, resends := 0, resendSat := false, framesRx := 0, rxSat := false
      drops := 0, dropSat := false, stale := 0, staleSat := false, badFrames := 0, badSat := false })) ∧
  (∀ s : State,
    exec .linkErrClear s = .next { s with link := { s.link with
      resends := 0, resendSat := false, badFlits := 0, badSat := false, errCode := 0 } } ∧
    exec .pwrErrClear s = .next { s with power := { s.power with lastFault := 0, errCluster := 0 } } ∧
    (∀ by_ v, (s.powered = true → Answers (.pwrCtrlWrite by_ v) s (fun t => ({ t with power := s.power } : State) = s ∧
        t.power = { s.power with cap := v.extractLsb' 0 16, slope := v.extractLsb' 16 12, westShare := v.extractLsb' 28 7 })) ∧
      (s.powered = false → exec (.pwrCtrlWrite by_ v) s = .next s))) ∧
  (∀ (i : Nat) (s : State), i < 128 →
    (Answers (.sqEnable i false) s (fun t => ({ t with sq := s.sq } : State) = s ∧ (∀ j, j ≠ i → t.sring j = s.sring j) ∧
      t.sring i = { s.sring i with enable := false, marks := [] })) ∧
    (Answers (.cqEnable i false) s (fun t => ({ t with cq := s.cq } : State) = s ∧ (∀ j, j ≠ i → t.cring j = s.cring j) ∧
      t.cring i = { s.cring i with enable := false })) ∧
    (sizeOk (s.sring i).size = true → (s.sring i).enable = false → Answers (.sqEnable i true) s (fun t =>
      ({ t with sq := s.sq, link := s.link } : State) = s ∧ (∀ j, j ≠ i → t.sring j = s.sring j) ∧
      t.sring i = { s.sring i with enable := true, halted := false } ∧
      (s.link.up = false → t.link = s.link) ∧
      (s.link.up = true → .rdShared (64 * (s.sring i).db.toNat) (.doorbell false i) ∈ t.link.toComp))) ∧
    (sizeOk (s.cring i).size = true → (s.cring i).enable = false → Answers (.cqEnable i true) s (fun t =>
      ({ t with cq := s.cq, link := s.link } : State) = s ∧ (∀ j, j ≠ i → t.cring j = s.cring j) ∧
      t.cring i = { s.cring i with enable := true } ∧
      (s.link.up = false → t.link = s.link) ∧
      (s.link.up = true → .rdShared (64 * (s.cring i).db.toNat) (.doorbell true i) ∈ t.link.toComp))))

/-! ### Rings and descriptors (R340 to R358) -/

/-- A fetch attempt serves the next ring: a condition of R344 halts it, with its record; otherwise the descriptor at HEAD is
taken, a completion slot is reserved, HEAD and EXPECT_SEQ advance, and the descriptor is in flight, or REFUSED with the code
of the first failing check of R346. A decided outcome is then posted: its record, with the fields of Table 12.10, is written
to the companion, and again where the companion answered with an error (R343 to R346, R354). -/
def Obligations.DescriptorsAreFetchedAndPosted : Prop :=
  (∀ (w : Nat) (s : State) (i left : Nat), w < 2 → s.fetches (s.lead w) = true → (s.wing (s.lead w)).phase = 7 →
    s.nextRing (s.lead w) = some (i, left) →
    (let r := s.sring i
     (∀ code, s.haltCause i = some code → Answers (.descriptorFetch w) s (fun t =>
        t.sring i = { r with halted := true, haltFault := code } ∧ t.flights = s.flights ∧
        ∃ x, (t.cring r.cq.toNat).waiting = (s.cring r.cq.toNat).waiting ++ [x] ∧ x.ring = i ∧ x.seq = r.expect ∧ x.family = 0 ∧
          x.disp = 1 ∧ x.fault = code ∧ x.reserved = false)) ∧
     (∀ d, s.haltCause i = none → s.unposted (s.lead w) < 256 → s.link.line (r.entry r.head) = some d →
        r.marks.any (fun m => m.1 == r.head) = false →
        (fetchCheck s.split (s.ringWing i) r.expect d = none → Answers (.descriptorFetch w) s (fun t =>
          t.flights = s.flights ++ [{ ring := i, seq := dSeq d, words := d, wing := s.ringWing i, order := s.fetched }] ∧
          (t.sring i).head = r.head + 1 ∧ (t.sring i).expect = dSeq d + 1 ∧
          (t.cring r.cq.toNat).reserved = (s.cring r.cq.toNat).reserved + 1 ∧ t.fetched = s.fetched + 1 ∧ ∀ k, t.core k = s.core k)) ∧
        (∀ code, fetchCheck s.split (s.ringWing i) r.expect d = some code → Answers (.descriptorFetch w) s (fun t =>
          (t.sring i).head = r.head + 1 ∧
          ∃ x, (t.cring r.cq.toNat).waiting = (s.cring r.cq.toNat).waiting ++ [x] ∧ x.ring = i ∧ x.seq = dSeq d ∧ x.disp = 1 ∧
            x.fault = code))))) ∧
  (∀ (j us : Nat) (s : State) (r : OutRec) (rest : List OutRec), j < 128 → (s.cring j).waiting = r :: rest →
    s.mayPost (s.cring j) r = true →
    (let c := s.cring j
     Answers (.outcomePost j us) s (fun t => ({ t with cq := s.cq, link := s.link } : State) = s ∧
       (∀ i, i ≠ j → t.cring i = s.cring i) ∧
       ∃ bs, t.cring j = { c with waiting := rest, held := some (r, bs) } ∧
         t.link = { s.link with toComp := s.link.toComp ++
           [.wrNc (32 * c.base.toNat + 32 * (c.posted.toNat % c.size.toNat)) bs (.record j)] } ∧
         bs.length = 32 ∧ ofBytes bs % 16 = 1 ∧ ofBytes bs / 2 ^ 4 % 2 = (c.posted.toNat / c.size.toNat + 1) % 2 ∧
         ofBytes bs / 2 ^ 5 % 8 = r.disp % 8 ∧ ofBytes bs / 2 ^ 8 % 256 = r.family % 256 ∧ ofBytes bs / 2 ^ 16 % 256 = r.status % 256 ∧
         ofBytes bs / 2 ^ 24 % 128 = r.ring % 128 ∧ ofBytes bs / 2 ^ 32 % 2 ^ 32 = r.seq.toNat ∧
         ofBytes bs / 2 ^ 64 % 2 ^ 16 = r.fault.toNat ∧ ofBytes bs / 2 ^ 80 % 16 = r.whereKind % 16 ∧
         ofBytes bs / 2 ^ 96 % 2 ^ 32 = r.where_ % 2 ^ 32 ∧ ofBytes bs / 2 ^ 128 % 2 ^ 64 = r.user.toNat))) ∧
  (∀ (j : Nat) (s : State) (r : OutRec) (bs : List Byte), j < 128 → (s.cring j).held = some (r, bs) → (s.cring j).retry = true →
    s.link.up = true → Answers (.postingRetry j) s (fun t => ({ t with cq := s.cq, link := s.link } : State) = s ∧
      (∀ i, i ≠ j → t.cring i = s.cring i) ∧ t.cring j = { s.cring j with retry := false } ∧
      t.link = { s.link with toComp := s.link.toComp ++ [.wrNc
        (32 * (s.cring j).base.toNat + 32 * ((s.cring j).posted.toNat % (s.cring j).size.toNat)) bs (.record j)] }))

/-- Control descriptors. A FENCE starts and changes nothing else. A PACE_SET replaces the OP_MAP entries that it selects,
keeps the others, and commits. An ABORT of a queued descriptor ends it as ABORTED with STEP:0x004 and commits with STATUS 0;
of one submitted and not fetched it leaves a mark and commits with STATUS 0; of one never submitted it commits with STATUS 3
(R353, R357). -/
def Obligations.ControlDescriptorsAct : Prop :=
  ∀ (ring : Nat) (seq : BitVec 32) (s : State) (f : Flight),
    (CanStart s ring seq 7 f → Answers (.fence ring seq) s (fun t => ({ t with flights := s.flights } : State) = s ∧
      t.flight ring seq = some { f with stage := .running })) ∧
    (CanStart s ring seq 0xA f → Answers (.paceSet ring seq) s (fun t => Decided s t f 0 f.status 0 ∧
      (∀ k, k < 16 → opEntry (t.opMap f.wing) k =
        if bit f.words (192 + k) then bits f.words (131 + 4 * k) (128 + 4 * k) else opEntry (s.opMap f.wing) k) ∧
      t.bonded = s.bonded ∧ ∀ k, t.core k = s.core k)) ∧
    (CanStart s ring seq 8 f →
      (let tr := bits f.words 134 128
       let ts : BitVec 32 := BitVec.ofNat 32 (bits f.words 191 160)
       (∀ g, s.flight tr ts = some g → g.stage = .queued → famOf g.words ≠ 8 →
         Answers (.abort ring seq) s (fun t => t.flight tr ts = none ∧ t.flight ring seq = none ∧
           (∃ r ∈ (t.cring (s.sring tr).cq.toNat).waiting, r.ring = tr ∧ r.seq = ts ∧ r.disp = 3 ∧ r.fault = 0x7004#16) ∧
           (∃ r ∈ (t.cring (s.sring ring).cq.toNat).waiting, r.ring = ring ∧ r.seq = seq ∧ r.disp = 0 ∧ r.status = 0) ∧
           t.bonded = s.bonded ∧ ∀ k, t.core k = s.core k)) ∧
       (s.flight tr ts = none → s.recordPending tr ts (fun _ => true) = false →
         ((s.sring tr).unfetched ts = none → Answers (.abort ring seq) s (fun t => Decided s t f 0 3 0 ∧ t.sq = s.sq)) ∧
         (∀ i, (s.sring tr).unfetched ts = some i → (s.sring tr).marks.any (fun m => m.1 == i) = false → s.markCount < 32 →
           Answers (.abort ring seq) s (fun t => Decided s t f 0 0 0 ∧
             t.sring tr = { s.sring tr with marks := (s.sring tr).marks ++ [(i, ring, seq)] } ∧
             ∀ j, j ≠ tr → t.sring j = s.sring j)))))

/-- A COPY of one block within bonded memory writes its bytes at the destination, with the TAG of its descriptor or of its
source, and nothing else; from the companion it asks for the source and writes it once it has come. A TABLE_WRITE asks the
companion for its records, refuses a range beyond its table with STEP:0x001, and writes a curve in its place (R352, R353). -/
def Obligations.GatewayCopiesMoveBytes : Prop :=
  ∀ (ring : Nat) (seq : BitVec 32) (s : State) (f : Flight), Memory.wf s.bonded = true →
    (let d := f.words
     let l := s.lead f.wing
     let a := globalAddr s.split l (bits d 319 256)
     let own : CompUse := .flight ring seq
     (CanStart s ring seq 6 f → bits d 351 320 = 512 → bits d 255 192 % 512 = 0 → bits d 319 256 % 512 = 0 →
       bit d 128 = true → bit d 129 = true → s.copyBeyond d = false →
       (let n := globalAddr s.split l (bits d 255 192) / 512
        (s.block n).good = true → Answers (.copy ring seq []) s (fun t =>
          ({ t with flights := s.flights, bonded := s.bonded, side := s.side, chans := s.chans, link := s.link } : State) = s ∧
          t.flight ring seq = some { f with stage := .running, ready := true } ∧
          (∀ b, (b < a ∨ a + 512 ≤ b) → Mem.get t.bonded b = Mem.get s.bonded b) ∧
          (∀ j, j < 512 → Mem.get t.bonded (a + j) = Mem.get s.bonded (512 * n + j)) ∧
          (t.block (a / 512)).good = true ∧
          (t.block (a / 512)).tag = if bit d 130 then (s.block n).tag else BitVec.ofNat 32 (bits d 383 352)))) ∧
     (CanStart s ring seq 6 f → bits d 351 320 ≠ 0 → bit d 128 = false → s.copyBeyond d = false →
       Answers (.copy ring seq []) s (fun t => ({ t with flights := s.flights, link := s.link } : State) = s ∧
         t.flight ring seq = some { f with stage := .running } ∧
         t.link = { s.link with toComp := s.link.toComp ++ [.rdNc (bits d 255 192) (bits d 351 320 / 64) own] })) ∧
     (∀ src, ring < 128 → s.flight ring seq = some f → f.stage = .running → famOf d = 6 → f.ready = false → bit d 128 = false →
       bit d 129 = true → bits d 351 320 = 512 → bits d 319 256 % 512 = 0 → src.length = 512 →
       Answers (.copy ring seq src) s (fun t => t.flight ring seq = some { f with ready := true } ∧
         (∀ b, (b < a ∨ a + 512 ≤ b) → Mem.get t.bonded b = Mem.get s.bonded b) ∧
         (∀ j, j < 512 → Mem.get t.bonded (a + j) = src.getD j 0) ∧ (t.block (a / 512)).good = true ∧ ∀ k, t.core k = s.core k)) ∧
     (CanStart s ring seq 0xD f →
       (s.tableOver d = true → Answers (.tableWrite ring seq []) s (fun t => Decided s t f 1 0 0x7001#16 ∧ t.bonded = s.bonded)) ∧
       (s.tableOver d = false → s.tableEnd d ≤ bondedTop s.split → bits d 223 208 ≠ 0 → bits d 129 128 < 3 →
         Answers (.tableWrite ring seq []) s (fun t => t.flight ring seq = some { f with stage := .running } ∧ t.bonded = s.bonded ∧
           t.link = { s.link with toComp := s.link.toComp ++
             [.rdNc (bits d 287 224) (recordSize (bits d 129 128) * bits d 223 208 / 64) own] }))) ∧
     (∀ src, ring < 128 → s.flight ring seq = some f → f.stage = .running → famOf d = 0xD → f.ready = false → bits d 129 128 = 1 →
       bits d 223 208 = 1 → src.length = 512 →
       (let c := globalAddr s.split l (512 * s.curveBase.toNat + 512 * bits d 207 192)
        Answers (.tableWrite ring seq src) s (fun t => t.flight ring seq = some { f with ready := true } ∧
          (∀ b, (b < c ∨ c + 512 ≤ b) → Mem.get t.bonded b = Mem.get s.bonded b) ∧
          (∀ j, j < 512 → Mem.get t.bonded (c + j) = src.getD j 0) ∧ (t.block (c / 512)).tag = 0#32 ∧ ∀ k, t.core k = s.core k))))

/-- Starts of the descriptors that run on the array. A load whose checks pass stands ready with its program, and one that
fails a check is REFUSED with its code; a step or pass whose checks pass waits for its start, with the program's seed in
every core it covers; one that names no loaded program is REFUSED with STEP:0x001 (R166, R349 to R351, R486). -/
def Obligations.ProgramsLoadAndStart : Prop :=
  ∀ (ring : Nat) (seq : BitVec 32) (s : State) (f : Flight),
    (let d := f.words
     let l := s.lead f.wing
     (∀ img, CanStart s ring seq 1 f → s.wingEmpty f.wing = true →
       (∀ code, s.loadRefusal f img = some code → Answers (.programLoad ring seq img) s (fun t =>
         Decided s t f 1 0 code ∧ t.bonded = s.bonded ∧ (∀ k, t.core k = s.core k) ∧ (t.wing l).progs = (s.wing l).progs)) ∧
       (s.loadRefusal f img = none → s.overflow f.wing img = none → s.trespass f.wing (bits d 159 128) img = none →
         s.imageBad f.wing d = none → Answers (.programLoad ring seq img) s (fun t =>
           (t.wing l).loading = some (bits d 159 128,
             { image := img, seed := BitVec.ofNat 64 (bits d 351 288), wing := f.wing }) ∧
           (t.wing l).progs = (s.wing l).progs.filter (fun p => p.1 != bits d 159 128) ∧
           (∃ g, t.flight ring seq = some g ∧ g.ready = true ∧ g.stage = .running) ∧ (t.wing l).epoch = (s.wing l).epoch + 1))) ∧
     (let starts (i : Instr) (isPass : Bool) : Prop :=
        (s.prog l (dHandle d) = none → Answers i s (fun t => Decided s t f 1 0 0x7001#16 ∧ ∀ k, t.core k = s.core k)) ∧
        (∀ p x, s.startRefusal f = none → s.prog l (dHandle d) = some p → s.schedOf l (dHandle d) (dSel d) = some x →
          hasPatches p.image = false → Answers i s (fun t =>
            (t.wing l).run = some { ring := ring, seq := seq, handle := dHandle d, sel := dSel d } ∧
            (t.wing l).power.startWaits = true ∧ t.flight ring seq = some { f with stage := .running } ∧ t.bonded = s.bonded ∧
            (∀ c ∈ imgCores p.image, (t.core (s.named l c)).arith.srSeed = p.seed ∧
              (isPass = false → (t.core (s.named l c)).arith.srStep = dStep d)) ∧
            (isPass = false → (t.wing l).pass = (s.wing l).pass) ∧
            (isPass = true → ∃ q, (t.wing l).pass = some q ∧ q.ring = ring ∧ q.seq = seq ∧ q.prologue = false ∧ q.done = 0)))
      (CanStart s ring seq 2 f → starts (.stepRun ring seq) false) ∧
      (∀ n, CanStart s ring seq 3 f → starts (.update ring seq n) true) ∧
      (CanStart s ring seq 4 f → starts (.rootRefresh ring seq) true)))

/-- DUMP_SYNC of a snapshot that is not held writes the header alone, 512 bytes, and reports STATUS 1; REFORM asks for its
mode, or is REFUSED with STEP:0x008 where whole-wafer mode is unavailable; a TEST_WINDOW puts its wing into level mode with
the window of its descriptor, and ends its tests with the next command; the commit point commits a descriptor whose work is
done, and with it the run of a step, and does nothing before (R277 to R279, R355, R379, R403, R404). -/
def Obligations.OtherDescriptorsAct : Prop :=
  ∀ (ring : Nat) (seq : BitVec 32) (s : State) (f : Flight),
    (let d := f.words
     let l := s.lead f.wing
     let a := globalAddr s.split l (bits d 255 192)
     (CanStart s ring seq 0xB f → bit d 129 = false → (s.wing l).snapValid = false → bits d 255 192 % 512 = 0 →
       (let head := dumpHeader false s.split l (s.wing l).snapFault (s.wing l).snapStep
        (bit d 128 = false → bits d 255 192 + dumpSize s.split ≤ bondedTop s.split → Memory.wf s.bonded = true →
          Answers (.dumpSync ring seq) s (fun t =>
            t.flight ring seq = some { f with stage := .running, ready := true, status := 1 } ∧
            (∀ b, (b < a ∨ a + 512 ≤ b) → Mem.get t.bonded b = Mem.get s.bonded b) ∧
            (∀ j, j < 512 → Mem.get t.bonded (a + j) = head.getD j 0) ∧ ∀ k, t.core k = s.core k)) ∧
        (bit d 128 = true → Answers (.dumpSync ring seq) s (fun t =>
          t.flight ring seq = some { f with stage := .running, ready := true, status := 1 } ∧ t.bonded = s.bonded ∧
          t.link = { s.link with toComp := s.link.toComp ++ [.wrNc (bits d 255 192) head (.flight ring seq)] })))) ∧
     (CanStart s ring seq 0xC f →
       (bits d 129 128 = 1 → s.wholeAvail = false → Answers (.reform ring seq) s (fun t => Decided s t f 1 0 0x7008#16)) ∧
       (¬(bits d 129 128 = 1 ∧ s.wholeAvail = false) → Answers (.reform ring seq) s (fun t =>
         t.flight ring seq = some { f with stage := .running } ∧ ∃ r, (t.wing l).reform = some r ∧ r.phase = 0 ∧ r.byRing = ring ∧
           r.bySeq = seq ∧ r.byDesc = true ∧
           r.toSplit = (if bits d 129 128 = 0 then s.split else decide (bits d 129 128 ≠ 1)) ∧ r.asked = (r.toSplit != s.split)))) ∧
     (∀ rs, CanStart s ring seq 9 f → Answers (.testWindow ring seq rs) s (fun t =>
       ((t.wing l).level = true ∧ t.flight ring seq = some { f with stage := .running } ∧
         ∃ v, (t.wing l).window = some v ∧ v.ring = ring ∧ v.seq = seq ∧
           v.due = bit d 128 ∧ v.full = bit d 129 ∧ v.observed = bit d 130 ∧ v.pack = bit d 131 ∧ v.mask = bits d 207 160 ∧
           v.budgetMs = bits d 223 208 ∧ ((∀ r ∈ rs, failsTest r.result = false) → v.found = false)) ∨
       ∃ w, w < 2 ∧ (s.wing w).phase ≠ 10 ∧ (t.wing w).phase = 10)) ∧
     (∀ v rs, ring < 128 → s.flight ring seq = some f → f.stage = .running → famOf d = 9 → (s.wing l).window = some v →
       (f.ready = false → Answers (.testWindow ring seq rs) s (fun t => t.flight ring seq = some { f with ready := true } ∨
         ∃ w, w < 2 ∧ (s.wing w).phase ≠ 10 ∧ (t.wing w).phase = 10)) ∧
       (f.ready = true → exec (.testWindow ring seq rs) s = .next s)) ∧
     (ring < 128 → s.flight ring seq = some f →
       (s.commits f = false → exec (.commitPoint ring seq) s = .next s) ∧
       (s.commits f = true → famOf d ≠ 4 → Answers (.commitPoint ring seq) s (fun t => ∃ st, Decided s t f 0 st 0 ∧
         (famOf d ≠ 9 → st = f.status) ∧ (∀ v, famOf d = 9 → (s.wing l).window = some v → st = v.status)))) ∧
     (ring < 128 → s.flight ring seq = some f → f.stage = .running → f.ready = true →
       s.link.toComp.any (ownMsg ring seq) = false →
       ((famOf d = 6 ∨ famOf d = 0xB ∨ famOf d = 0xD) → Answers (.commitPoint ring seq) s (fun t =>
         Decided s t f 0 f.status 0 ∧ t.bonded = s.bonded ∧ ∀ k, t.core k = s.core k)) ∧
       (famOf d = 2 → s.writesAcked l = true → s.stepRuns l = true → Answers (.commitPoint ring seq) s (fun t =>
         Decided s t f 0 f.status 0 ∧ (t.wing l).run = none ∧ (t.wing l).lastCommitted = true ∧ t.bonded = s.bonded))))

/-! ### The optical fabric (R304 to R326) -/

/-- Ports train by phases: TRAIN in phase 4 gives the partner's identity and the version 1, or without a common version leaves the
port down with LINK:0x404; a phase that passes is followed by the next, at whose fourth the port sends its own TRAIN frame, and the
last brings the port up with 256 credits of each class; one that fails leaves it down with no version, to train again. A port
that is up and loses its partner fails with LINK:0x402, and an idle spare is down; the ports of a laser input that goes dark fail
with LINK:0x403, and may train once it is lit again; DEGRADED follows the re-send rate of a window (R305, R306, R311 to R313). -/
def Obligations.PortsTrainAndFail : Prop :=
  (∀ (p : Nat) (s : State), p < 80 →
    (let x := s.port p
     let only (t : State) (y : Port) : Prop := ({ t with ports := s.ports } : State) = s ∧ (∀ q, q ≠ p → t.port q = s.port q) ∧ t.port p = y
     let down : Port := { x with stat := .down, phase := 0, linkVersion := 0 }
     (∀ i : TrainInfo,
       (x.stat = .training → x.phase = 4 →
         (i.version = 0 → Answers (.train p i) s (fun t => only t { down with errCode := 0x404#12, errFlow := 0 })) ∧
         (i.version ≠ 0 → 25000 < i.roundTripNs → Answers (.train p i) s (fun t => only t down)) ∧
         (i.version ≠ 0 → i.roundTripNs ≤ 25000 → Answers (.train p i) s (fun t => only t { x with
           partnerDev := i.dev, partnerPort := i.port, partnerSwitch := i.switch, linkVersion := 1 }))) ∧
       ((x.stat ≠ .training ∨ x.phase ≠ 4) → exec (.train p i) s = .next s)) ∧
     (∀ i : TrainPhase,
       (let passed : Prop := i.ok = true ∧ i.roundTripNs ≤ 25000 ∧ (x.phase = 3 → i.failedFrames ≤ 1) ∧ (x.phase = 4 → x.linkVersion ≠ 0)
        (x.stat = .training → x.laserOk = true →
          (¬passed → Answers (.portTrainPhase p i) s (fun t => only t down)) ∧
          (passed → x.phase < 3 → Answers (.portTrainPhase p i) s (fun t => only t { x with phase := x.phase + 1 })) ∧
          (passed → x.phase = 3 → Answers (.portTrainPhase p i) s (fun t => ({ t with ports := s.ports } : State) = s ∧
            (∀ q, q ≠ p → t.port q = s.port q) ∧ (t.port p).phase = 4 ∧ (t.port p).stat = .training ∧
            (let id := (s.fab (s.portLead p)).id.toNat
             slotFrame (t.port p).slotOut = mkFrame 3 5 0xFFFFF id 1 0 0 0 0 0 (Config.trainBytes id p i.roundTripNs)))) ∧
          (passed → x.phase = 4 → Answers (.portTrainPhase p i) s (fun t => ({ t with ports := s.ports } : State) = s ∧
            (t.port p).stat = (if x.bound then .up else .idleSpare) ∧ (t.port p).replay = [] ∧ (t.port p).next = 0 ∧
            (t.port p).expect = 0 ∧ (∀ c, c < 4 → (t.port p).credit c = 256) ∧ ∀ q, q ≠ p → t.port q = s.port q))) ∧
        ((x.stat ≠ .training ∨ x.laserOk = false) → exec (.portTrainPhase p i) s = .next s))) ∧
     (s.portsStarted p = true → x.laserOk = true → (x.stat = .down ∨ x.stat = .failed) →
       Answers (.portTrainRetry p) s (fun t => only t { x with stat := .training, phase := 1, linkVersion := 0 })) ∧
     ((s.portsStarted p = false ∨ x.laserOk = false ∨ (x.stat ≠ .down ∧ x.stat ≠ .failed)) → exec (.portTrainRetry p) s = .next s) ∧
     (x.stat = .up → Answers (.portLost p) s (fun t => (t.port p).stat = .failed ∧ (t.port p).errCode = 0x402#12 ∧
       (t.port p).linkVersion = 0)) ∧
     (x.stat = .idleSpare → Answers (.portLost p) s (fun t => only t down)) ∧
     (x.stat ≠ .up → x.stat ≠ .idleSpare → exec (.portLost p) s = .next s) ∧
     (let deg := if x.winFrames < 1000000 * x.winResends then true else if 1000000 * x.winResends < x.winFrames then false
        else x.degraded && x.winResends != 0
      Answers (.degradedWindow p) s (fun t => only t { x with degraded := deg, winFrames := 0, winResends := 0 })))) ∧
  (∀ (l : Nat) (s : State), l < 10 →
    Answers (.laserLost l) s (fun t => (∀ q, (t.port q).laserOk = (decide (q / 8 ≠ l) && (s.port q).laserOk)) ∧
      ∀ q, q / 8 = l → (t.port q).stat = match (s.port q).stat with
        | .up => .failed
        | .training => .failed
        | .idleSpare => .down
        | x => x) ∧
    Answers (.laserInputRestored l) s (fun t => ({ t with ports := s.ports } : State) = s ∧
      (∀ q, q / 8 ≠ l → t.port q = s.port q) ∧ ∀ q, q / 8 = l → (t.port q).laserOk = true ∧
        ((t.port q).stat = .training ∨ (t.port q).stat = (s.port q).stat)))

/-- The link layer of a port. A data slot that fails its CRC counts and is answered with a re-send request; so is one beyond a gap;
one taken before is acknowledged again. A frame in sequence counts, is acknowledged, and waits at the device that it names; one for
another device goes on with one hop less, or is dropped where no hop is left; a malformed one is discarded and recorded as
LINK:0x40B. A link field drops the frames that it acknowledges, sends again those for which it asks, and returns credits, of which
too many fail the port with LINK:0x401. With no answer every unanswered frame is sent again, and the eighth failed attempt of one
fails the port (R309 to R311, R316). -/
def Obligations.PortsExchangeFrames : Prop :=
  ∀ (p : Nat) (s : State), p < 80 →
    (let x := s.port p
     let w := s.portLead p
     let others (t : State) : Prop := ∀ q, q ≠ p → t.port q = s.port q
     let only (t : State) : Prop := ({ t with ports := s.ports } : State) = s ∧ others t
     let answers (t : State) (nak : Bool) (q : BitVec 16) : Prop := (t.port p).answer = none ∧
       bits (portSaid x (t.port p)) 17 17 = 1 ∧ bit (portSaid x (t.port p)) 18 = nak ∧ bits (portSaid x (t.port p)) 35 20 = q.toNat
     (x.live = false → (∀ a, exec (.frameReceive p a) s = .next s) ∧ (∀ l c, exec (.linkStatusWord p l c) s = .next s) ∧
       exec (.frameResendTimeout p) s = .next s) ∧
     (x.live = true → ∀ a, slotCrcOk a = false → Answers (.frameReceive p a) s (fun t => only t ∧
       (t.port p).badFrames = (satAdd x.badFrames x.badSat 1).1 ∧ answers t true x.expect ∧ (t.port p).expect = x.expect ∧
       (t.port p).framesRx = x.framesRx)) ∧
     (x.live = true → ∀ a, slotCrcOk a = true → bits (slotLink a) 17 16 = 0 → bits (slotLink a) 67 36 = 0 → x.waiting = [] →
       (∀ c, c < 4 → x.credit c ≤ 256) →
       (let q : BitVec 16 := BitVec.ofNat 16 (bits (slotLink a) 15 0)
        let f := slotFrame a
        let counted (t : State) : Prop := (t.port p).expect = x.expect + 1 ∧ answers t false x.expect ∧
          (t.port p).framesRx = (satAdd x.framesRx x.rxSat 1).1
        let good : Prop := q = x.expect ∧ linkBad (slotLink a) = false ∧ frMalformed f = false ∧ ¬(frKind f = 5 ∧ frCls f = 3)
        (q ≠ x.expect → (x.expect - q).toNat ≤ 2048 → Answers (.frameReceive p a) s (fun t => only t ∧ answers t false (x.expect - 1) ∧
          (t.port p).expect = x.expect ∧ (t.port p).framesRx = x.framesRx)) ∧
        (q ≠ x.expect → 2048 < (x.expect - q).toNat → Answers (.frameReceive p a) s (fun t => only t ∧ answers t true x.expect ∧
          (t.port p).expect = x.expect ∧ (t.port p).framesRx = x.framesRx)) ∧
        (q = x.expect → (linkBad (slotLink a) = true ∨ frMalformed f = true) → s.isDevice w (frSrc f) = false →
          Answers (.frameReceive p a) s (fun t => counted t ∧ others t ∧ (t.port p).errCode = 0x40B#12 ∧
            (t.port p).errFlow = BitVec.ofNat 24 (frFlow f) ∧ (t.fab w).inbox = (s.fab w).inbox)) ∧
        (q = x.expect → linkBad (slotLink a) = false → frMalformed f = false → frKind f = 5 → frCls f = 3 →
          Answers (.frameReceive p a) s (fun t => counted t ∧ only t)) ∧
        (good → s.isDevice w (frDest f) = true → Answers (.frameReceive p a) s (fun t => counted t ∧ others t ∧
          (t.fab w).inbox = (s.fab w).inbox ++ [(some p, f)])) ∧
        (good → s.isDevice w (frDest f) = false → frHops f ≤ 1 → Answers (.frameReceive p a) s (fun t => counted t ∧ only t ∧
          (t.port p).drops = (satAdd x.drops x.dropSat 1).1)) ∧
        (good → s.isDevice w (frDest f) = false → 1 < frHops f → (s.fab w).hasId = true → s.split = false →
          (let g := withHops f (frHops f - 1)
           ∀ r, r ≠ p → s.pickPort w g = some r → Answers (.frameReceive p a) s (fun t => counted t ∧
             ({ t with ports := s.ports } : State) = s ∧ ((∃ e ∈ (t.port r).replay, e.2.1 = g) ∨ g ∈ (t.port r).waiting)))))) ∧
     (x.live = true → ∀ (l : BitVec 96) (c : BitVec 32), crc32c (toBytes 12 l.toNat) ≠ c → exec (.linkStatusWord p l c) s = .next s) ∧
     (x.live = true → x.waiting = [] → ∀ l : BitVec 96,
       (let sum (k : Nat) : Nat := x.credit k + bits l (43 + 8 * k) (36 + 8 * k)
        let i : Instr := .linkStatusWord p l (crc32c (toBytes 12 l.toNat))
        let credited (t : State) : Prop := ∀ k, k < 4 → (t.port p).credit k = sum k
        ((∀ k, k < 4 → sum k ≤ 256) →
          (bits l 17 17 = 0 → Answers i s (fun t => only t ∧ (t.port p).replay = x.replay ∧ credited t)) ∧
          (∀ q y n rest, x.replay = (q, y, n) :: rest → BitVec.ofNat 16 (bits l 35 20) = q →
            (bits l 18 17 = 1 → Answers i s (fun t => only t ∧ (t.port p).replay = rest ∧ credited t)) ∧
            (bits l 18 17 = 3 → x.replay.length ≤ 2048 → (∀ e ∈ x.replay, e.2.2 < 7) → Answers i s (fun t => only t ∧ credited t ∧
              (t.port p).replay = x.replay.map (fun e => (e.1, e.2.1, e.2.2 + 1)))))) ∧
        ((∃ k, k < 4 ∧ 256 < sum k) → bits l 17 17 = 0 → Answers i s (fun t => (t.port p).stat = .failed ∧
          (t.port p).errCode = 0x401#12)))) ∧
     (x.live = true → (x.replay = [] → exec (.frameResendTimeout p) s = .next s) ∧
       (x.replay ≠ [] → (∀ e ∈ x.replay, e.2.2 < 7) → Answers (.frameResendTimeout p) s (fun t => only t ∧
         (t.port p).replay = x.replay.map (fun e => (e.1, e.2.1, e.2.2 + 1)) ∧
         (t.port p).resends = (satAdd x.resends x.resendSat x.replay.length).1 ∧ (t.port p).stat = x.stat)) ∧
       ((∃ e ∈ x.replay, 7 ≤ e.2.2) → Answers (.frameResendTimeout p) s (fun t => (t.port p).stat = .failed ∧
         (t.port p).errCode = 0x401#12 ∧ (t.port p).resends = x.resends))))

/-- Frames of flows, once taken up. A GRANT gives its stream the base sequence and its tiles, and waits for a stream that has not
started; STREAM_DATA places its block as an arrival of its stream; a second frame of a number, or one beyond the grants, ends the
step with LINK:0x406, and one of no open flow is stale. BULK_DATA of a state block with a mirror's tag one lower is written with
its TAG, and of a group entry in its place; the mirror's count and its refusal reach the pass; an ABANDON closes the pass at a
mirror, and ends a collective with LINK:0x40D; and a flow that has been silent ends its collective, or its step, with LINK:0x408.
The frame leaves the inbox (R146, R298, R317 to R319). -/
def Obligations.FlowFramesAct : Prop :=
  ∀ (w : Nat) (s : State) (f : Frame) (q : Option Nat), w < 2 →
    (let waits (cls kind : Nat) : Prop := frCls f = cls ∧ frKind f = kind ∧ frE2eOk f = true ∧
       (s.fab w).inbox.find? (fun e => e.2 == f) = some (q, f)
     let taken (t : State) : Prop := (t.fab w).inbox = (s.fab w).inbox.erase (q, f)
     let coresStay (t : State) : Prop := ∀ k, t.core k = s.core k
     let stale (i : Instr) : Prop := Answers i s (fun t => taken t ∧ coresStay t ∧ t.bonded = s.bonded ∧ t.flights = s.flights ∧
       ∀ p, q = some p → (t.port p).stale = (satAdd (s.port p).stale (s.port p).staleSat 1).1)
     let ends (i : Instr) : Prop := ∀ g, s.runningArray (s.lead w) = some g → s.flight g.ring g.seq = some g →
       s.flowOp w (frFlow f) (frSrc f) = some (g.ring, g.seq.toNat) → s.stepRuns w = true →
       Answers i s (fun t => StepEnds w s t 0x1406#16 (if q = none then 5 else 3) (q.getD (frSrc f)))
     (∀ k (slot : BitVec 3), validCore k = true → wingOf k = w → waits 3 4 →
       (let x := (s.core k).slot slot.toNat
        ((s.core k).extSlot slot.toNat 5 f = false → exec (.grant k slot f) s = .next s) ∧
        ((s.core k).extSlot slot.toNat 5 f = true →
          (x.granted ≠ 0 → frSeq f < x.baseSeq → stale (.grant k slot f)) ∧
          (x.granted = 0 ∨ x.baseSeq ≤ frSeq f →
            (x.grantSeen.contains (frSeq f) = true → ends (.grant k slot f)) ∧
            (x.grantSeen.contains (frSeq f) = false →
              Answers (.grant k slot f) s (fun t => taken t ∧ (∀ c, c ≠ k → t.core c = s.core c) ∧
                (t.core k).slot slot.toNat = { x with
                  baseSeq := if x.granted = 0 then f.payload.toNat % 2 ^ 32 else x.baseSeq
                  granted := x.granted + f.payload.toNat / 2 ^ 32 % 2 ^ 32
                  grantSeen := frSeq f :: x.grantSeen })))))) ∧
     (∀ k (slot : BitVec 3), validCore k = true → wingOf k = w → waits 1 0 →
       (let c := s.core k
        let x := c.slot slot.toNat
        let b := frSeq f - x.baseSeq
        (c.extSlot slot.toNat 4 f = false →
          ((s.wing w).extFlows.contains (frSrc f, frFlow f) = true → exec (.streamData k slot f) s = .next s) ∧
          ((s.wing w).extFlows.contains (frSrc f, frFlow f) = false → stale (.streamData k slot f))) ∧
        (c.extSlot slot.toNat 4 f = true → frSeq f < x.baseSeq → stale (.streamData k slot f)) ∧
        (c.extSlot slot.toNat 4 f = true → x.baseSeq ≤ frSeq f → (x.grantedBlocks ≤ b ∨ x.extSeen.contains b = true) →
          ends (.streamData k slot f)) ∧
        (c.extSlot slot.toNat 4 f = true → c.flow.sink = false → x.baseSeq ≤ frSeq f → b < x.grantedBlocks → x.extSeen.contains b = false →
          (let y : DmaSlot := { x with extSeen := b :: x.extSeen }
           let cur := iter (fun (k : Cursor) => k.next (dLocal x.desc)) (frAddr f / 512) {}
           let c1 := (c.setSlot slot.toNat y).takeRead slot.toNat c.now { y with desc := dLocal x.desc } cur (toBytes 512 f.payload.toNat)
           let c2 := c1.setSlot slot.toNat { c1.slot slot.toNat with desc := x.desc }
           let placed (z : Core) : Prop := Answers (.streamData k slot f) s (fun t => taken t ∧ (∀ j, j ≠ k → t.core j = s.core j) ∧
             t.core k = z.settleSlot slot.toNat)
           ((c1.slot slot.toNat).usable ≤ x.usable → placed c2) ∧
           (x.usable < (c1.slot slot.toNat).usable → ∀ c3, c2.addProd slot.toNat 1 = (c3, none) → placed c3))))) ∧
     (∀ m a, waits 2 0 → (s.fab w).mirrorFor f = some m → m.seen.contains (frSeq f) = false → m.total = none → m.refused = false →
       s.mirrorAddr f = some a → Memory.wf s.bonded = true →
       (let g := globalAddr s.split w a
        let kept (t : State) : Prop := ∃ n ∈ (t.fab w).mirrors, n.isOf f = true ∧ n.skew = m.skew ∧ n.seen = frSeq f :: m.seen
        (a % 512 = 0 → frLen8 f = 64 → (s.block (g / 512)).good = true → (s.block (g / 512)).tag.toNat + 1 = frAux0 f →
          Answers (.bulkData w f) s (fun t => taken t ∧
            (∀ b, (b < g ∨ g + 512 ≤ b) → Mem.get t.bonded b = Mem.get s.bonded b) ∧
            (∀ j, j < 512 → (Mem.get t.bonded (g + j)).toNat = f.payload.toNat / 256 ^ j % 256) ∧
            (t.block (g / 512)).tag.toNat = frAux0 f ∧ kept t)) ∧
        (a % 64 = 0 → frLen8 f = 8 → (s.block (g / 512)).good = true → Answers (.bulkData w f) s (fun t => taken t ∧
          (∀ b, (b < g ∨ g + 64 ≤ b) → Mem.get t.bonded b = Mem.get s.bonded b) ∧
          (∀ j, j < 64 → (Mem.get t.bonded (g + j)).toNat = f.payload.toNat / 256 ^ j % 256) ∧
          (t.block (g / 512)).tag = (s.block (g / 512)).tag ∧ (t.block (g / 512)).good = true ∧ kept t)) ∧
        (frLen8 f = 0 → (∃ k, k < frSeq f ∧ m.seen.contains k = false) → Answers (.bulkData w f) s (fun t => taken t ∧
          t.bonded = s.bonded ∧ ∃ n ∈ (t.fab w).mirrors, n.isOf f = true ∧ n.total = some (frSeq f) ∧ n.returned = m.returned)))) ∧
     (waits 2 0 → (s.fab w).mirrorFor f = none → stale (.bulkData w f)) ∧
     (∀ g p, waits 2 1 → s.mirrored w f = some (g, p) → s.lead g.wing = s.lead w → p.returned = false →
       (let back : Pass := { p with returned := true, counts := { p.counts with mirrorSkew := f.payload.toNat % 2 ^ 32 } }
        (p.ended = false → Answers (.bulkReturn w f) s (fun t => taken t ∧ (t.wing (s.lead w)).pass = some back)) ∧
        (p.ended = true → p.resultSent = false → bit g.words 258 = false → Answers (.bulkReturn w f) s (fun t => taken t ∧
          (t.wing (s.lead w)).pass = some { back with resultSent := true } ∧
          ∃ h, t.flight g.ring g.seq = some h ∧ h.ready = true)))) ∧
     (waits 2 1 → s.mirrored w f = none → stale (.bulkReturn w f)) ∧
     (∀ g p, waits 2 2 → s.mirrored w f = some (g, p) → s.stepRuns w = true →
       (s.runningArray (s.lead w)).isSome = true → Answers (.bulkRefusal w f) s (fun t =>
         t.mapFault = 0x6007#16 ∧ t.mapDevice = BitVec.ofNat 20 (frSrc f) ∧ (t.wing (s.lead w)).pass = none ∧
         StepEnds w s t 0x6007#16 5 (frSrc f))) ∧
     (waits 2 2 → s.mirrored w f = none → stale (.bulkRefusal w f)) ∧
     (waits 3 2 → s.flowOp w (frFlow f) (frSrc f) = none →
       ((s.fab w).mirrors.any (fun m => m.isOf f && !m.closed) = true →
         Answers (.abandon w f) s (fun t => taken t ∧ ∀ m ∈ (t.fab w).mirrors, m.isOf f = true → m.closed = true)) ∧
       ((s.fab w).mirrors.any (fun m => m.isOf f && !m.closed) = false → stale (.abandon w f))) ∧
     (∀ g, waits 3 2 → s.flowOp w (frFlow f) (frSrc f) = some (g.ring, g.seq.toNat) → s.flight g.ring g.seq = some g →
       g.cls = .gateway → Answers (.abandon w f) s (fun t => Decided s t g 2 0 0x140D#16 ∧ coresStay t)) ∧
     (∀ flow : BitVec 24,
       (∀ c g, (s.fab w).colls.find? (fun c => c.collId == flow.toNat) = some c → s.flight c.ring c.seq = some g → g.cls = .gateway →
         (g.ready = false → Answers (.fabricTimeout w flow) s (fun t => Decided s t g 2 0 0x1408#16 ∧ t.bonded = s.bonded ∧ coresStay t)) ∧
         (g.ready = true → exec (.fabricTimeout w flow) s = .next s)) ∧
       ((s.fab w).colls.find? (fun c => c.collId == flow.toNat) = none →
         (let flows := (s.wings (s.lead w)).flatMap (fun v => (s.wing v).extFlows)
          (∀ e, flows.find? (fun e => e.2 == flow.toNat) = some e → Answers (.fabricTimeout w flow) s (fun t =>
            StepEnds w s t 0x1408#16 5 e.1)) ∧
          (∀ p g, flows.find? (fun e => e.2 == flow.toNat) = none → (s.wing (s.lead w)).pass = some p → s.flight p.ring p.seq = some g →
            bit g.words 256 = true → p.ended = true → p.returned = false → bits g.words 159 128 % 2 ^ 24 = flow.toNat →
            Answers (.fabricTimeout w flow) s (fun t => StepEnds w s t 0x1408#16 5 (bits g.words 279 260))) ∧
          (flows.find? (fun e => e.2 == flow.toNat) = none → (s.wing (s.lead w)).pass = none →
            exec (.fabricTimeout w flow) s = .next s)))))

/-- Collectives: one whose device has no identifier is REFUSED with LINK:0x40C, and one whose group breaks R321 with STEP:0x001; one
that starts is open and sends START to each peer. A START of a peer is noted, and waits for a collective that is not yet open; one
that differs ends the collective with LINK:0x409; with the last START the exchange begins. Needs that arrive raise those held to
their maximum, and wait until the exchange has begun; a unit of an all-gather that arrives is written at its place, and a part of a
sum is held until every rank has sent its own; data wait until the anchors are agreed, and a second frame of a number ends the
collective with LINK:0x406. A notice of a fall of pace makes the wing follow the point that it gives, one of its end lets it go, and
a collective that has sent one repeats it to every other member, or ends with LINK:0x407 where no port is up (R320 to R326). -/
def Obligations.CollectiveFramesAct : Prop :=
  (∀ (ring : Nat) (seq : BitVec 32) (s : State) (f : Flight), CanStart s ring seq 5 f → s.split = false →
    (let d := f.words
     let a := bits d 399 352
     let n := bits d 414 400
     let me := (s.fab f.wing).id.toNat
     bits d 239 192 + (collRanges d).1 ≤ bondedTop false → bits d 303 256 + (collRanges d).2 ≤ bondedTop false →
     a + 4 * n ≤ bondedTop false →
     ((s.fab f.wing).hasId = false → Answers (.collective ring seq) s (fun t => Decided s t f 1 0 0x140C#16)) ∧
     (∀ bs ids, (s.fab f.wing).hasId = true → s.readBonded f.wing a (4 * n) = .ok bs → ids = (chunks 4 n bs).map ofBytes →
       (groupBad me ids = true → Answers (.collective ring seq) s (fun t => Decided s t f 1 0 0x7001#16)) ∧
       (groupBad me ids = false → (bits d 131 128 = 3 → overlaps (bits d 239 192) (collRanges d).1 (bits d 303 256) (collRanges d).2 = false) →
         (s.fab f.wing).colls.any (fun x => x.ring == ring && x.seq == seq) = false →
         (let c := newColl f ids me (crc32c bs) (s.wing (s.lead f.wing)).paceCount.toNat
          let start (dev : Nat) := s.mgmt f.wing 1 dev c.collId 0 c.startBytes
          (∀ dev ∈ c.peers, (s.pickPort f.wing (start dev)).isSome = true) → Answers (.collective ring seq) s (fun t =>
            (t.fab f.wing).colls = (s.fab f.wing).colls ++ [c] ∧ t.flight ring seq = some { f with stage := .running } ∧
            (∀ dev ∈ c.peers, ∀ p, s.pickPort f.wing (start dev) = some p →
              (∃ e ∈ (t.port p).replay, e.2.1 = start dev) ∨ start dev ∈ (t.port p).waiting) ∧ t.bonded = s.bonded)))))) ∧
  (∀ (w : Nat) (s : State) (f : Frame) (q : Option Nat), w < 2 → frE2eOk f = true →
    (s.fab w).inbox.find? (fun e => e.2 == f) = some (q, f) →
    (let taken (t : State) : Prop := (t.fab w).inbox = (s.fab w).inbox.erase (q, f)
     let coresStay (t : State) : Prop := ∀ k, t.core k = s.core k
     let stale (i : Instr) : Prop := Answers i s (fun t => taken t ∧ coresStay t ∧ t.bonded = s.bonded ∧ t.flights = s.flights)
     (frCls f = 3 → frKind f = 1 → (s.fab w).colls.find? (fun c => c.collId == frFlow f) = none →
       ((s.fab w).ended.contains (frFlow f) = false → exec (.startFrame w f) s = .next s) ∧
       ((s.fab w).ended.contains (frFlow f) = true → stale (.startFrame w f))) ∧
     (s.openColl w f = none → (frCls f = 0 → frKind f = 1 → stale (.collAnchor w f)) ∧
       (frCls f = 0 → frKind f = 0 → stale (.collData w f)) ∧ (frCls f = 3 → frKind f = 3 → stale (.paceNotice w f))) ∧
     (∀ c g, frCls f = 3 → frKind f = 1 → (s.fab w).colls.find? (fun c => c.collId == frFlow f) = some c →
       s.flight c.ring c.seq = some g → g.cls = .gateway → s.lead g.wing = s.lead w →
       (let me : Coll := { c with started := frSrc f :: c.started }
        (toBytes 24 f.payload.toNat ≠ c.startBytes → Answers (.startFrame w f) s (fun t => Decided s t g 2 0 0x1409#16 ∧ coresStay t)) ∧
        (toBytes 24 f.payload.toNat = c.startBytes →
          (c.peers.contains (frSrc f) = false → stale (.startFrame w f)) ∧
          (c.peers.contains (frSrc f) = true → c.started.contains (frSrc f) = false →
            (∃ p ∈ c.peers, p ≠ frSrc f ∧ c.started.contains p = false) →
            Answers (.startFrame w f) s (fun t => taken t ∧ me ∈ (t.fab w).colls ∧ coresStay t)) ∧
          (c.peers.contains (frSrc f) = true → c.started.contains (frSrc f) = false → (∀ p ∈ c.peers, p = frSrc f ∨ c.started.contains p = true) →
            c.op = 3 → c.rank ≠ c.root → c.moving = false → c.seen = [] → (∃ r ∈ c.others, c.dataFrom r ≠ 0) →
            Answers (.startFrame w f) s (fun t => taken t ∧ coresStay t ∧
              ∃ x ∈ (t.fab w).colls, x = { me with exchanging := true, moving := true, sent := x.sent }))))) ∧
     (∀ g c r, s.openColl w f = some (g, c, r) → s.lead g.wing = s.lead w →
       (let ends (i : Instr) (code : Code) : Prop := g.cls = .gateway → s.flowOp w (frFlow f) (frSrc f) = some (g.ring, g.seq.toNat) →
          s.flight g.ring g.seq = some g → Answers i s (fun t => Decided s t g 2 0 code ∧ coresStay t)
        (frCls f = 0 → frKind f = 1 →
          (c.exchanging = false → exec (.collAnchor w f) s = .next s) ∧
          (c.exchanging = true → c.take r (frSeq f) 0 (c.anchorsFrom r) = none → ends (.collAnchor w f) 0x1406#16) ∧
          (∀ c1, c.exchanging = true → c.direct = true → c.moving = false →
            c.take r (frSeq f) 0 (c.anchorsFrom r) = some c1 → c1.anchored = false → Answers (.collAnchor w f) s (fun t => taken t ∧
              ∃ x ∈ (t.fab w).colls, x = { c1 with needs := x.needs } ∧
                ∀ i, i < min 256 (c.blocks - 256 * (frAddr f / 16384)) →
                  Map.get (-32768) x.needs (256 * (frAddr f / 16384) + i) =
                    max (Map.get (-32768) c.needs (256 * (frAddr f / 16384) + i))
                      (BitVec.ofNat 16 (f.payload.toNat / 2 ^ (16 * i))).toInt))) ∧
        (frCls f = 0 → frKind f = 0 →
          (c.moving = false → exec (.collData w f) s = .next s) ∧
          (c.moving = true → c.take r (frSeq f) (c.anchorsFrom r) (c.dataFrom r) = none → ends (.collData w f) 0x1406#16) ∧
          (∀ c1, c.moving = true → c.take r (frSeq f) (c.anchorsFrom r) (c.dataFrom r) = some c1 →
            (c.isUnit (frAddr f) = false → ends (.collData w f) 0x1406#16) ∧
            (c.isUnit (frAddr f) = true → c.direct = true → c.op = 1 → g.wing = w → c.owner (c.shardOf (frAddr f)) ≠ c.rank →
              c.unitLen (frAddr f) = 512 → (c.dst + frAddr f) % 512 = 0 → Memory.wf s.bonded = true →
              (let b := globalAddr s.split w (c.dst + frAddr f)
               Answers (.collData w f) s (fun t => taken t ∧
                 (∀ a, (a < b ∨ b + 512 ≤ a) → Mem.get t.bonded a = Mem.get s.bonded a) ∧
                 (∀ j, j < 512 → (Mem.get t.bonded (b + j)).toNat = f.payload.toNat / 256 ^ j % 256) ∧
                 (t.block (b / 512)).good = true ∧ coresStay t))) ∧
            (∀ u own, c.isUnit (frAddr f) = true → c.direct = true → c.reduces = true → c.shardOf (frAddr f) = c.rank →
              s.collOwn g c (frAddr f) = .ok (u, own) → (Map.get [] c.held (frAddr f)).length + 2 < c.n → c1.done = false →
              (s.fab w).colls = [c] → Answers (.collData w f) s (fun t => taken t ∧ t.bonded = s.bonded ∧ coresStay t ∧
                ∃ x, (t.fab w).colls = [x] ∧ x = { c1 with held := x.held } ∧
                  Map.get [] x.held (frAddr f) = Map.get [] c.held (frAddr f) ++ [(r, c.arrived (frAddr f) f)])))) ∧
        (frCls f = 3 → frKind f = 3 →
          (c.follow = false → stale (.paceNotice w f)) ∧
          (c.follow = true → (s.fab w).colls = [c] →
            (f.payload.toNat / 2 ^ 40 % 2 = 0 → Answers (.paceNotice w f) s (fun t => taken t ∧ (t.wing (s.lead w)).power.following = true ∧
              (t.wing (s.lead w)).power.followOp = BitVec.ofNat 3 (pointFor (f.payload.toNat % 2 ^ 32)) ∧ coresStay t)) ∧
            (f.payload.toNat / 2 ^ 40 % 2 = 1 → Answers (.paceNotice w f) s (fun t => taken t ∧
              (t.wing (s.lead w)).power.following = false ∧ coresStay t)))))))) ∧
  (∀ (w : Nat) (s : State), w < 2 → s.split = false → (s.fab w).hasId = true →
    (let x := s.wing (s.lead w)
     let told := (s.fab w).colls.filter (fun c => c.noticed)
     let notice (c : Coll) (r : Nat) := s.mgmt w 3 (c.device r) c.collId 0 (noticeBytes x.paceCount.toNat x.power.current false)
     ((∀ c ∈ told, (s.flight c.ring c.seq).isSome = true ∧ ∀ r ∈ c.others, (s.pickPort w (notice c r)).isSome = true) →
       Answers (.paceNoticeRepeat w) s (fun t => ({ t with ports := s.ports } : State) = s ∧
         ∀ c ∈ told, ∀ r ∈ c.others, ∀ p, s.pickPort w (notice c r) = some p →
           (∃ e ∈ (t.port p).replay, e.2.1 = notice c r) ∨ notice c r ∈ (t.port p).waiting)) ∧
     (∀ c r g, told = [c] → c.others = [r] → s.flight c.ring c.seq = some g → g.cls = .gateway → s.pickPort w (notice c r) = none →
       Answers (.paceNoticeRepeat w) s (fun t => Decided s t g 2 0 0x1407#16 ∧ ∀ k, t.core k = s.core k))))

/-! ### Power, cooling and flow (R410 to R426) -/

/-- A power sample is the product of voltage and current: it is the newest of the last 100, adds to the count and the energy,
and at every hundredth the 1 ms power is the mean of the last 100 samples; 50 ms after phase 1 starts, which is 5,000 samples, the
plinth controllers answer the sideband (R457); the clusters' own powers that come with it are kept (R412). A
control period moves V_common by at most
5 mV, never below 460 mV, and lowers it above the floor whenever the 1 ms power exceeds the peak limit or the budget, and does
nothing before the rails have first risen (R411, R413, R414). A tick of 1 ms raises the throttle of a hot cluster by 5 mV while its voltage lies above the floor (R421); the
board's current limit cuts V_common by 20 mV, to no less than the floor (R425). -/
def Obligations.PowerIsMeasuredAndHeld : Prop :=
  ∀ s : State,
    (s.powered = true →
      (∀ (v i : BitVec 16) (l : List (Nat × BitVec 16 × BitVec 16)), (l.map (·.1)).Nodup → Answers (.powerSample v i l) s (fun t =>
        t.power.vin = v ∧ t.power.iin = i ∧ t.power.samples = (v.toNat * i.toNat :: s.power.samples).take 100 ∧
        t.sb = { s.sb with plinthReady := s.sb.plinthReady || Nat.ble 5000 t.power.count } ∧
        t.power.count = s.power.count + 1 ∧ t.power.energy = s.power.energy + v.toNat * i.toNat ∧
        (t.power.count % 100 ≠ 0 → t.power.ms = s.power.ms) ∧
        (t.power.count % 100 = 0 → t.power.ms.head? = some (t.power.samples.sum / t.power.samples.length)) ∧
        (∀ e ∈ l, e.1 < 48 → t.cluster e.1 = { s.cluster e.1 with powerW := e.2.1, ballastW := e.2.2 }) ∧
        (∀ n, (∀ e ∈ l, e.1 ≠ n) → t.cluster n = s.cluster n) ∧ t.bonded = s.bonded ∧ ∀ k, t.core k = s.core k)) ∧
      (∀ w, w < 2 → (s.wing (s.lead w)).power.vCommon < 460 → exec (.controlPeriod w) s = .next s) ∧
      (∀ w, w < 2 → 460 ≤ (s.wing (s.lead w)).power.vCommon →
        (let v := (s.wing (s.lead w)).power.vCommon
         Answers (.controlPeriod w) s (fun t =>
           (let y := (t.wing (s.lead w)).power.vCommon
            460 ≤ y ∧ y ≤ v + 5 ∧ v - 5 ≤ y ∧
            ((s.peak (s.lead w) < s.wing1ms (s.lead w) ∨ s.budget (s.lead w) < s.wing1ms (s.lead w)) → y = max 460 (v - 5))) ∧
           (t.wing (s.lead w)).power.prefOp = (s.wing (s.lead w)).power.prefOp ∧ t.clusters = s.clusters ∧ t.bonded = s.bonded ∧
           ∀ k, t.core k = s.core k))) ∧
      Answers .throttleTick s (fun t => ({ t with clusters := s.clusters } : State) = s ∧
        ∀ n x, (n, x) ∈ s.clusters → ∃ y, (n, y) ∈ t.clusters ∧ y.balance = x.balance ∧ y.tmax = x.tmax ∧
          (95 ≤ x.tmax → 460 < s.domainMv n → x.throttle < 400 → y.throttle = x.throttle + 5) ∧
          (92 < x.tmax → x.tmax < 95 → y.throttle = x.throttle) ∧
          (x.tmax ≤ 92 → 0 < x.throttle → 9 ≤ x.coolTicks → y.throttle = x.throttle - 5)) ∧
      Answers .currentLimit s (fun t => ∀ w, w < 2 → (t.wing w).power.limit = 6 ∧
        (let v := (s.wing w).power.vCommon
         (t.wing w).power.vCommon = if v < 480 then min v 460 else v - 20) ∧
        ({ t with west := s.west, east := s.east } : State) = s)) ∧
    (s.powered = false →
      (∀ v i l, exec (.powerSample v i l) s = .next s) ∧ exec .throttleTick s = .next s ∧ exec .currentLimit s = .next s)

/-- Sensors. A cluster takes the highest of its valid readings as TMAX, and 95 where fewer than 4 are valid; a sensor judged invalid is
recorded with THERMAL:0x002 and ATTN. At 105 degrees or more its region goes off
with THERMAL:0x001 and ends a running step, and comes back when it has been cool for 100 ms; at 115 degrees, or still at 105 after 500 readings, the module trips:
every rail is off, THERM_TRIP_N is asserted, and no record is posted (R420, R422, R423, R457). Loss of coolant flow after the
capstone stops compute with FLOW:0x001 and ends a running step; an input fault drops every compute rail with POWER:0x001 or
0x002, a failing domain its own with POWER:0x003. Flow and input that return release their stop, and absent flow for 60 s
puts the wings that wait for it in FAILED with FLOW:0x002 (R369, R424 to R426). Where both wings may run a step, each one's
end is stated for a ring that serves its wing alone, as every ring does (R340). -/
def Obligations.SensorsAndSuppliesProtect : Prop :=
  (∀ (s : State) (l : List (Nat × List Int)), s.powered = true → (l.map (·.1)).Nodup → (∀ e ∈ l, e.1 < 48) →
    (let inv (e : Nat × List Int) : BitVec 16 := judge (s.cluster e.1).invalid e.2
     let valid (e : Nat × List Int) : List Int := validReadings (inv e) e.2
     let hot (e : Nat × List Int) : Prop := ∃ r ∈ valid e, 105 ≤ r
     let trips (e : Nat × List Int) : Prop := (∃ r ∈ valid e, 115 ≤ r) ∨
       (hot e ∧ (s.cluster e.1).regionOff = true ∧ 500 ≤ (s.cluster e.1).offReads + 1)
     let read (e : Nat × List Int) (y : Cluster) : Prop := y.invalid = inv e ∧
       ((valid e).length < 4 → y.tmax = 95) ∧ (4 ≤ (valid e).length → y.tmax ∈ valid e ∧ ∀ r ∈ valid e, r ≤ y.tmax)
     ((∀ e ∈ l, ¬ hot e) → Answers (.sensorRead l) s (fun t =>
       (∀ e ∈ l, read e (t.cluster e.1) ∧ (t.cluster e.1).regionOff = (s.cluster e.1).regionOff) ∧
       (∀ m, (∀ e ∈ l, e.1 ≠ m) → t.cluster m = s.cluster m) ∧ t.bonded = s.bonded ∧ t.flights = s.flights ∧
       (∀ k, t.core k = s.core k) ∧
       ((∀ e ∈ l, inv e = (s.cluster e.1).invalid) → ({ t with clusters := s.clusters } : State) = s) ∧
       (∀ e ∈ l, inv e ≠ (s.cluster e.1).invalid → t.power.lastFault = 0xA002#16 ∧
         (t.wing (wingOfCluster e.1)).attn = true ∧ t.pins.attn = true))) ∧
     ((∀ e ∈ l, ¬ trips e) → Answers (.sensorRead l) s (fun t => t.power.tripped = s.power.tripped ∧
       ∀ e ∈ l, read e (t.cluster e.1) ∧ (hot e → (t.cluster e.1).regionOff = true) ∧
         (¬ hot e → (t.cluster e.1).regionOff = (s.cluster e.1).regionOff))) ∧
     (∀ e, l = [e] → hot e → ¬ trips e →
       ((s.cluster e.1).regionOff = false → Answers (.sensorRead l) s (fun t => (t.cluster e.1).regionOff = true ∧
         (t.cluster e.1).invalid = inv e ∧ t.power.lastFault = 0xA001#16 ∧ t.power.errCluster = BitVec.ofNat 6 e.1 ∧
         StepEnds (wingOfCluster e.1) s t 0xA001#16 2 e.1 ∧ s.power.tripped = t.power.tripped)) ∧
       ((s.cluster e.1).regionOff = true → Answers (.sensorRead l) s (fun t => read e (t.cluster e.1) ∧
         (t.cluster e.1).regionOff = true ∧ (t.cluster e.1).offReads = (s.cluster e.1).offReads + 1 ∧ t.flights = s.flights ∧
         ∀ k, t.core k = s.core k))) ∧
     ((∃ e ∈ l, trips e) → Answers (.sensorRead l) s (fun t => t.power.tripped = true ∧
       t.pins.thermTrip = true ∧ t.flights = [] ∧ t.bonded = [] ∧ t.link.up = false ∧ (t.west.phase = 0 ∧ t.east.phase = 0) ∧
       t.health.spall = s.health.spall ∧ (∀ m, t.railOn m = false) ∧ t.cq = [] ∧ t.sec.ledger = s.sec.ledger)))) ∧
  (∀ (s : State) (l : List (Nat × List Int)), s.powered = false → exec (.sensorRead l) s = .next s) ∧
  (∀ (n : Nat) (s : State), n < 48 → s.powered = true → (s.cluster n).regionOff = true →
    (1000 ≤ (s.cluster n).coolReads → Answers (.regionRestore n) s (fun t => (t.cluster n).regionOff = false ∧
      (t.cluster n).throttle = 100 ∧ (s.railOn n = false → t.railOn n = true → (t.cluster n).balance = 0) ∧
      ∀ k, t.core k = s.core k)) ∧
    ((s.cluster n).coolReads < 1000 → exec (.regionRestore n) s = .next s)) ∧
  (∀ (n : Nat) (s : State), n < 48 → (s.powered = false ∨ (s.cluster n).regionOff = false) →
    exec (.regionRestore n) s = .next s) ∧
  (∀ s : State, s.powered = true →
     ((s.capstoned = true ∨ s.west.phase = 7 ∨ s.east.phase = 7) → s.power.flowStop = false → Answers .flowLost s (fun t =>
       t.pins.flowOk = false ∧ t.power.flowStop = true ∧ t.power.lastFault = 0xB001#16 ∧ (∀ n, t.railOn n = false) ∧
       (∀ w, w < 2 → (t.wing w).power.ballast = 0 ∧ (RingApart w s → (s.wing w).phase = 7 → StepEnds w s t 0xB001#16 0 0)))) ∧
     (s.capstoned = false → s.west.phase ≠ 7 → s.east.phase ≠ 7 → Answers .flowLost s (fun t => t.pins.flowOk = false ∧ t.power = s.power ∧
       ∀ w, w < 2 → ((s.wing w).phase = 5 → (t.wing w).phase = 11) ∧ ((s.wing w).phase < 5 → (t.wing w).phase = (s.wing w).phase))) ∧
     ((s.pins.flowOk = false ∨ s.power.flowStop = false) → exec .flowRestore s = .next s) ∧
     ((s.pins.flowOk = true ∨ (s.power.flowStop = false ∧ ∀ w, w < 2 → (s.wing w).phase ≠ 11)) →
       exec .flowWaitTimeout s = .next s) ∧
     (s.power.inputFault = false → exec .inputRestore s = .next s) ∧
     (∀ n, n < 48 → (s.cluster n).railUp = false → exec (.railFault n) s = .next s) ∧
     (s.pins.flowOk = true → s.power.flowStop = true → Answers .flowRestore s (fun t => t.power = { s.power with flowStop := false } ∧
       (∀ n, s.railOn n = false → t.railOn n = true → (t.cluster n).balance = 0) ∧ ∀ k, t.core k = s.core k)) ∧
     (s.pins.flowOk = false → (∃ w, w < 2 ∧ (s.wing w).phase = 11) → Answers .flowWaitTimeout s (fun t =>
       t.power.lastFault = 0xB002#16 ∧ ∀ w, w < 2 → (s.wing w).phase = 11 →
         (t.wing w).phase = 10 ∧ (t.wing w).failCode = 0xB002#16 ∧ (t.wing w).attn = true)) ∧
     (let fails (i : Instr) (code : Code) : Prop := Answers i s (fun t => t.power.inputFault = true ∧ t.power.lastFault = code ∧
        t.power.errCluster = 0 ∧ (∀ n, t.railOn n = false) ∧ ∀ w, w < 2 → RingApart w s → StepEnds w s t code 0 0)
      fails .inputRange 0x9001#16 ∧ fails .inputOvercurrent 0x9002#16) ∧
     (∀ n, n < 48 → (s.cluster n).railUp = true → Answers (.railFault n) s (fun t => (t.cluster n).railFault = true ∧
       t.railOn n = false ∧ t.power.lastFault = 0x9003#16 ∧ t.power.errCluster = BitVec.ofNat 6 n ∧
       (t.wing (s.lead (wingOfCluster n))).bTests.any (fun u => u.1 == .vdomain n) = true ∧
       StepEnds (wingOfCluster n) s t 0x9003#16 2 n)) ∧
     (s.power.inputFault = true → Answers .inputRestore s (fun t => t.power = { s.power with inputFault := false } ∧
       (∀ n, s.railOn n = false → t.railOn n = true → (t.cluster n).balance = 0) ∧ ∀ k, t.core k = s.core k)))

/-! ### Pins, bring-up, re-form and tests (R363 to R405, R451 to R453) -/

/-- COLD_RST_N asserted, PWR_OK deasserted and the loss of the housekeeping supply leave the module without work: nothing in
flight, no section, program or record, bonded memory cleared, every wing in reset; the spall map, the ledger and the fuse
counts stay. The deassertion starts cold bring-up at phase 1 where PWR_OK is asserted; FLOW_OK_N lets waiting wings go on,
and the housekeeping supply resets the sideband registers as it comes up (R363, R367, R369, R451 to R453, R459). -/
def Obligations.PinsControlTheModule : Prop :=
  ∀ s : State,
    (let off (i : Instr) : Prop := Answers i s (fun t => t.flights = [] ∧ t.cq = [] ∧ t.sq = [] ∧ t.bonded = [] ∧ t.side = [] ∧
       t.link.up = false ∧ (∀ w, w < 2 → (t.wing w).phase = 0 ∧ (t.wing w).cores = [] ∧ (t.wing w).progs = [] ∧ (t.wing w).attn = false) ∧
       (∀ k, (t.core k).mem.on = 0 ∧ (t.core k).mem.retained = 0) ∧ t.pins.attn = false ∧ t.health.spall = s.health.spall ∧
       t.sec.ledger = s.sec.ledger ∧ s.sec.slot0.svn = t.sec.slot0.svn ∧
       (s.sec.running = none → t.sec.identGen = s.sec.identGen ∧ t.sec.floor = s.sec.floor ∧ t.sec.debugTrans = s.sec.debugTrans))
     off .coldRstAssert ∧ (s.pins.pwrOk = true → off .pwrOkDeassert) ∧ off .housekeepingSupplyFail ∧
     (s.pins.housekeeping = false → off .housekeepingUp)) ∧
    Answers .coldRstAssert s (fun t => t.pins = { s.pins with coldRst := true, thermTrip := false, attn := false }) ∧
    Answers .housekeepingSupplyFail s (fun t => t.pins.housekeeping = false ∧ t.pins.thermTrip = false ∧ t.sb = {}) ∧
    (s.pins.housekeeping = false → Answers .housekeepingUp s (fun t => t.pins.housekeeping = true ∧ t.sb = {} ∧ t.tap.ir = .idcode)) ∧
    (s.pins.pwrOk = true → Answers .pwrOkDeassert s (fun t => t.pins.pwrOk = false ∧ t.power.tripped = s.power.tripped)) ∧
    (s.pins.housekeeping = true → exec .pwrOkAssert s = .next { s with pins := { s.pins with pwrOk := true } } ∧
      exec .housekeepingUp s = .next s) ∧
    (s.pins.housekeeping = false → exec .pwrOkAssert s = .next s) ∧ (s.pins.pwrOk = false → exec .pwrOkDeassert s = .next s) ∧
    (s.pins.coldRst = true → s.pins.pwrOk = true → s.pins.housekeeping = true → Answers .coldRstDeassert s (fun t =>
      t.pins = { s.pins with coldRst := false } ∧ t.sb.plinthReady = false ∧ t.sec.unlockPending = false ∧
      ∀ w, w < 2 → (t.wing w).phase = 1 ∧ (t.wing w).lastKind = 1)) ∧
    ((s.pins.coldRst = false ∨ s.pins.pwrOk = false ∨ s.pins.housekeeping = false) →
      exec .coldRstDeassert s = .next { s with pins := { s.pins with coldRst := false } }) ∧
    Answers .flowOkAssert s (fun t => t.pins = { s.pins with flowOk := true } ∧ ∀ w, w < 2 →
      ((s.wing w).phase ≠ 11 → t.wing w = s.wing w) ∧
      ((s.wing w).phase = 11 → (s.wing w).warmPhase = 0 → (s.wing w).reform = none → t.wing w = { s.wing w with phase := 5 }))

/-- Bring-up goes from phase to phase as its work ends, or to FAILED where its tests leave a wing no use: phase 1 once both wings have
verified their candidates, phase 2 once the pace is measured, phase 4 once every bound port is up or at its bound, phase 5 with coolant flow,
for which it waits, and phase 6 with the core firmware in every core. A warm reset after the first capstone discards everything in flight and starts at warm phase 1; warm
phase 2 turns every section off; a re-form that is due, or that a REFORM asks for, starts at its phase 1 once its wings have drained, moves through its phases and
ends in a new epoch and the mode that it forms; its REFORM commits with STATUS at the capstone. At the capstone the wing leaves level
mode unless a test window is open, coupling is released, every beat counter is 0 and PHASE reads 7 (R363 to R371, R374 to R378). -/
def Obligations.BringUpRunsItsPhases : Prop :=
  (∀ (w dur : Nat) (fw : List Nat) (rs : List TestReport) (s : State), w < 2 →
    (let x := s.wing w
     let done (p q : Nat) : Prop := Answers (.coldPhase w dur fw rs) s (fun t =>
       ((t.wing w).phase = BitVec.ofNat 4 q ∨ (t.wing w).phase = 10) ∧ Map.get 0 (t.wing w).times p = min dur 0x3FF)
     (s.capstoned = false →
       (x.phase = 1 → done 1 (if (s.wing (1 - w)).fwVerified.isSome then 2 else 1) ∧
         Answers (.coldPhase w dur fw rs) s (fun t => (t.wing w).fwVerified = some fw ∧
           ((s.wing (1 - w)).fwVerified = none → (t.wing w).phase = 1))) ∧
       (x.phase = 2 → x.paceValid = true → done 2 3) ∧ (x.phase = 3 → done 3 4) ∧
       (x.phase = 5 → s.pins.flowOk = true → done 5 6)) ∧
     (x.phase = 2 → x.paceValid = false → exec (.coldPhase w dur fw rs) s = .next s) ∧
     (x.phase = 4 → (∀ l, l < 64 → wingOfGateway l = w → (s.physPort l).isSome = true → s.portUp l = true) → done 4 (if s.pins.flowOk then 5 else 11)) ∧
     (x.phase = 4 → (∃ l, l < 64 ∧ wingOfGateway l = w ∧ (s.physPort l).isSome = true ∧ s.portUp l = false) → exec (.coldPhase w dur fw rs) s = .next s) ∧
     (x.phase = 5 → s.pins.flowOk = false → Answers (.coldPhase w dur fw rs) s (fun t => (t.wing w).phase = 11 ∧
       ∀ k, t.core k = s.core k)) ∧
     (x.phase = 6 → x.capDue = false → Answers (.coldPhase w dur fw rs) s (fun t =>
       ((t.wing w).capDue = true ∨ (t.wing w).phase = 10) ∧
       ∀ k, wingOf k = w → (t.core k).control = some (s.measurement 1))) ∧
     ((x.phase = 6 ∧ x.capDue = true) ∨ x.phase = 0 ∨ 6 < x.phase.toNat → exec (.coldPhase w dur fw rs) s = .next s) ∧
     (x.phase = 4 → Answers (.portPhaseEnd w) s (fun t => (t.wing w).phase = (if s.pins.flowOk then 5 else 11) ∧
       (∀ k, t.core k = s.core k) ∧ t.bonded = s.bonded)) ∧
     (x.phase ≠ 4 → exec (.portPhaseEnd w) s = .next s))) ∧
  (∀ s : State, s.capstoned = true → s.pins.housekeeping = true → s.pins.pwrOk = true → s.pins.coldRst = false → s.power.tripped = false →
    Answers .warmRstAssert s (fun t => t.flights = [] ∧ (∀ w, w < 2 → (s.wing w).phase ≠ 10 →
      (t.wing w).phase = 8 ∧ (t.wing w).warmPhase = 1 ∧ (t.wing w).lastKind = 2 ∧ (t.wing w).coupled = false ∧ (t.wing w).run = none ∧
      (t.wing w).halted = false) ∧ t.health.spall = s.health.spall ∧ t.bonded = s.bonded ∧ t.link.up = s.link.up)) ∧
  (∀ s : State, (s.capstoned = false ∨ s.pins.housekeeping = false ∨ s.pins.pwrOk = false ∨ s.pins.coldRst = true ∨
      s.power.tripped = true) → exec .warmRstAssert s = .next s) ∧
  (∀ (w : Nat) (rs : List TestReport) (s : State), w < 2 →
    ((s.wing (s.lead w)).phase ≠ 8 → exec (.warmPhase w rs) s = .next s) ∧
    ((s.wing (s.lead w)).phase = 8 →
      ((s.wing (s.lead w)).warmPhase = 1 → Answers (.warmPhase w rs) s (fun t => (t.wing (s.lead w)).warmPhase = 2 ∧ t.bonded = s.bonded)) ∧
      ((s.wing (s.lead w)).warmPhase = 2 → Answers (.warmPhase w rs) s (fun t => (t.wing (s.lead w)).warmPhase = 3 ∧
        (t.wing (s.lead w)).epoch = 0 ∧ (t.wing (s.lead w)).level = true ∧ t.bonded = s.bonded ∧
        ∀ k, wingOf k = s.lead w → (t.core k).mem.on = 0 ∧ (t.core k).mem.retained = 0 ∧ (t.core k).flow.epoch = 0 ∧
          (t.core k).snap = (s.core k).snap)) ∧
      ((s.wing (s.lead w)).warmPhase = 3 → Answers (.warmPhase w rs) s (fun t => (t.wing (s.lead w)).warmPhase = 4 ∧
        (t.wing (s.lead w)).phase = (if s.pins.flowOk then 8 else 11) ∧ t.bonded = s.bonded ∧ ∀ k, t.core k = s.core k)) ∧
      ((s.wing (s.lead w)).warmPhase = 4 → s.pins.flowOk = true → Answers (.warmPhase w rs) s (fun t =>
        ((t.wing (s.lead w)).warmPhase = 5 ∧ (t.wing (s.lead w)).phase = 8) ∨ (t.wing (s.lead w)).phase = 10)) ∧
      ((s.wing (s.lead w)).warmPhase = 4 → s.pins.flowOk = false → Answers (.warmPhase w rs) s (fun t =>
        (t.wing (s.lead w)).phase = 11 ∧ ∀ k, t.core k = s.core k)) ∧
      ((s.wing (s.lead w)).warmPhase = 5 → Answers (.warmPhase w rs) s (fun t => (t.wing (s.lead w)).capDue = true)))) ∧
  (∀ (w : Nat) (s : State), w < 2 →
    (let l := s.lead w
     let x := s.wing l
     let idle : Prop := ∀ v, v < 2 → (s.wing v).drain = none ∧ (s.wing v).run = none ∧ (s.wing v).pass = none
     (x.phase ≠ 7 ∨ (x.reform = none ∧ x.reformDue = none) → exec (.reformStart w) s = .next s) ∧
     (∀ r, x.reform = some r → r.byDesc = true → s.drainedWings (s.reformWings l r) = false →
       exec (.reformStart w) s = .next s) ∧
     (∀ code, x.phase = 7 → x.reform = none → x.reformDue = some code → x.window = none → idle →
       Answers (.reformStart w) s (fun t => (t.wing l).phase = 9 ∧ (t.wing l).lastKind = 3 ∧
         (t.wing l).coupled = false ∧ (x.queuesLost = false → (t.wing l).drainCause = 3) ∧
         (∃ r, (t.wing l).reform = some r ∧ r.phase = 1 ∧ r.cause = code ∧ r.toSplit = s.split) ∧
         (∀ f ∈ t.flights, f.wing ≠ l) ∧ t.bonded = s.bonded)) ∧
     (∀ r, x.phase = 7 → x.reform = some r → r.phase = 0 → r.byDesc = true → x.window = none → idle →
       Answers (.reformStart w) s (fun t => (t.wing l).phase = 9 ∧ (t.wing l).lastKind = (if r.asked then 5 else 4) ∧
         (t.wing l).coupled = false ∧ (x.queuesLost = false → (t.wing l).drainCause = 3) ∧
         (t.wing l).reform = some { r with phase := 1 } ∧ t.flight r.byRing r.bySeq = s.flight r.byRing r.bySeq ∧
         (∀ f ∈ t.flights, f.wing ≠ l ∨ (f.ring = r.byRing ∧ f.seq = r.bySeq)) ∧ t.bonded = s.bonded)))) ∧
  (∀ (w : Nat) (rs : List TestReport) (kats : List Kat) (s : State), w < 2 →
    (let l := s.lead w
     ((s.wing l).phase ≠ 9 ∨ (s.wing l).capDue = true ∨ (s.wing l).reform = none → exec (.reformPhase w rs kats) s = .next s) ∧
     (∀ r, (s.wing l).phase = 9 → (s.wing l).capDue = false → (s.wing l).reform = some r →
       ((r.phase = 1 ∨ r.phase = 2) → Answers (.reformPhase w rs kats) s (fun t => (t.wing l).reform = some { r with phase := r.phase + 1 } ∧
         (t.wing l).level = true ∧ (∀ k, t.core k = s.core k) ∧ t.bonded = s.bonded)) ∧
       ((r.phase = 3 ∨ (r.phase = 4 ∧ s.pins.flowOk = true) ∨ r.phase = 5) → Answers (.reformPhase w rs kats) s (fun t =>
         (t.wing l).phase = 10 ∨ ∃ q, (t.wing l).reform = some q ∧ q.phase = r.phase + 1)) ∧
       (r.phase = 4 → s.pins.flowOk = false → Answers (.reformPhase w rs kats) s (fun t => (t.wing l).phase = 11 ∧
         (t.wing l).reform = some r ∧ ∀ k, t.core k = s.core k)) ∧
       (r.phase = 6 → Answers (.reformPhase w rs kats) s (fun t => (t.wing l).capDue = true ∧ t.split = r.toSplit ∧
         (t.wing l).epoch = (if s.split && r.toSplit then (s.wing l).epoch else s.west.epoch) + 1 ∧ t.bonded = s.bonded))))) ∧
  (∀ (w ms : Nat) (s : State), w < 2 →
    (let l := s.lead w
     (s.capReady l = false → (s.seamFailed = false ∨ s.split = true) → exec (.capstone w ms) s = .next s) ∧
     (s.seamFailed = true → Answers (.capstone w ms) s (fun t => t.split = true)) ∧
     (s.capReady l = true → Answers (.capstone w ms) s (fun t => t.capstoned = true ∧
       (∀ v, v ∈ s.wings l → (t.wing v).phase = 7 ∧ (t.wing v).level = (s.wing v).window.isSome ∧ (t.wing v).coupled = true ∧
         (t.wing v).windowTag = 0 ∧ (t.wing v).elapsed.toNat = min ms 0x3FFF ∧
         ∀ k, wingOf k = v → (t.core k).pace.beat = 0 ∧ (t.core k).flow.epoch = (s.wing v).epoch ∧ (t.core k).mem = (s.core k).mem) ∧
       (((s.wing l).reform = none ∨ ∃ r, (s.wing l).reform = some r ∧ r.byDesc = false) → t.flights = s.flights) ∧
       ∀ r f, (s.wing l).reform = some r → r.byDesc = true → s.flight r.byRing r.bySeq = some f → Decided s t f 0 r.status 0))))

/-- A step boundary ends the wait that an array outcome opened, runs the tests that wait for it, counts, and lets a pending debug halt
take effect. A core's
test falls due TEST_PERIOD_H hours after its last one. The first failed wire group of a unit takes the spare and enters the spall map; a second one of a seam unit ends the running
steps with LINK:0x004, and of a unit inside a wing loses its cluster's geometry, with which the wing enters FAILED. A test window whose budget runs out starts no further test (R29, R30, R382, R389, R398, R400, R404, R476). -/
def Obligations.TestsFallDue : Prop :=
  (∀ (w : Nat) (rs : List TestReport) (s : State), w < 2 →
    (let x := s.wing (s.lead w)
     ((x.boundaryDue = false ∧ x.bTests = []) ∨ x.phase ≠ 7 ∨ x.reformDue.isSome = true ∨ x.drain.isSome = true ∨
       (s.runningArray (s.lead w)).isSome = true → exec (.stepBoundary w rs) s = .next s) ∧
     ((x.boundaryDue = true ∨ x.bTests ≠ []) → x.phase = 7 → x.reformDue = none → x.drain = none →
       (s.runningArray (s.lead w)).isNone = true →
       Answers (.stepBoundary w rs) s (fun t => (t.wing (s.lead w)).boundaryDue = false ∧ (t.wing (s.lead w)).bTests = [] ∧
         (t.wing (s.lead w)).boundaryRun = false ∧
         (t.wing (s.lead w)).boundaries.toNat = (if x.boundaryDue then min (x.boundaries.toNat + 1) 0xFFFFFFFF else x.boundaries.toNat) ∧
         (t.wing (s.lead w)).halted = (x.halted || x.haltPending) ∧ (t.wing (s.lead w)).haltPending = false ∧
         (x.bTests = [] → x.boundaryRun = false → s.health.autoTest = false → rs = [] →
           t.health = s.health ∧ t.bonded = s.bonded ∧ t.flights = s.flights ∧ ∀ k, t.core k = s.core k))))) ∧
  (∀ (k : Nat) (s : State), validCore k = true →
    (let period := 3600 * (if s.health.period = 0 then 24 else s.health.period.toNat)
     ((s.core k).health.lastTest + period ≤ s.power.count / 100000 → Answers (.testDue k) s (fun t =>
       OneCore k s t { s.core k with health := { (s.core k).health with testDue := true } })) ∧
     (s.power.count / 100000 < (s.core k).health.lastTest + period → exec (.testDue k) s = .next s))) ∧
  (∀ (u : TestUnit) (g : BitVec 3) (s : State),
    (let e := s.health.entry u
     let seam := seamUnit (unitKey u).1 (unitKey u).2
     (wireUnit u = false → exec (.wireGroupFailure u g) s = .next s) ∧
     (wireUnit u = true → e.spared = false → (unitKey u).2 < 2 ^ 24 →
       Answers (.wireGroupFailure u g) s (fun t => ({ t with health := s.health } : State) = s ∧
         ∃ x ∈ t.health.spall, spallNum x = unitNum u ∧ x.detail.toNat % 8 = g.toNat ∧ x.state = e.state ∧ x.spared = true)) ∧
     (wireUnit u = true → e.spared = true →
       ((e.detail.toNat % 8 = g.toNat ∨ e.state = 2) → exec (.wireGroupFailure u g) s = .next s) ∧
       (e.detail.toNat % 8 ≠ g.toNat → e.state ≠ 2 →
         (seam = true → Answers (.wireGroupFailure u g) s (fun t => t.health.spall = s.health.spall ∧
           ∀ w, w < 2 → RingApart w s → StepEnds w s t 0x1004#16 0 0)) ∧
         (seam = false → (s.wing (s.unitWing u)).phase ≠ 10 → Answers (.wireGroupFailure u g) s (fun t =>
           (t.cluster (bits (BitVec.ofNat 24 (unitKey u).2) 19 8)).geomLost = true ∧ (t.wing (s.unitWing u)).phase = 10 ∧
           (t.wing (s.unitWing u)).failCode = 0x3021#16 ∧ (t.wing (s.unitWing u)).attn = true)))))) ∧
  (∀ (w : Nat) (s : State) (v : WindowRun), w < 2 → (s.wing (s.lead w)).window = some v → v.budgetMs ≠ 0 →
    Answers (.testBudgetExpiry w) s (fun t => (t.wing (s.lead w)).window = some { v with expired := true } ∧
      (∀ k, t.core k = s.core k) ∧ t.bonded = s.bonded))

/-- An overdue test: once a core's test has been due for more than a further period, CORE:0x023 is logged, and once only
while it lasts in its wing, and the wing's ATTN is set. -/
def Obligations.OverdueTestIsRecorded : Prop :=
  ∀ (k : Nat) (s : State), validCore k = true → (s.core k).health.testDue = true →
    (s.core k).health.lastTest + 2 * (3600 * (if s.health.period = 0 then 24 else s.health.period.toNat)) < s.power.count / 100000 →
    ((s.wing (wingOf k)).overdue = false → Answers (.testOverdue k) s (fun t =>
      (t.wing (wingOf k)).overdue = true ∧ (t.wing (wingOf k)).attn = true ∧ t.pins.attn = true ∧
      t.health.lastEvent = 0x3023#16 ∧ (∃ e, Map.get none (t.health.log.map (fun e => (e.1, some e.2))) t.health.newest.toNat = some e ∧
        e.code = 0x3023#16) ∧ t.health.written = (satAdd s.health.written s.health.writtenSat 1).1 ∧ ∀ c, t.core c = s.core c)) ∧
    ((s.wing (wingOf k)).overdue = true → exec (.testOverdue k) s = .next s)

/-! ### Security (R430 to R446) -/

/-- A security operation of Table 16.4 that is accepted runs, one at a time, and takes effect when it is done: the counts of
fuses rise by its change, with an entry in the ledger, and locking debug releases every halt; an install leaves its slot or its pack, and an attestation its
report. One that is not accepted changes nothing but its state and code, and one that comes while another runs shows BUSY (R436, R437, R441 to R445). -/
def Obligations.SecurityOperationsRun : Prop :=
  ∀ s : State,
    (let x := s.sec
     let secOnly (t : State) : Prop := ({ t with sec := s.sec } : State) = s
     let runs (i : Instr) (op : SecOp) : Prop := Answers i s (fun t => secOnly t ∧ t.sec.cmdState = 1 ∧ t.sec.running = some op ∧
       t.sec.identGen = x.identGen ∧ t.sec.floor = x.floor ∧ t.sec.debugTrans = x.debugTrans ∧ t.sec.ledger = x.ledger)
     (x.running = none →
       (∀ i, checkImage .bundle x.floor i = none → Answers (.fwInstall i) s (fun t => secOnly t ∧ t.sec.fwState = 2 ∧
         (t.sec.slot (!x.active)).state = 0 ∧ t.sec.slot x.active = x.slot x.active ∧ ∃ a b c d, t.sec.running = some (.fwInstall a b c d))) ∧
       (∀ i c, checkImage .bundle x.floor i = some c →
         exec (.fwInstall i) s = .next { s with sec := { x with fwState := 4, fwFault := c } }) ∧
       (∀ i c, checkImage .pack 0 i = some c →
         exec (.packInstall i) s = .next { s with pack := { s.pack with state := 4, fault := c } }) ∧
       (∀ i, checkImage .pack 0 i = none → imgId i = s.pack.activeId.toNat →
         exec (.packInstall i) s = .next { s with pack := { s.pack with state := 4, fault := 0xC002#16 } }) ∧
       (∀ i, checkImage .pack 0 i = none → imgId i ≠ s.pack.activeId.toNat → Answers (.packInstall i) s (fun t =>
         ({ t with sec := s.sec, pack := s.pack } : State) = s ∧ t.pack.state = 2 ∧ t.pack.activeId = s.pack.activeId ∧
         ∃ a b, t.sec.running = some (.packInstall a b))) ∧
       ((x.slot (!x.active)).state = 1 → Answers .armTrial s (fun t => secOnly t ∧ t.sec.cmdState = 2 ∧
         t.sec.trialMark = some (!x.active))) ∧
       ((x.slot (!x.active)).state ≠ 1 → Answers .armTrial s (fun t => secOnly t ∧ t.sec.cmdState = 3 ∧ t.sec.cmdFault = 0xC002#16 ∧
         t.sec.trialMark = x.trialMark)) ∧
       (∀ n : Byte, x.floor < n.toNat → n.toNat ≤ x.firmware.svn.toNat → runs (.raiseFloor n) (.change 2 x.floor n.toNat)) ∧
       (∀ n : Byte, (n.toNat ≤ x.floor ∨ x.firmware.svn.toNat < n.toNat) → Answers (.raiseFloor n) s (fun t => secOnly t ∧
         t.sec.cmdState = 3 ∧ t.sec.cmdFault = 0xC005#16 ∧ t.sec.running = none)) ∧
       (∀ tok, x.tokenOk 3 0 (some tok) = true → x.identGen < 16 → runs (.advanceIdentity tok) (.change 1 x.identGen (x.identGen + 1))) ∧
       (∀ tok, x.tokenOk 4 0 (some tok) = true → x.unlocked = false → x.unlockPending = false → x.debugTrans < 8 →
         runs (.debugUnlock tok) (.change 3 x.debugTrans (x.debugTrans + 1))) ∧
       ((x.unlocked = true ∨ x.unlockPending = true) → x.debugTrans < 8 → runs .debugLock (.change 3 x.debugTrans (x.debugTrans + 1))) ∧
       (let no (i : Instr) (c : Code) : Prop := Answers i s (fun t => secOnly t ∧ t.sec.cmdState = 3 ∧ t.sec.cmdFault = c ∧
          t.sec.running = none)
        (∀ tok, x.tokenOk 3 0 (some tok) = false → no (.advanceIdentity tok) 0xC002#16) ∧
        (∀ tok, x.tokenOk 3 0 (some tok) = true → 16 ≤ x.identGen → no (.advanceIdentity tok) 0xC005#16) ∧
        (∀ tok, x.tokenOk 4 0 (some tok) = false → no (.debugUnlock tok) 0xC002#16) ∧
        (∀ tok, x.tokenOk 4 0 (some tok) = true → (x.unlocked = true ∨ x.unlockPending = true ∨ 8 ≤ x.debugTrans) →
          no (.debugUnlock tok) 0xC005#16) ∧
        ((x.unlocked = false ∧ x.unlockPending = false) ∨ 8 ≤ x.debugTrans → no .debugLock 0xC005#16) ∧
        (x.addr.toNat % 512 ≠ 0 ∨ bondedTop false < x.addr.toNat + 17408 → no (.attest false) 0xC002#16)) ∧
       (x.addr.toNat % 512 = 0 → x.addr.toNat + 17408 ≤ bondedTop false → runs (.attest false) (.attest false x.addr)) ∧
       runs (.attest true) (.attest true x.addr)) ∧
     (x.running ≠ none → ∀ (n : Byte) (img : SignedImage) (far : Bool),
       (∀ i ∈ [Instr.raiseFloor n, .armTrial, .advanceIdentity img, .debugUnlock img, .debugLock, .attest far],
         Answers i s (fun t => secOnly t ∧ t.sec.cmdState = 5 ∧ t.sec.running = x.running)) ∧
       exec (.fwInstall img) s = .next { s with sec := { x with fwState := 6 } } ∧ exec (.packInstall img) s = .next s) ∧
     (x.running = none → exec .securityOperationDone s = .next s) ∧
     (∀ svn id d n, x.running = some (.fwInstall svn id d n) → Answers .securityOperationDone s (fun t => secOnly t ∧
       t.sec.running = none ∧ t.sec.fwState = 3 ∧ t.sec.slot (n != 1) = x.slot (n != 1) ∧
       t.sec.slot (n == 1) = { state := if svn.toNat < x.floor then 2 else 1, svn := svn, id := id, digest := d })) ∧
     (∀ id d, x.running = some (.packInstall id d) → exec .securityOperationDone s = .next { s with
       sec := { x with running := none }, pack := { s.pack with state := 3, pendingId := id, pendingDigest := d } }) ∧
     (∀ a, x.running = some (.attest true a) → exec .securityOperationDone s = .next { s with
       sec := { x with running := none, cmdState := 2 },
       link := { s.link with toComp := s.link.toComp ++ [.wrNc a.toNat s.report .report] } }) ∧
     (∀ a, x.running = some (.attest false a) → a.toNat % 512 = 0 → Memory.wf s.bonded = true →
       Answers .securityOperationDone s (fun t => t.sec = { x with running := none, cmdState := 2 } ∧
         (∀ b, (b < a.toNat ∨ a.toNat + 17408 ≤ b) → Mem.get t.bonded b = Mem.get s.bonded b) ∧
         (∀ j, j < 17408 → Mem.get t.bonded (a.toNat + j) = s.report.getD j 0) ∧ ∀ k, t.core k = s.core k)) ∧
     (∀ setting old new, x.running = some (.change setting old new) → 1 ≤ setting → setting ≤ 3 →
       Answers .securityOperationDone s (fun t => t.sec.running = none ∧ t.sec.cmdState = 2 ∧ t.sec.setting setting = new ∧
         (∀ n, 1 ≤ n → n ≤ 3 → n ≠ setting → t.sec.setting n = x.setting n) ∧
         (∃ e, t.sec.ledger = x.ledger ++ [e] ∧ e.setting.toNat = setting ∧ e.old = BitVec.ofNat 8 old ∧ e.new = BitVec.ofNat 8 new ∧
           e.rebuilt = false) ∧
         (setting = 3 → new % 2 = 0 → t.west.halted = false ∧ t.east.halted = false) ∧ t.bonded = s.bonded ∧
         ∀ k, t.core k = s.core k)))

/-- The fuse counts and the ledger never fall: no command lowers the identity generation, the rollback floor or the count of
debug transitions, and the ledger only grows, as long as a running change leads upward; and that stays so (R439, R441, R444,
R445). -/
def Obligations.FusesNeverFall : Prop :=
  (let upward (s : State) : Prop := ∀ setting old new, s.sec.running = some (.change setting old new) →
     old = s.sec.setting setting ∧ old ≤ new
   ∀ s t : State, upward s → step s = .next t →
     s.sec.identGen ≤ t.sec.identGen ∧ s.sec.floor ≤ t.sec.floor ∧ s.sec.debugTrans ≤ t.sec.debugTrans ∧
     (∃ new, t.sec.ledger = s.sec.ledger ++ new) ∧ upward t)

/-! ### Sideband, test access port and debug (R446, R454 to R460, R476) -/

/-- The sideband registers read as Table 17.5 lays them out; other offsets read as the plinth block's registers, as the copies kept by
the housekeeping block after a trip, and as zero where nothing answers; a read of another length is refused. CLEAR in SB_ERR clears
them, and they reset as the housekeeping supply comes up. -/
def Obligations.SidebandRegistersAsTabled : Prop :=
  ∀ s : State, s.pins.housekeeping = true →
    (∀ n, n ≠ 8 → exec (.sbRead n) s = .next { s with sb := { s.sb with
      errOffset := s.sb.offset, errKind := 3, refused := (satAdd s.sb.refused s.sb.refusedSat 1).1,
      refusedSat := (satAdd s.sb.refused s.sb.refusedSat 1).2, reply := List.replicate n 0 } }) ∧
    (∀ off : BitVec 16, s.sb.offset = off → Answers (.sbRead 8) s (fun t =>
      ({ t with sb := s.sb } : State) = s ∧ t.sb.offset = off + 8 ∧ t.sb.reply.length = 8 ∧
      (let v := ofBytes t.sb.reply
       let flag (n : Nat) : Bool := v / 2 ^ n % 2 == 1
       (off = 0xF000 → v % 2 ^ 8 = 1 ∧ flag 8 = s.sb.plinthReady ∧ flag 9 = s.power.tripped ∧ flag 10 = s.pins.pwrOk ∧
         flag 11 = s.pins.flowOk ∧ flag 12 = s.pins.coldRst ∧ flag 13 = s.pins.attn ∧ v / 2 ^ 14 = 0) ∧
       (off = 0xF008 → v % 2 ^ 16 = s.sb.errOffset.toNat ∧ v / 2 ^ 16 % 4 = s.sb.errKind.toNat ∧
         v / 2 ^ 18 % 2 ^ 31 = s.sb.refused.toNat ∧ flag 49 = s.sb.refusedSat ∧ v / 2 ^ 50 = 0) ∧
       (0xF008 < off.toNat → v = 0) ∧
       (off.toNat < 0xF000 →
         (s.power.tripped = true → (off = 0xD30 → v = s.sb.snapTherm.toNat) ∧ (off = 0xD38 → v = s.sb.snapErr.toNat) ∧
           (off = 0xD10 → v = s.sb.snapInput.toNat) ∧ (off ≠ 0xD30 → off ≠ 0xD38 → off ≠ 0xD10 → v = 0)) ∧
         (s.power.tripped = false → v = if s.sb.plinthReady then s.readPlinth s.sbIndexes off.toNat % 2 ^ 64 else 0))))) ∧
    Answers .sbErrClear s (fun t => t.sb = { s.sb with errOffset := 0, errKind := 0, refused := 0, refusedSat := false }) ∧
    Answers .housekeepingUp { s with pins := { s.pins with housekeeping := false } } (fun t =>
      t.pins.housekeeping = true ∧ t.sb = {})

/-- The sideband and the test access port. A target takes a dynamic address once, and loses it; an answer to a GET code is
held; SB_SET_OFFSET and a permitted SB_WRITE change the offset and their register alone, and one that is refused, for its length, its
alignment or its offset, is counted with its offset and kind. Without the housekeeping supply nothing answers. An in-band interrupt that is due carries both wings' ATTN, and is due again while it is refused
(R454 to R459). Instructions of the port take effect at once; EXTEST drives the pins only while COLD_RST_N is asserted (R446,
R460). Debug halts exist only while debug is unlocked: one takes effect at once when no array descriptor runs, and waits
otherwise; stepping advances every core of a halted wing by one beat, and a release lets coupling resume (R476). -/
def Obligations.SidebandTestPortAndDebugAct : Prop :=
  (∀ s : State, s.pins.housekeeping = true →
     (let sb (i : Instr) (y : Sideband) : Prop := exec i s = .next { s with sb := y }
      let x := s.sb
      (∀ a, sb (.entdaa a) { x with dynAddr := if x.dynAddr.isSome then x.dynAddr else some a } ∧
        sb (.setdasa a) { x with dynAddr := if x.dynAddr.isSome then x.dynAddr else some a }) ∧
      sb .rstdaa { x with dynAddr := none } ∧ sb .enec { x with ibiOn := true } ∧
      sb .disec { x with ibiOn := false, ibiDue := false, ibiRefused := false } ∧
      (let answers (i : Instr) (n : Nat) : Prop := Answers i s (fun t => t = { s with sb := { x with ccc := t.sb.ccc } } ∧
         t.sb.ccc.length = n)
       answers .getpid 6 ∧ answers .getbcr 1 ∧ answers .getdcr 1 ∧ answers .getstatus 2 ∧ answers .getmwl 2 ∧ answers .getmrl 2) ∧
      (let off (a b : Byte) : Nat := a.toNat + 256 * b.toNat
       let no (y : Sideband) (o kind : Nat) : Sideband := { y with
         errOffset := BitVec.ofNat 16 o, errKind := BitVec.ofNat 2 kind, refused := (satAdd y.refused y.refusedSat 1).1,
         refusedSat := (satAdd y.refused y.refusedSat 1).2 }
       (∀ a b : Byte, (off a b % 8 = 0 → sb (.sbSetOffset [a, b]) { x with offset := BitVec.ofNat 16 (off a b) }) ∧
         (off a b % 8 ≠ 0 → sb (.sbSetOffset [a, b]) (no x (off a b) 2))) ∧
       (∀ bs : List Byte, bs.length < 2 → sb (.sbSetOffset bs) (no x x.offset.toNat 3) ∧ sb (.sbWrite bs) (no x x.offset.toNat 3)) ∧
       (∀ (a b : Byte) vs, (vs ≠ [] → sb (.sbSetOffset (a :: b :: vs)) (no x (off a b) 3)) ∧
         (vs.length ≠ 8 → sb (.sbWrite (a :: b :: vs)) (no x (off a b) 3)) ∧
         (vs.length = 8 → off a b % 8 ≠ 0 → sb (.sbWrite (a :: b :: vs)) (no x (off a b) 2)) ∧
         (vs.length = 8 → off a b % 8 = 0 → off a b ∉ [0xD00, 0xC10, 0xC28, 0xE78, 0xE90, 0xF008] →
           sb (.sbWrite (a :: b :: vs)) (no x (off a b) 1)) ∧
         (vs.length = 8 →
           (let v := ofBytes vs
            let y : Sideband := { x with offset := BitVec.ofNat 16 (off a b) }
            (off a b = 0xC10 → sb (.sbWrite (a :: b :: vs)) { y with spallIndex := BitVec.ofNat 20 v }) ∧
            (off a b = 0xC28 → sb (.sbWrite (a :: b :: vs)) { y with logIndex := BitVec.ofNat 10 v }) ∧
            (off a b = 0xE78 → sb (.sbWrite (a :: b :: vs)) { y with ledgerIndex := BitVec.ofNat 9 v }) ∧
            (off a b = 0xE90 → sb (.sbWrite (a :: b :: vs)) { y with measIndex := BitVec.ofNat 2 v }) ∧
            (off a b = 0xF008 → sb (.sbWrite (a :: b :: vs)) (if v / 2 ^ 63 = 1
              then { y with errOffset := 0, errKind := 0, refused := 0, refusedSat := false } else y)) ∧
            (off a b = 0xD00 → (s.powered && x.plinthReady) = false → sb (.sbWrite (a :: b :: vs)) y) ∧
            (off a b = 0xD00 → s.powered = true → x.plinthReady = true → Answers (.sbWrite (a :: b :: vs)) s (fun t =>
              t = { s with sb := y, power := { s.power with cap := t.power.cap, slope := t.power.slope, westShare := t.power.westShare } } ∧
              t.power.cap.toNat = v % 2 ^ 16 ∧ t.power.slope.toNat = v / 2 ^ 16 % 2 ^ 12 ∧
              t.power.westShare.toNat = v / 2 ^ 28 % 2 ^ 7)))))) ∧
      (let byte : Byte := BitVec.ofNat 8 ((if s.west.attn then 1 else 0) + (if s.east.attn then 2 else 0))
       ∀ ok, (x.ibiDue = true → x.ibiRefused = false →
           sb (.attnIbi ok) { x with ibi := byte, ibiDue := !ok, ibiRefused := !ok }) ∧
         (x.ibiRefused = true → s.pins.attn = true →
           sb (.ibiRetry ok) { x with ibi := byte, ibiDue := !ok, ibiRefused := !ok }) ∧
         ((x.ibiDue = false ∨ x.ibiRefused = true) → exec (.attnIbi ok) s = .next s) ∧
         ((x.ibiRefused = false ∨ s.pins.attn = false) → exec (.ibiRetry ok) s = .next s)) ∧
      (let tap (i : Instr) (y : Tap) : Prop := exec i s = .next { s with tap := y }
       tap .bypass { s.tap with ir := .bypass, driven := none, dr := 0 } ∧
       tap .idcode { s.tap with ir := .idcode, driven := none, dr := 0x1176854B } ∧
       tap .trstN { s.tap with ir := .idcode, driven := none, dr := 0x1176854B } ∧
       (s.pins.coldRst = true → tap .extest { s.tap with ir := .extest, driven := some s.tap.preload }) ∧
       (s.pins.coldRst = false → tap .extest { s.tap with ir := .bypass, driven := none, dr := 0 }) ∧
       (∀ p, Answers (.samplePreload p) s (fun t => t.tap.ir = .samplePreload ∧ t.tap.preload = p ∧ t.tap.driven = none ∧
         t.tap.capture.length = 11 ∧ t.tap.capture.getD 4 false = (!s.pins.coldRst) ∧ t.tap.capture.getD 6 false = s.pins.pwrOk ∧
         t.tap.capture.getD 9 false = (!s.pins.attn) ∧ t.sb = s.sb ∧ t.bonded = s.bonded))))) ∧
  (∀ s : State, s.pins.housekeeping = false → ∀ (a : BitVec 7) (bs : List Byte) (n : Nat) (p : List Bool) (ok : Bool),
     ∀ i ∈ [Instr.entdaa a, .setdasa a, .rstdaa, .enec, .disec, .getpid, .getbcr, .getdcr, .getstatus, .getmwl, .getmrl,
       .sbSetOffset bs, .sbWrite bs, .sbRead n, .sbErrClear, .attnIbi ok, .ibiRetry ok, .bypass, .idcode, .samplePreload p,
       .extest, .trstN], exec i s = .next s) ∧
  (∀ (w : Nat) (s : State), w < 2 →
     (let x := s.wing (s.lead w)
      let wing (i : Instr) (y : WingState) : Prop := exec i s = .next (s.setWing (s.lead w) y)
      ((s.sec.unlocked = false ∨ x.halted = true) → exec (.debugHaltRequest w) s = .next s) ∧
      ((x.haltPending = false ∨ (s.runningArray (s.lead w)).isSome = true) → exec (.debugHaltEnter w) s = .next s) ∧
      (x.halted = false → exec (.debugStep w) s = .next s) ∧
      (s.sec.unlocked = true → x.halted = false →
        ((s.runningArray (s.lead w)).isNone = true → wing (.debugHaltRequest w) { x with halted := true, haltPending := false }) ∧
        ((s.runningArray (s.lead w)).isSome = true → wing (.debugHaltRequest w) { x with halted := false, haltPending := true })) ∧
      (x.haltPending = true → (s.runningArray (s.lead w)).isNone = true →
        wing (.debugHaltEnter w) { x with halted := true, haltPending := false }) ∧
      wing (.debugRelease w) { x with halted := false, haltPending := false } ∧
      (x.halted = true → (∀ k, validCore k = true → wingOf k ∈ s.wings (s.lead w) → s.mayBeat k = false) ∧
        Answers (.debugStep w) s (fun t => t.bonded = s.bonded ∧ t.flights = s.flights ∧ ∀ k,
          (wingOf k ∈ s.wings (s.lead w) → t.core k = { s.core k with pace := { (s.core k).pace with
            beat := (s.core k).pace.beat + 1, winBeats := (s.core k).pace.winBeats + 1, idle := false } }) ∧
          (wingOf k ∉ s.wings (s.lead w) → t.core k = s.core k)))))
end

