-- ==== Sys2Proof/Laws/Map.lean ====
section
/-!
SUPPORT. The laws of sparse maps and of memories: what is read after a write, and that every operation of a memory keeps its
canonical form.
-/

namespace Sys2Proof.Machine

variable {α : Type}

theorem Map.get_set_same (d : α) (m : List (Nat × α)) (a : Nat) (v : α) : Map.get d (Map.set m a v) a = v := by
  induction m with
  | nil => simp [Map.set, Map.get]
  | cons e m ih =>
    obtain ⟨k, w⟩ := e
    unfold Map.set
    split
    · simp [Map.get]
    · split
      · simp [Map.get]
      · simp [Map.get, *]

theorem Map.get_set_ne (d : α) (m : List (Nat × α)) (a b : Nat) (v : α) (h : b ≠ a) :
    Map.get d (Map.set m a v) b = Map.get d m b := by
  induction m with
  | nil => simp [Map.set, Map.get, h]
  | cons e m ih =>
    obtain ⟨k, w⟩ := e
    unfold Map.set
    split
    · subst_vars; simp [Map.get, h]
    · split
      · simp [Map.get, h]
      · simp only [Map.get, ih]

/-- A map read after a write. -/
theorem Map.get_set (d : α) (m : List (Nat × α)) (a b : Nat) (v : α) :
    Map.get d (Map.set m a v) b = if b = a then v else Map.get d m b := by
  split
  · subst_vars; exact Map.get_set_same ..
  · exact Map.get_set_ne _ _ _ _ _ ‹_›

theorem Map.set_set (m : List (Nat × α)) (a : Nat) (v w : α) : Map.set (Map.set m a v) a w = Map.set m a w := by
  induction m with
  | nil => simp [Map.set]
  | cons e m ih =>
    obtain ⟨k, x⟩ := e
    by_cases h : a = k
    · simp [Map.set, h]
    · by_cases h' : a < k
      · simp [Map.set, h, h']
      · simp [Map.set, h, h', ih]

theorem Map.get_upd (d : α) (m : List (Nat × α)) (a b : Nat) (f : α → α) :
    Map.get d (Map.upd d m a f) b = if b = a then f (Map.get d m a) else Map.get d m b := Map.get_set ..

theorem Map.get_map (d : α) (g : α → α) (m : List (Nat × α)) (a : Nat) :
    Map.get (g d) (m.map (fun e => (e.1, g e.2))) a = g (Map.get d m a) := by
  induction m with
  | nil => rfl
  | cons e m ih => simp only [List.map_cons, Map.get, ih]; split <;> rfl

theorem Map.all_set (p : Nat × α → Bool) (m : List (Nat × α)) (a : Nat) (v : α)
    (h : m.all p = true) (hv : p (a, v) = true) : (Map.set m a v).all p = true := by
  induction m with
  | nil => simpa [Map.set] using hv
  | cons e m ih =>
    obtain ⟨k, w⟩ := e
    simp only [List.all_cons, Bool.and_eq_true] at h
    unfold Map.set
    split
    · simp [hv, h.2]
    · split
      · simp [hv, h.1, h.2]
      · simp [h.1, ih h.2]

/-! ### Memories -/

theorem Mem.wfFrom_mono {lo hi : Nat} (h : lo ≤ hi) : ∀ (m : List Host.Cell), Mem.wfFrom hi m = true → Mem.wfFrom lo m = true
  | [], _ => rfl
  | (k, v) :: m, hm => by
    simp only [Mem.wfFrom, Bool.and_eq_true, decide_eq_true_eq] at hm ⊢
    exact ⟨⟨by omega, hm.1.2⟩, hm.2⟩

theorem Mem.wfFrom_put (m : List Host.Cell) (a : Nat) (v : Byte) :
    ∀ lo, lo ≤ a → Mem.wfFrom lo m = true → Mem.wfFrom lo (Mem.put m a v) = true := by
  induction m with
  | nil =>
    intro lo h _
    unfold Mem.put
    split
    · rfl
    · simp [Mem.wfFrom, *]
  | cons e m ih =>
    obtain ⟨k, w⟩ := e
    intro lo h hm
    simp only [Mem.wfFrom, Bool.and_eq_true, decide_eq_true_eq] at hm
    unfold Mem.put
    split
    · split
      · exact Mem.wfFrom_mono (by omega) m hm.2
      · simp only [Mem.wfFrom, Bool.and_eq_true, decide_eq_true_eq]
        subst_vars
        exact ⟨⟨h, ‹_›⟩, hm.2⟩
    · split
      · split
        · simp only [Mem.wfFrom, Bool.and_eq_true, decide_eq_true_eq]; exact hm
        · simp only [Mem.wfFrom, Bool.and_eq_true, decide_eq_true_eq]
          exact ⟨⟨h, ‹_›⟩, ⟨by omega, hm.1.2⟩, hm.2⟩
      · simp only [Mem.wfFrom, Bool.and_eq_true, decide_eq_true_eq]
        exact ⟨hm.1, ih (k + 1) (by omega) hm.2⟩

/-- Writing one byte keeps the canonical form. -/
theorem Memory.wf_put (m : List Host.Cell) (a : Nat) (v : Byte) (h : Memory.wf m = true) : Memory.wf (Mem.put m a v) = true :=
  Mem.wfFrom_put m a v 0 (Nat.zero_le _) h

/-- Writing a byte string keeps the canonical form. -/
theorem Memory.wf_write (bs : List Byte) : ∀ (m : List Host.Cell) (a : Nat), Memory.wf m = true → Memory.wf (Mem.write m a bs) = true := by
  induction bs with
  | nil => intro m a h; exact h
  | cons b bs ih => intro m a h; exact ih _ _ (Memory.wf_put m a b h)

theorem Mem.get_below {lo : Nat} : ∀ (m : List Host.Cell) (a : Nat), Mem.wfFrom lo m = true → a < lo → Mem.get m a = Mem.unlisted
  | [], _, _, _ => rfl
  | (k, v) :: m, a, hm, h => by
    simp only [Mem.wfFrom, Bool.and_eq_true, decide_eq_true_eq] at hm
    have : a ≠ k := by omega
    simp only [Mem.get, Map.get, this, if_false]
    exact Mem.get_below m a hm.2 (by omega)

theorem Mem.get_put_from (m : List Host.Cell) (a b : Nat) (v : Byte) :
    ∀ lo, Mem.wfFrom lo m = true → Mem.get (Mem.put m a v) b = if b = a then v else Mem.get m b := by
  induction m with
  | nil =>
    intro lo _
    unfold Mem.put
    split
    · subst_vars; simp [Mem.get, Map.get]
    · simp [Mem.get, Map.get]
  | cons e m ih =>
    obtain ⟨k, w⟩ := e
    intro lo hm
    simp only [Mem.wfFrom, Bool.and_eq_true, decide_eq_true_eq] at hm
    have hb := fun b => Mem.get_below (lo := k + 1) m b
    have ih' := ih (k + 1) hm.2
    simp only [Mem.get] at hb ih' ⊢
    unfold Mem.put
    split
    · split
      · subst_vars
        split
        · subst_vars; exact hb _ hm.2 (by omega)
        · simp [Map.get, *]
      · subst_vars; simp only [Map.get]; split <;> rfl
    · split
      · split
        · subst_vars
          split
          · subst_vars
            have h2 : b ≠ k := by omega
            simp only [Map.get, h2, if_false]
            exact hb _ hm.2 (by omega)
          · rfl
        · simp only [Map.get]
      · simp only [Map.get, ih']
        split
        · have : b ≠ a := by omega
          simp [this]
        · rfl

/-- A byte read after a write, in a memory in canonical form: what was written at its address, what was there elsewhere. -/
theorem Mem.get_put (m : List Host.Cell) (a b : Nat) (v : Byte) (h : Memory.wf m = true) :
    Mem.get (Mem.put m a v) b = if b = a then v else Mem.get m b := Mem.get_put_from m a b v 0 h

/-- A byte read after the write of a byte string. -/
theorem Mem.get_write (bs : List Byte) : ∀ (m : List Host.Cell) (a b : Nat), Memory.wf m = true →
    Mem.get (Mem.write m a bs) b = if a ≤ b ∧ b < a + bs.length then bs.getD (b - a) 0 else Mem.get m b := by
  induction bs with
  | nil =>
    intro m a b _
    rw [if_neg (by simp only [List.length_nil]; omega)]
    rfl
  | cons x bs ih =>
    intro m a b h
    simp only [Mem.write, ih _ _ _ (Memory.wf_put m a x h), Mem.get_put m a b x h, List.length_cons]
    by_cases hb : b = a
    · subst hb
      rw [if_neg (by omega), if_pos rfl, if_pos (by omega), Nat.sub_self, List.getD_cons_zero]
    · by_cases h1 : a + 1 ≤ b ∧ b < a + 1 + bs.length
      · rw [if_pos h1, if_pos (by omega), show b - a = b - (a + 1) + 1 by omega, List.getD_cons_succ]
      · rw [if_neg h1, if_neg hb, if_neg (by omega)]

end Sys2Proof.Machine
end

