-- ==== Sys2Proof/Laws/State.lean ====
section
/-!
SUPPORT. The laws of the updates of State: what each update leaves, field by field, and what is read of a wing and of a core
after one of them has changed.
-/

namespace Sys2Proof.Machine

variable (s : State) (x : WingState) (g : WingState → WingState) (c : Core) (h : Core → Core)

@[simp] theorem State.setWing_split (w : Nat) : (s.setWing w x).split = s.split := by unfold State.setWing; split <;> rfl
@[simp] theorem State.setWing_bonded (w : Nat) : (s.setWing w x).bonded = s.bonded := by unfold State.setWing; split <;> rfl
@[simp] theorem State.setWing_side (w : Nat) : (s.setWing w x).side = s.side := by unfold State.setWing; split <;> rfl
@[simp] theorem State.setWing_clusters (w : Nat) : (s.setWing w x).clusters = s.clusters := by unfold State.setWing; split <;> rfl
@[simp] theorem State.setWing_chans (w : Nat) : (s.setWing w x).chans = s.chans := by unfold State.setWing; split <;> rfl
@[simp] theorem State.setWing_ports (w : Nat) : (s.setWing w x).ports = s.ports := by unfold State.setWing; split <;> rfl
@[simp] theorem State.setWing_link (w : Nat) : (s.setWing w x).link = s.link := by unfold State.setWing; split <;> rfl
@[simp] theorem State.setWing_sq (w : Nat) : (s.setWing w x).sq = s.sq := by unfold State.setWing; split <;> rfl
@[simp] theorem State.setWing_cq (w : Nat) : (s.setWing w x).cq = s.cq := by unfold State.setWing; split <;> rfl
@[simp] theorem State.setWing_flights (w : Nat) : (s.setWing w x).flights = s.flights := by unfold State.setWing; split <;> rfl
@[simp] theorem State.setWing_fetched (w : Nat) : (s.setWing w x).fetched = s.fetched := by unfold State.setWing; split <;> rfl
@[simp] theorem State.setWing_domainId (w : Nat) : (s.setWing w x).domainId = s.domainId := by unfold State.setWing; split <;> rfl
@[simp] theorem State.setWing_domainSet (w : Nat) : (s.setWing w x).domainSet = s.domainSet := by unfold State.setWing; split <;> rfl
@[simp] theorem State.setWing_mirrorSrc (w : Nat) : (s.setWing w x).mirrorSrc = s.mirrorSrc := by unfold State.setWing; split <;> rfl
@[simp] theorem State.setWing_mapFault (w : Nat) : (s.setWing w x).mapFault = s.mapFault := by unfold State.setWing; split <;> rfl
@[simp] theorem State.setWing_mapEntry (w : Nat) : (s.setWing w x).mapEntry = s.mapEntry := by unfold State.setWing; split <;> rfl
@[simp] theorem State.setWing_mapDevice (w : Nat) : (s.setWing w x).mapDevice = s.mapDevice := by unfold State.setWing; split <;> rfl
@[simp] theorem State.setWing_mapWing (w : Nat) : (s.setWing w x).mapWing = s.mapWing := by unfold State.setWing; split <;> rfl
@[simp] theorem State.setWing_hopLimit (w : Nat) : (s.setWing w x).hopLimit = s.hopLimit := by unfold State.setWing; split <;> rfl
@[simp] theorem State.setWing_extTimeout (w : Nat) : (s.setWing w x).extTimeout = s.extTimeout := by unfold State.setWing; split <;> rfl
@[simp] theorem State.setWing_groupBase (w : Nat) : (s.setWing w x).groupBase = s.groupBase := by unfold State.setWing; split <;> rfl
@[simp] theorem State.setWing_groupLimit (w : Nat) : (s.setWing w x).groupLimit = s.groupLimit := by unfold State.setWing; split <;> rfl
@[simp] theorem State.setWing_curveBase (w : Nat) : (s.setWing w x).curveBase = s.curveBase := by unfold State.setWing; split <;> rfl
@[simp] theorem State.setWing_curveLimit (w : Nat) : (s.setWing w x).curveLimit = s.curveLimit := by unfold State.setWing; split <;> rfl
@[simp] theorem State.setWing_seamKnown (w : Nat) : (s.setWing w x).seamKnown = s.seamKnown := by unfold State.setWing; split <;> rfl
@[simp] theorem State.setWing_capstoned (w : Nat) : (s.setWing w x).capstoned = s.capstoned := by unfold State.setWing; split <;> rfl
@[simp] theorem State.setWing_deferred (w : Nat) : (s.setWing w x).deferred = s.deferred := by unfold State.setWing; split <;> rfl
@[simp] theorem State.setWing_health (w : Nat) : (s.setWing w x).health = s.health := by unfold State.setWing; split <;> rfl
@[simp] theorem State.setWing_pack (w : Nat) : (s.setWing w x).pack = s.pack := by unfold State.setWing; split <;> rfl
@[simp] theorem State.setWing_power (w : Nat) : (s.setWing w x).power = s.power := by unfold State.setWing; split <;> rfl
@[simp] theorem State.setWing_sec (w : Nat) : (s.setWing w x).sec = s.sec := by unfold State.setWing; split <;> rfl
@[simp] theorem State.setWing_sb (w : Nat) : (s.setWing w x).sb = s.sb := by unfold State.setWing; split <;> rfl
@[simp] theorem State.setWing_tap (w : Nat) : (s.setWing w x).tap = s.tap := by unfold State.setWing; split <;> rfl
@[simp] theorem State.setWing_pins (w : Nat) : (s.setWing w x).pins = s.pins := by unfold State.setWing; split <;> rfl
@[simp] theorem State.setWing_freeCtr (w : Nat) : (s.setWing w x).freeCtr = s.freeCtr := by unfold State.setWing; split <;> rfl
@[simp] theorem State.setWing_pending (w : Nat) : (s.setWing w x).pending = s.pending := by unfold State.setWing; split <;> rfl
@[simp] theorem State.onWing_split (w : Nat) : (s.onWing w g).split = s.split := State.setWing_split ..
@[simp] theorem State.onWing_bonded (w : Nat) : (s.onWing w g).bonded = s.bonded := State.setWing_bonded ..
@[simp] theorem State.onWing_side (w : Nat) : (s.onWing w g).side = s.side := State.setWing_side ..
@[simp] theorem State.onWing_clusters (w : Nat) : (s.onWing w g).clusters = s.clusters := State.setWing_clusters ..
@[simp] theorem State.onWing_chans (w : Nat) : (s.onWing w g).chans = s.chans := State.setWing_chans ..
@[simp] theorem State.onWing_ports (w : Nat) : (s.onWing w g).ports = s.ports := State.setWing_ports ..
@[simp] theorem State.onWing_link (w : Nat) : (s.onWing w g).link = s.link := State.setWing_link ..
@[simp] theorem State.onWing_sq (w : Nat) : (s.onWing w g).sq = s.sq := State.setWing_sq ..
@[simp] theorem State.onWing_cq (w : Nat) : (s.onWing w g).cq = s.cq := State.setWing_cq ..
@[simp] theorem State.onWing_flights (w : Nat) : (s.onWing w g).flights = s.flights := State.setWing_flights ..
@[simp] theorem State.onWing_fetched (w : Nat) : (s.onWing w g).fetched = s.fetched := State.setWing_fetched ..
@[simp] theorem State.onWing_domainId (w : Nat) : (s.onWing w g).domainId = s.domainId := State.setWing_domainId ..
@[simp] theorem State.onWing_domainSet (w : Nat) : (s.onWing w g).domainSet = s.domainSet := State.setWing_domainSet ..
@[simp] theorem State.onWing_mirrorSrc (w : Nat) : (s.onWing w g).mirrorSrc = s.mirrorSrc := State.setWing_mirrorSrc ..
@[simp] theorem State.onWing_mapFault (w : Nat) : (s.onWing w g).mapFault = s.mapFault := State.setWing_mapFault ..
@[simp] theorem State.onWing_mapEntry (w : Nat) : (s.onWing w g).mapEntry = s.mapEntry := State.setWing_mapEntry ..
@[simp] theorem State.onWing_mapDevice (w : Nat) : (s.onWing w g).mapDevice = s.mapDevice := State.setWing_mapDevice ..
@[simp] theorem State.onWing_mapWing (w : Nat) : (s.onWing w g).mapWing = s.mapWing := State.setWing_mapWing ..
@[simp] theorem State.onWing_hopLimit (w : Nat) : (s.onWing w g).hopLimit = s.hopLimit := State.setWing_hopLimit ..
@[simp] theorem State.onWing_extTimeout (w : Nat) : (s.onWing w g).extTimeout = s.extTimeout := State.setWing_extTimeout ..
@[simp] theorem State.onWing_groupBase (w : Nat) : (s.onWing w g).groupBase = s.groupBase := State.setWing_groupBase ..
@[simp] theorem State.onWing_groupLimit (w : Nat) : (s.onWing w g).groupLimit = s.groupLimit := State.setWing_groupLimit ..
@[simp] theorem State.onWing_curveBase (w : Nat) : (s.onWing w g).curveBase = s.curveBase := State.setWing_curveBase ..
@[simp] theorem State.onWing_curveLimit (w : Nat) : (s.onWing w g).curveLimit = s.curveLimit := State.setWing_curveLimit ..
@[simp] theorem State.onWing_seamKnown (w : Nat) : (s.onWing w g).seamKnown = s.seamKnown := State.setWing_seamKnown ..
@[simp] theorem State.onWing_capstoned (w : Nat) : (s.onWing w g).capstoned = s.capstoned := State.setWing_capstoned ..
@[simp] theorem State.onWing_deferred (w : Nat) : (s.onWing w g).deferred = s.deferred := State.setWing_deferred ..
@[simp] theorem State.onWing_health (w : Nat) : (s.onWing w g).health = s.health := State.setWing_health ..
@[simp] theorem State.onWing_pack (w : Nat) : (s.onWing w g).pack = s.pack := State.setWing_pack ..
@[simp] theorem State.onWing_power (w : Nat) : (s.onWing w g).power = s.power := State.setWing_power ..
@[simp] theorem State.onWing_sec (w : Nat) : (s.onWing w g).sec = s.sec := State.setWing_sec ..
@[simp] theorem State.onWing_sb (w : Nat) : (s.onWing w g).sb = s.sb := State.setWing_sb ..
@[simp] theorem State.onWing_tap (w : Nat) : (s.onWing w g).tap = s.tap := State.setWing_tap ..
@[simp] theorem State.onWing_pins (w : Nat) : (s.onWing w g).pins = s.pins := State.setWing_pins ..
@[simp] theorem State.onWing_freeCtr (w : Nat) : (s.onWing w g).freeCtr = s.freeCtr := State.setWing_freeCtr ..
@[simp] theorem State.onWing_pending (w : Nat) : (s.onWing w g).pending = s.pending := State.setWing_pending ..
@[simp] theorem State.setCore_split (k : Nat) : (s.setCore k c).split = s.split := State.onWing_split ..
@[simp] theorem State.setCore_bonded (k : Nat) : (s.setCore k c).bonded = s.bonded := State.onWing_bonded ..
@[simp] theorem State.setCore_side (k : Nat) : (s.setCore k c).side = s.side := State.onWing_side ..
@[simp] theorem State.setCore_clusters (k : Nat) : (s.setCore k c).clusters = s.clusters := State.onWing_clusters ..
@[simp] theorem State.setCore_chans (k : Nat) : (s.setCore k c).chans = s.chans := State.onWing_chans ..
@[simp] theorem State.setCore_ports (k : Nat) : (s.setCore k c).ports = s.ports := State.onWing_ports ..
@[simp] theorem State.setCore_link (k : Nat) : (s.setCore k c).link = s.link := State.onWing_link ..
@[simp] theorem State.setCore_sq (k : Nat) : (s.setCore k c).sq = s.sq := State.onWing_sq ..
@[simp] theorem State.setCore_cq (k : Nat) : (s.setCore k c).cq = s.cq := State.onWing_cq ..
@[simp] theorem State.setCore_flights (k : Nat) : (s.setCore k c).flights = s.flights := State.onWing_flights ..
@[simp] theorem State.setCore_fetched (k : Nat) : (s.setCore k c).fetched = s.fetched := State.onWing_fetched ..
@[simp] theorem State.setCore_domainId (k : Nat) : (s.setCore k c).domainId = s.domainId := State.onWing_domainId ..
@[simp] theorem State.setCore_domainSet (k : Nat) : (s.setCore k c).domainSet = s.domainSet := State.onWing_domainSet ..
@[simp] theorem State.setCore_mirrorSrc (k : Nat) : (s.setCore k c).mirrorSrc = s.mirrorSrc := State.onWing_mirrorSrc ..
@[simp] theorem State.setCore_mapFault (k : Nat) : (s.setCore k c).mapFault = s.mapFault := State.onWing_mapFault ..
@[simp] theorem State.setCore_mapEntry (k : Nat) : (s.setCore k c).mapEntry = s.mapEntry := State.onWing_mapEntry ..
@[simp] theorem State.setCore_mapDevice (k : Nat) : (s.setCore k c).mapDevice = s.mapDevice := State.onWing_mapDevice ..
@[simp] theorem State.setCore_mapWing (k : Nat) : (s.setCore k c).mapWing = s.mapWing := State.onWing_mapWing ..
@[simp] theorem State.setCore_hopLimit (k : Nat) : (s.setCore k c).hopLimit = s.hopLimit := State.onWing_hopLimit ..
@[simp] theorem State.setCore_extTimeout (k : Nat) : (s.setCore k c).extTimeout = s.extTimeout := State.onWing_extTimeout ..
@[simp] theorem State.setCore_groupBase (k : Nat) : (s.setCore k c).groupBase = s.groupBase := State.onWing_groupBase ..
@[simp] theorem State.setCore_groupLimit (k : Nat) : (s.setCore k c).groupLimit = s.groupLimit := State.onWing_groupLimit ..
@[simp] theorem State.setCore_curveBase (k : Nat) : (s.setCore k c).curveBase = s.curveBase := State.onWing_curveBase ..
@[simp] theorem State.setCore_curveLimit (k : Nat) : (s.setCore k c).curveLimit = s.curveLimit := State.onWing_curveLimit ..
@[simp] theorem State.setCore_seamKnown (k : Nat) : (s.setCore k c).seamKnown = s.seamKnown := State.onWing_seamKnown ..
@[simp] theorem State.setCore_capstoned (k : Nat) : (s.setCore k c).capstoned = s.capstoned := State.onWing_capstoned ..
@[simp] theorem State.setCore_deferred (k : Nat) : (s.setCore k c).deferred = s.deferred := State.onWing_deferred ..
@[simp] theorem State.setCore_health (k : Nat) : (s.setCore k c).health = s.health := State.onWing_health ..
@[simp] theorem State.setCore_pack (k : Nat) : (s.setCore k c).pack = s.pack := State.onWing_pack ..
@[simp] theorem State.setCore_power (k : Nat) : (s.setCore k c).power = s.power := State.onWing_power ..
@[simp] theorem State.setCore_sec (k : Nat) : (s.setCore k c).sec = s.sec := State.onWing_sec ..
@[simp] theorem State.setCore_sb (k : Nat) : (s.setCore k c).sb = s.sb := State.onWing_sb ..
@[simp] theorem State.setCore_tap (k : Nat) : (s.setCore k c).tap = s.tap := State.onWing_tap ..
@[simp] theorem State.setCore_pins (k : Nat) : (s.setCore k c).pins = s.pins := State.onWing_pins ..
@[simp] theorem State.setCore_freeCtr (k : Nat) : (s.setCore k c).freeCtr = s.freeCtr := State.onWing_freeCtr ..
@[simp] theorem State.setCore_pending (k : Nat) : (s.setCore k c).pending = s.pending := State.onWing_pending ..
@[simp] theorem State.onCore_split (k : Nat) : (s.onCore k h).split = s.split := State.setCore_split ..
@[simp] theorem State.onCore_bonded (k : Nat) : (s.onCore k h).bonded = s.bonded := State.setCore_bonded ..
@[simp] theorem State.onCore_side (k : Nat) : (s.onCore k h).side = s.side := State.setCore_side ..
@[simp] theorem State.onCore_clusters (k : Nat) : (s.onCore k h).clusters = s.clusters := State.setCore_clusters ..
@[simp] theorem State.onCore_chans (k : Nat) : (s.onCore k h).chans = s.chans := State.setCore_chans ..
@[simp] theorem State.onCore_ports (k : Nat) : (s.onCore k h).ports = s.ports := State.setCore_ports ..
@[simp] theorem State.onCore_link (k : Nat) : (s.onCore k h).link = s.link := State.setCore_link ..
@[simp] theorem State.onCore_sq (k : Nat) : (s.onCore k h).sq = s.sq := State.setCore_sq ..
@[simp] theorem State.onCore_cq (k : Nat) : (s.onCore k h).cq = s.cq := State.setCore_cq ..
@[simp] theorem State.onCore_flights (k : Nat) : (s.onCore k h).flights = s.flights := State.setCore_flights ..
@[simp] theorem State.onCore_fetched (k : Nat) : (s.onCore k h).fetched = s.fetched := State.setCore_fetched ..
@[simp] theorem State.onCore_domainId (k : Nat) : (s.onCore k h).domainId = s.domainId := State.setCore_domainId ..
@[simp] theorem State.onCore_domainSet (k : Nat) : (s.onCore k h).domainSet = s.domainSet := State.setCore_domainSet ..
@[simp] theorem State.onCore_mirrorSrc (k : Nat) : (s.onCore k h).mirrorSrc = s.mirrorSrc := State.setCore_mirrorSrc ..
@[simp] theorem State.onCore_mapFault (k : Nat) : (s.onCore k h).mapFault = s.mapFault := State.setCore_mapFault ..
@[simp] theorem State.onCore_mapEntry (k : Nat) : (s.onCore k h).mapEntry = s.mapEntry := State.setCore_mapEntry ..
@[simp] theorem State.onCore_mapDevice (k : Nat) : (s.onCore k h).mapDevice = s.mapDevice := State.setCore_mapDevice ..
@[simp] theorem State.onCore_mapWing (k : Nat) : (s.onCore k h).mapWing = s.mapWing := State.setCore_mapWing ..
@[simp] theorem State.onCore_hopLimit (k : Nat) : (s.onCore k h).hopLimit = s.hopLimit := State.setCore_hopLimit ..
@[simp] theorem State.onCore_extTimeout (k : Nat) : (s.onCore k h).extTimeout = s.extTimeout := State.setCore_extTimeout ..
@[simp] theorem State.onCore_groupBase (k : Nat) : (s.onCore k h).groupBase = s.groupBase := State.setCore_groupBase ..
@[simp] theorem State.onCore_groupLimit (k : Nat) : (s.onCore k h).groupLimit = s.groupLimit := State.setCore_groupLimit ..
@[simp] theorem State.onCore_curveBase (k : Nat) : (s.onCore k h).curveBase = s.curveBase := State.setCore_curveBase ..
@[simp] theorem State.onCore_curveLimit (k : Nat) : (s.onCore k h).curveLimit = s.curveLimit := State.setCore_curveLimit ..
@[simp] theorem State.onCore_seamKnown (k : Nat) : (s.onCore k h).seamKnown = s.seamKnown := State.setCore_seamKnown ..
@[simp] theorem State.onCore_capstoned (k : Nat) : (s.onCore k h).capstoned = s.capstoned := State.setCore_capstoned ..
@[simp] theorem State.onCore_deferred (k : Nat) : (s.onCore k h).deferred = s.deferred := State.setCore_deferred ..
@[simp] theorem State.onCore_health (k : Nat) : (s.onCore k h).health = s.health := State.setCore_health ..
@[simp] theorem State.onCore_pack (k : Nat) : (s.onCore k h).pack = s.pack := State.setCore_pack ..
@[simp] theorem State.onCore_power (k : Nat) : (s.onCore k h).power = s.power := State.setCore_power ..
@[simp] theorem State.onCore_sec (k : Nat) : (s.onCore k h).sec = s.sec := State.setCore_sec ..
@[simp] theorem State.onCore_sb (k : Nat) : (s.onCore k h).sb = s.sb := State.setCore_sb ..
@[simp] theorem State.onCore_tap (k : Nat) : (s.onCore k h).tap = s.tap := State.setCore_tap ..
@[simp] theorem State.onCore_pins (k : Nat) : (s.onCore k h).pins = s.pins := State.setCore_pins ..
@[simp] theorem State.onCore_freeCtr (k : Nat) : (s.onCore k h).freeCtr = s.freeCtr := State.setCore_freeCtr ..
@[simp] theorem State.onCore_pending (k : Nat) : (s.onCore k h).pending = s.pending := State.setCore_pending ..
@[simp] theorem State.onCluster_split (n : Nat) (f : Cluster → Cluster) : (s.onCluster n f).split = s.split := rfl
@[simp] theorem State.onCluster_bonded (n : Nat) (f : Cluster → Cluster) : (s.onCluster n f).bonded = s.bonded := rfl
@[simp] theorem State.onCluster_side (n : Nat) (f : Cluster → Cluster) : (s.onCluster n f).side = s.side := rfl
@[simp] theorem State.onCluster_west (n : Nat) (f : Cluster → Cluster) : (s.onCluster n f).west = s.west := rfl
@[simp] theorem State.onCluster_east (n : Nat) (f : Cluster → Cluster) : (s.onCluster n f).east = s.east := rfl
@[simp] theorem State.onCluster_chans (n : Nat) (f : Cluster → Cluster) : (s.onCluster n f).chans = s.chans := rfl
@[simp] theorem State.onCluster_ports (n : Nat) (f : Cluster → Cluster) : (s.onCluster n f).ports = s.ports := rfl
@[simp] theorem State.onCluster_link (n : Nat) (f : Cluster → Cluster) : (s.onCluster n f).link = s.link := rfl
@[simp] theorem State.onCluster_sq (n : Nat) (f : Cluster → Cluster) : (s.onCluster n f).sq = s.sq := rfl
@[simp] theorem State.onCluster_cq (n : Nat) (f : Cluster → Cluster) : (s.onCluster n f).cq = s.cq := rfl
@[simp] theorem State.onCluster_flights (n : Nat) (f : Cluster → Cluster) : (s.onCluster n f).flights = s.flights := rfl
@[simp] theorem State.onCluster_fetched (n : Nat) (f : Cluster → Cluster) : (s.onCluster n f).fetched = s.fetched := rfl
@[simp] theorem State.onCluster_domainId (n : Nat) (f : Cluster → Cluster) : (s.onCluster n f).domainId = s.domainId := rfl
@[simp] theorem State.onCluster_domainSet (n : Nat) (f : Cluster → Cluster) : (s.onCluster n f).domainSet = s.domainSet := rfl
@[simp] theorem State.onCluster_mirrorSrc (n : Nat) (f : Cluster → Cluster) : (s.onCluster n f).mirrorSrc = s.mirrorSrc := rfl
@[simp] theorem State.onCluster_mapFault (n : Nat) (f : Cluster → Cluster) : (s.onCluster n f).mapFault = s.mapFault := rfl
@[simp] theorem State.onCluster_mapEntry (n : Nat) (f : Cluster → Cluster) : (s.onCluster n f).mapEntry = s.mapEntry := rfl
@[simp] theorem State.onCluster_mapDevice (n : Nat) (f : Cluster → Cluster) : (s.onCluster n f).mapDevice = s.mapDevice := rfl
@[simp] theorem State.onCluster_mapWing (n : Nat) (f : Cluster → Cluster) : (s.onCluster n f).mapWing = s.mapWing := rfl
@[simp] theorem State.onCluster_hopLimit (n : Nat) (f : Cluster → Cluster) : (s.onCluster n f).hopLimit = s.hopLimit := rfl
@[simp] theorem State.onCluster_extTimeout (n : Nat) (f : Cluster → Cluster) : (s.onCluster n f).extTimeout = s.extTimeout := rfl
@[simp] theorem State.onCluster_groupBase (n : Nat) (f : Cluster → Cluster) : (s.onCluster n f).groupBase = s.groupBase := rfl
@[simp] theorem State.onCluster_groupLimit (n : Nat) (f : Cluster → Cluster) : (s.onCluster n f).groupLimit = s.groupLimit := rfl
@[simp] theorem State.onCluster_curveBase (n : Nat) (f : Cluster → Cluster) : (s.onCluster n f).curveBase = s.curveBase := rfl
@[simp] theorem State.onCluster_curveLimit (n : Nat) (f : Cluster → Cluster) : (s.onCluster n f).curveLimit = s.curveLimit := rfl
@[simp] theorem State.onCluster_seamKnown (n : Nat) (f : Cluster → Cluster) : (s.onCluster n f).seamKnown = s.seamKnown := rfl
@[simp] theorem State.onCluster_capstoned (n : Nat) (f : Cluster → Cluster) : (s.onCluster n f).capstoned = s.capstoned := rfl
@[simp] theorem State.onCluster_deferred (n : Nat) (f : Cluster → Cluster) : (s.onCluster n f).deferred = s.deferred := rfl
@[simp] theorem State.onCluster_health (n : Nat) (f : Cluster → Cluster) : (s.onCluster n f).health = s.health := rfl
@[simp] theorem State.onCluster_pack (n : Nat) (f : Cluster → Cluster) : (s.onCluster n f).pack = s.pack := rfl
@[simp] theorem State.onCluster_power (n : Nat) (f : Cluster → Cluster) : (s.onCluster n f).power = s.power := rfl
@[simp] theorem State.onCluster_sec (n : Nat) (f : Cluster → Cluster) : (s.onCluster n f).sec = s.sec := rfl
@[simp] theorem State.onCluster_sb (n : Nat) (f : Cluster → Cluster) : (s.onCluster n f).sb = s.sb := rfl
@[simp] theorem State.onCluster_tap (n : Nat) (f : Cluster → Cluster) : (s.onCluster n f).tap = s.tap := rfl
@[simp] theorem State.onCluster_pins (n : Nat) (f : Cluster → Cluster) : (s.onCluster n f).pins = s.pins := rfl
@[simp] theorem State.onCluster_freeCtr (n : Nat) (f : Cluster → Cluster) : (s.onCluster n f).freeCtr = s.freeCtr := rfl
@[simp] theorem State.onCluster_pending (n : Nat) (f : Cluster → Cluster) : (s.onCluster n f).pending = s.pending := rfl
@[simp] theorem State.onChan_split (n : Nat) (f : Chan → Chan) : (s.onChan n f).split = s.split := rfl
@[simp] theorem State.onChan_bonded (n : Nat) (f : Chan → Chan) : (s.onChan n f).bonded = s.bonded := rfl
@[simp] theorem State.onChan_side (n : Nat) (f : Chan → Chan) : (s.onChan n f).side = s.side := rfl
@[simp] theorem State.onChan_west (n : Nat) (f : Chan → Chan) : (s.onChan n f).west = s.west := rfl
@[simp] theorem State.onChan_east (n : Nat) (f : Chan → Chan) : (s.onChan n f).east = s.east := rfl
@[simp] theorem State.onChan_clusters (n : Nat) (f : Chan → Chan) : (s.onChan n f).clusters = s.clusters := rfl
@[simp] theorem State.onChan_ports (n : Nat) (f : Chan → Chan) : (s.onChan n f).ports = s.ports := rfl
@[simp] theorem State.onChan_link (n : Nat) (f : Chan → Chan) : (s.onChan n f).link = s.link := rfl
@[simp] theorem State.onChan_sq (n : Nat) (f : Chan → Chan) : (s.onChan n f).sq = s.sq := rfl
@[simp] theorem State.onChan_cq (n : Nat) (f : Chan → Chan) : (s.onChan n f).cq = s.cq := rfl
@[simp] theorem State.onChan_flights (n : Nat) (f : Chan → Chan) : (s.onChan n f).flights = s.flights := rfl
@[simp] theorem State.onChan_fetched (n : Nat) (f : Chan → Chan) : (s.onChan n f).fetched = s.fetched := rfl
@[simp] theorem State.onChan_domainId (n : Nat) (f : Chan → Chan) : (s.onChan n f).domainId = s.domainId := rfl
@[simp] theorem State.onChan_domainSet (n : Nat) (f : Chan → Chan) : (s.onChan n f).domainSet = s.domainSet := rfl
@[simp] theorem State.onChan_mirrorSrc (n : Nat) (f : Chan → Chan) : (s.onChan n f).mirrorSrc = s.mirrorSrc := rfl
@[simp] theorem State.onChan_mapFault (n : Nat) (f : Chan → Chan) : (s.onChan n f).mapFault = s.mapFault := rfl
@[simp] theorem State.onChan_mapEntry (n : Nat) (f : Chan → Chan) : (s.onChan n f).mapEntry = s.mapEntry := rfl
@[simp] theorem State.onChan_mapDevice (n : Nat) (f : Chan → Chan) : (s.onChan n f).mapDevice = s.mapDevice := rfl
@[simp] theorem State.onChan_mapWing (n : Nat) (f : Chan → Chan) : (s.onChan n f).mapWing = s.mapWing := rfl
@[simp] theorem State.onChan_hopLimit (n : Nat) (f : Chan → Chan) : (s.onChan n f).hopLimit = s.hopLimit := rfl
@[simp] theorem State.onChan_extTimeout (n : Nat) (f : Chan → Chan) : (s.onChan n f).extTimeout = s.extTimeout := rfl
@[simp] theorem State.onChan_groupBase (n : Nat) (f : Chan → Chan) : (s.onChan n f).groupBase = s.groupBase := rfl
@[simp] theorem State.onChan_groupLimit (n : Nat) (f : Chan → Chan) : (s.onChan n f).groupLimit = s.groupLimit := rfl
@[simp] theorem State.onChan_curveBase (n : Nat) (f : Chan → Chan) : (s.onChan n f).curveBase = s.curveBase := rfl
@[simp] theorem State.onChan_curveLimit (n : Nat) (f : Chan → Chan) : (s.onChan n f).curveLimit = s.curveLimit := rfl
@[simp] theorem State.onChan_seamKnown (n : Nat) (f : Chan → Chan) : (s.onChan n f).seamKnown = s.seamKnown := rfl
@[simp] theorem State.onChan_capstoned (n : Nat) (f : Chan → Chan) : (s.onChan n f).capstoned = s.capstoned := rfl
@[simp] theorem State.onChan_deferred (n : Nat) (f : Chan → Chan) : (s.onChan n f).deferred = s.deferred := rfl
@[simp] theorem State.onChan_health (n : Nat) (f : Chan → Chan) : (s.onChan n f).health = s.health := rfl
@[simp] theorem State.onChan_pack (n : Nat) (f : Chan → Chan) : (s.onChan n f).pack = s.pack := rfl
@[simp] theorem State.onChan_power (n : Nat) (f : Chan → Chan) : (s.onChan n f).power = s.power := rfl
@[simp] theorem State.onChan_sec (n : Nat) (f : Chan → Chan) : (s.onChan n f).sec = s.sec := rfl
@[simp] theorem State.onChan_sb (n : Nat) (f : Chan → Chan) : (s.onChan n f).sb = s.sb := rfl
@[simp] theorem State.onChan_tap (n : Nat) (f : Chan → Chan) : (s.onChan n f).tap = s.tap := rfl
@[simp] theorem State.onChan_pins (n : Nat) (f : Chan → Chan) : (s.onChan n f).pins = s.pins := rfl
@[simp] theorem State.onChan_freeCtr (n : Nat) (f : Chan → Chan) : (s.onChan n f).freeCtr = s.freeCtr := rfl
@[simp] theorem State.onChan_pending (n : Nat) (f : Chan → Chan) : (s.onChan n f).pending = s.pending := rfl
@[simp] theorem State.onPort_split (n : Nat) (f : Port → Port) : (s.onPort n f).split = s.split := rfl
@[simp] theorem State.onPort_bonded (n : Nat) (f : Port → Port) : (s.onPort n f).bonded = s.bonded := rfl
@[simp] theorem State.onPort_side (n : Nat) (f : Port → Port) : (s.onPort n f).side = s.side := rfl
@[simp] theorem State.onPort_west (n : Nat) (f : Port → Port) : (s.onPort n f).west = s.west := rfl
@[simp] theorem State.onPort_east (n : Nat) (f : Port → Port) : (s.onPort n f).east = s.east := rfl
@[simp] theorem State.onPort_clusters (n : Nat) (f : Port → Port) : (s.onPort n f).clusters = s.clusters := rfl
@[simp] theorem State.onPort_chans (n : Nat) (f : Port → Port) : (s.onPort n f).chans = s.chans := rfl
@[simp] theorem State.onPort_link (n : Nat) (f : Port → Port) : (s.onPort n f).link = s.link := rfl
@[simp] theorem State.onPort_sq (n : Nat) (f : Port → Port) : (s.onPort n f).sq = s.sq := rfl
@[simp] theorem State.onPort_cq (n : Nat) (f : Port → Port) : (s.onPort n f).cq = s.cq := rfl
@[simp] theorem State.onPort_flights (n : Nat) (f : Port → Port) : (s.onPort n f).flights = s.flights := rfl
@[simp] theorem State.onPort_fetched (n : Nat) (f : Port → Port) : (s.onPort n f).fetched = s.fetched := rfl
@[simp] theorem State.onPort_domainId (n : Nat) (f : Port → Port) : (s.onPort n f).domainId = s.domainId := rfl
@[simp] theorem State.onPort_domainSet (n : Nat) (f : Port → Port) : (s.onPort n f).domainSet = s.domainSet := rfl
@[simp] theorem State.onPort_mirrorSrc (n : Nat) (f : Port → Port) : (s.onPort n f).mirrorSrc = s.mirrorSrc := rfl
@[simp] theorem State.onPort_mapFault (n : Nat) (f : Port → Port) : (s.onPort n f).mapFault = s.mapFault := rfl
@[simp] theorem State.onPort_mapEntry (n : Nat) (f : Port → Port) : (s.onPort n f).mapEntry = s.mapEntry := rfl
@[simp] theorem State.onPort_mapDevice (n : Nat) (f : Port → Port) : (s.onPort n f).mapDevice = s.mapDevice := rfl
@[simp] theorem State.onPort_mapWing (n : Nat) (f : Port → Port) : (s.onPort n f).mapWing = s.mapWing := rfl
@[simp] theorem State.onPort_hopLimit (n : Nat) (f : Port → Port) : (s.onPort n f).hopLimit = s.hopLimit := rfl
@[simp] theorem State.onPort_extTimeout (n : Nat) (f : Port → Port) : (s.onPort n f).extTimeout = s.extTimeout := rfl
@[simp] theorem State.onPort_groupBase (n : Nat) (f : Port → Port) : (s.onPort n f).groupBase = s.groupBase := rfl
@[simp] theorem State.onPort_groupLimit (n : Nat) (f : Port → Port) : (s.onPort n f).groupLimit = s.groupLimit := rfl
@[simp] theorem State.onPort_curveBase (n : Nat) (f : Port → Port) : (s.onPort n f).curveBase = s.curveBase := rfl
@[simp] theorem State.onPort_curveLimit (n : Nat) (f : Port → Port) : (s.onPort n f).curveLimit = s.curveLimit := rfl
@[simp] theorem State.onPort_seamKnown (n : Nat) (f : Port → Port) : (s.onPort n f).seamKnown = s.seamKnown := rfl
@[simp] theorem State.onPort_capstoned (n : Nat) (f : Port → Port) : (s.onPort n f).capstoned = s.capstoned := rfl
@[simp] theorem State.onPort_deferred (n : Nat) (f : Port → Port) : (s.onPort n f).deferred = s.deferred := rfl
@[simp] theorem State.onPort_health (n : Nat) (f : Port → Port) : (s.onPort n f).health = s.health := rfl
@[simp] theorem State.onPort_pack (n : Nat) (f : Port → Port) : (s.onPort n f).pack = s.pack := rfl
@[simp] theorem State.onPort_power (n : Nat) (f : Port → Port) : (s.onPort n f).power = s.power := rfl
@[simp] theorem State.onPort_sec (n : Nat) (f : Port → Port) : (s.onPort n f).sec = s.sec := rfl
@[simp] theorem State.onPort_sb (n : Nat) (f : Port → Port) : (s.onPort n f).sb = s.sb := rfl
@[simp] theorem State.onPort_tap (n : Nat) (f : Port → Port) : (s.onPort n f).tap = s.tap := rfl
@[simp] theorem State.onPort_pins (n : Nat) (f : Port → Port) : (s.onPort n f).pins = s.pins := rfl
@[simp] theorem State.onPort_freeCtr (n : Nat) (f : Port → Port) : (s.onPort n f).freeCtr = s.freeCtr := rfl
@[simp] theorem State.onPort_pending (n : Nat) (f : Port → Port) : (s.onPort n f).pending = s.pending := rfl
@[simp] theorem State.onSring_split (n : Nat) (f : SubRing → SubRing) : (s.onSring n f).split = s.split := rfl
@[simp] theorem State.onSring_bonded (n : Nat) (f : SubRing → SubRing) : (s.onSring n f).bonded = s.bonded := rfl
@[simp] theorem State.onSring_side (n : Nat) (f : SubRing → SubRing) : (s.onSring n f).side = s.side := rfl
@[simp] theorem State.onSring_west (n : Nat) (f : SubRing → SubRing) : (s.onSring n f).west = s.west := rfl
@[simp] theorem State.onSring_east (n : Nat) (f : SubRing → SubRing) : (s.onSring n f).east = s.east := rfl
@[simp] theorem State.onSring_clusters (n : Nat) (f : SubRing → SubRing) : (s.onSring n f).clusters = s.clusters := rfl
@[simp] theorem State.onSring_chans (n : Nat) (f : SubRing → SubRing) : (s.onSring n f).chans = s.chans := rfl
@[simp] theorem State.onSring_ports (n : Nat) (f : SubRing → SubRing) : (s.onSring n f).ports = s.ports := rfl
@[simp] theorem State.onSring_link (n : Nat) (f : SubRing → SubRing) : (s.onSring n f).link = s.link := rfl
@[simp] theorem State.onSring_cq (n : Nat) (f : SubRing → SubRing) : (s.onSring n f).cq = s.cq := rfl
@[simp] theorem State.onSring_flights (n : Nat) (f : SubRing → SubRing) : (s.onSring n f).flights = s.flights := rfl
@[simp] theorem State.onSring_fetched (n : Nat) (f : SubRing → SubRing) : (s.onSring n f).fetched = s.fetched := rfl
@[simp] theorem State.onSring_domainId (n : Nat) (f : SubRing → SubRing) : (s.onSring n f).domainId = s.domainId := rfl
@[simp] theorem State.onSring_domainSet (n : Nat) (f : SubRing → SubRing) : (s.onSring n f).domainSet = s.domainSet := rfl
@[simp] theorem State.onSring_mirrorSrc (n : Nat) (f : SubRing → SubRing) : (s.onSring n f).mirrorSrc = s.mirrorSrc := rfl
@[simp] theorem State.onSring_mapFault (n : Nat) (f : SubRing → SubRing) : (s.onSring n f).mapFault = s.mapFault := rfl
@[simp] theorem State.onSring_mapEntry (n : Nat) (f : SubRing → SubRing) : (s.onSring n f).mapEntry = s.mapEntry := rfl
@[simp] theorem State.onSring_mapDevice (n : Nat) (f : SubRing → SubRing) : (s.onSring n f).mapDevice = s.mapDevice := rfl
@[simp] theorem State.onSring_mapWing (n : Nat) (f : SubRing → SubRing) : (s.onSring n f).mapWing = s.mapWing := rfl
@[simp] theorem State.onSring_hopLimit (n : Nat) (f : SubRing → SubRing) : (s.onSring n f).hopLimit = s.hopLimit := rfl
@[simp] theorem State.onSring_extTimeout (n : Nat) (f : SubRing → SubRing) : (s.onSring n f).extTimeout = s.extTimeout := rfl
@[simp] theorem State.onSring_groupBase (n : Nat) (f : SubRing → SubRing) : (s.onSring n f).groupBase = s.groupBase := rfl
@[simp] theorem State.onSring_groupLimit (n : Nat) (f : SubRing → SubRing) : (s.onSring n f).groupLimit = s.groupLimit := rfl
@[simp] theorem State.onSring_curveBase (n : Nat) (f : SubRing → SubRing) : (s.onSring n f).curveBase = s.curveBase := rfl
@[simp] theorem State.onSring_curveLimit (n : Nat) (f : SubRing → SubRing) : (s.onSring n f).curveLimit = s.curveLimit := rfl
@[simp] theorem State.onSring_seamKnown (n : Nat) (f : SubRing → SubRing) : (s.onSring n f).seamKnown = s.seamKnown := rfl
@[simp] theorem State.onSring_capstoned (n : Nat) (f : SubRing → SubRing) : (s.onSring n f).capstoned = s.capstoned := rfl
@[simp] theorem State.onSring_deferred (n : Nat) (f : SubRing → SubRing) : (s.onSring n f).deferred = s.deferred := rfl
@[simp] theorem State.onSring_health (n : Nat) (f : SubRing → SubRing) : (s.onSring n f).health = s.health := rfl
@[simp] theorem State.onSring_pack (n : Nat) (f : SubRing → SubRing) : (s.onSring n f).pack = s.pack := rfl
@[simp] theorem State.onSring_power (n : Nat) (f : SubRing → SubRing) : (s.onSring n f).power = s.power := rfl
@[simp] theorem State.onSring_sec (n : Nat) (f : SubRing → SubRing) : (s.onSring n f).sec = s.sec := rfl
@[simp] theorem State.onSring_sb (n : Nat) (f : SubRing → SubRing) : (s.onSring n f).sb = s.sb := rfl
@[simp] theorem State.onSring_tap (n : Nat) (f : SubRing → SubRing) : (s.onSring n f).tap = s.tap := rfl
@[simp] theorem State.onSring_pins (n : Nat) (f : SubRing → SubRing) : (s.onSring n f).pins = s.pins := rfl
@[simp] theorem State.onSring_freeCtr (n : Nat) (f : SubRing → SubRing) : (s.onSring n f).freeCtr = s.freeCtr := rfl
@[simp] theorem State.onSring_pending (n : Nat) (f : SubRing → SubRing) : (s.onSring n f).pending = s.pending := rfl
@[simp] theorem State.onCring_split (n : Nat) (f : CompRing → CompRing) : (s.onCring n f).split = s.split := rfl
@[simp] theorem State.onCring_bonded (n : Nat) (f : CompRing → CompRing) : (s.onCring n f).bonded = s.bonded := rfl
@[simp] theorem State.onCring_side (n : Nat) (f : CompRing → CompRing) : (s.onCring n f).side = s.side := rfl
@[simp] theorem State.onCring_west (n : Nat) (f : CompRing → CompRing) : (s.onCring n f).west = s.west := rfl
@[simp] theorem State.onCring_east (n : Nat) (f : CompRing → CompRing) : (s.onCring n f).east = s.east := rfl
@[simp] theorem State.onCring_clusters (n : Nat) (f : CompRing → CompRing) : (s.onCring n f).clusters = s.clusters := rfl
@[simp] theorem State.onCring_chans (n : Nat) (f : CompRing → CompRing) : (s.onCring n f).chans = s.chans := rfl
@[simp] theorem State.onCring_ports (n : Nat) (f : CompRing → CompRing) : (s.onCring n f).ports = s.ports := rfl
@[simp] theorem State.onCring_link (n : Nat) (f : CompRing → CompRing) : (s.onCring n f).link = s.link := rfl
@[simp] theorem State.onCring_sq (n : Nat) (f : CompRing → CompRing) : (s.onCring n f).sq = s.sq := rfl
@[simp] theorem State.onCring_flights (n : Nat) (f : CompRing → CompRing) : (s.onCring n f).flights = s.flights := rfl
@[simp] theorem State.onCring_fetched (n : Nat) (f : CompRing → CompRing) : (s.onCring n f).fetched = s.fetched := rfl
@[simp] theorem State.onCring_domainId (n : Nat) (f : CompRing → CompRing) : (s.onCring n f).domainId = s.domainId := rfl
@[simp] theorem State.onCring_domainSet (n : Nat) (f : CompRing → CompRing) : (s.onCring n f).domainSet = s.domainSet := rfl
@[simp] theorem State.onCring_mirrorSrc (n : Nat) (f : CompRing → CompRing) : (s.onCring n f).mirrorSrc = s.mirrorSrc := rfl
@[simp] theorem State.onCring_mapFault (n : Nat) (f : CompRing → CompRing) : (s.onCring n f).mapFault = s.mapFault := rfl
@[simp] theorem State.onCring_mapEntry (n : Nat) (f : CompRing → CompRing) : (s.onCring n f).mapEntry = s.mapEntry := rfl
@[simp] theorem State.onCring_mapDevice (n : Nat) (f : CompRing → CompRing) : (s.onCring n f).mapDevice = s.mapDevice := rfl
@[simp] theorem State.onCring_mapWing (n : Nat) (f : CompRing → CompRing) : (s.onCring n f).mapWing = s.mapWing := rfl
@[simp] theorem State.onCring_hopLimit (n : Nat) (f : CompRing → CompRing) : (s.onCring n f).hopLimit = s.hopLimit := rfl
@[simp] theorem State.onCring_extTimeout (n : Nat) (f : CompRing → CompRing) : (s.onCring n f).extTimeout = s.extTimeout := rfl
@[simp] theorem State.onCring_groupBase (n : Nat) (f : CompRing → CompRing) : (s.onCring n f).groupBase = s.groupBase := rfl
@[simp] theorem State.onCring_groupLimit (n : Nat) (f : CompRing → CompRing) : (s.onCring n f).groupLimit = s.groupLimit := rfl
@[simp] theorem State.onCring_curveBase (n : Nat) (f : CompRing → CompRing) : (s.onCring n f).curveBase = s.curveBase := rfl
@[simp] theorem State.onCring_curveLimit (n : Nat) (f : CompRing → CompRing) : (s.onCring n f).curveLimit = s.curveLimit := rfl
@[simp] theorem State.onCring_seamKnown (n : Nat) (f : CompRing → CompRing) : (s.onCring n f).seamKnown = s.seamKnown := rfl
@[simp] theorem State.onCring_capstoned (n : Nat) (f : CompRing → CompRing) : (s.onCring n f).capstoned = s.capstoned := rfl
@[simp] theorem State.onCring_deferred (n : Nat) (f : CompRing → CompRing) : (s.onCring n f).deferred = s.deferred := rfl
@[simp] theorem State.onCring_health (n : Nat) (f : CompRing → CompRing) : (s.onCring n f).health = s.health := rfl
@[simp] theorem State.onCring_pack (n : Nat) (f : CompRing → CompRing) : (s.onCring n f).pack = s.pack := rfl
@[simp] theorem State.onCring_power (n : Nat) (f : CompRing → CompRing) : (s.onCring n f).power = s.power := rfl
@[simp] theorem State.onCring_sec (n : Nat) (f : CompRing → CompRing) : (s.onCring n f).sec = s.sec := rfl
@[simp] theorem State.onCring_sb (n : Nat) (f : CompRing → CompRing) : (s.onCring n f).sb = s.sb := rfl
@[simp] theorem State.onCring_tap (n : Nat) (f : CompRing → CompRing) : (s.onCring n f).tap = s.tap := rfl
@[simp] theorem State.onCring_pins (n : Nat) (f : CompRing → CompRing) : (s.onCring n f).pins = s.pins := rfl
@[simp] theorem State.onCring_freeCtr (n : Nat) (f : CompRing → CompRing) : (s.onCring n f).freeCtr = s.freeCtr := rfl
@[simp] theorem State.onCring_pending (n : Nat) (f : CompRing → CompRing) : (s.onCring n f).pending = s.pending := rfl
@[simp] theorem State.onFlight_split (r : Nat) (q : BitVec 32) (f : Flight → Flight) : (s.onFlight r q f).split = s.split := rfl
@[simp] theorem State.onFlight_bonded (r : Nat) (q : BitVec 32) (f : Flight → Flight) : (s.onFlight r q f).bonded = s.bonded := rfl
@[simp] theorem State.onFlight_side (r : Nat) (q : BitVec 32) (f : Flight → Flight) : (s.onFlight r q f).side = s.side := rfl
@[simp] theorem State.onFlight_west (r : Nat) (q : BitVec 32) (f : Flight → Flight) : (s.onFlight r q f).west = s.west := rfl
@[simp] theorem State.onFlight_east (r : Nat) (q : BitVec 32) (f : Flight → Flight) : (s.onFlight r q f).east = s.east := rfl
@[simp] theorem State.onFlight_clusters (r : Nat) (q : BitVec 32) (f : Flight → Flight) : (s.onFlight r q f).clusters = s.clusters := rfl
@[simp] theorem State.onFlight_chans (r : Nat) (q : BitVec 32) (f : Flight → Flight) : (s.onFlight r q f).chans = s.chans := rfl
@[simp] theorem State.onFlight_ports (r : Nat) (q : BitVec 32) (f : Flight → Flight) : (s.onFlight r q f).ports = s.ports := rfl
@[simp] theorem State.onFlight_link (r : Nat) (q : BitVec 32) (f : Flight → Flight) : (s.onFlight r q f).link = s.link := rfl
@[simp] theorem State.onFlight_sq (r : Nat) (q : BitVec 32) (f : Flight → Flight) : (s.onFlight r q f).sq = s.sq := rfl
@[simp] theorem State.onFlight_cq (r : Nat) (q : BitVec 32) (f : Flight → Flight) : (s.onFlight r q f).cq = s.cq := rfl
@[simp] theorem State.onFlight_fetched (r : Nat) (q : BitVec 32) (f : Flight → Flight) : (s.onFlight r q f).fetched = s.fetched := rfl
@[simp] theorem State.onFlight_domainId (r : Nat) (q : BitVec 32) (f : Flight → Flight) : (s.onFlight r q f).domainId = s.domainId := rfl
@[simp] theorem State.onFlight_domainSet (r : Nat) (q : BitVec 32) (f : Flight → Flight) : (s.onFlight r q f).domainSet = s.domainSet := rfl
@[simp] theorem State.onFlight_mirrorSrc (r : Nat) (q : BitVec 32) (f : Flight → Flight) : (s.onFlight r q f).mirrorSrc = s.mirrorSrc := rfl
@[simp] theorem State.onFlight_mapFault (r : Nat) (q : BitVec 32) (f : Flight → Flight) : (s.onFlight r q f).mapFault = s.mapFault := rfl
@[simp] theorem State.onFlight_mapEntry (r : Nat) (q : BitVec 32) (f : Flight → Flight) : (s.onFlight r q f).mapEntry = s.mapEntry := rfl
@[simp] theorem State.onFlight_mapDevice (r : Nat) (q : BitVec 32) (f : Flight → Flight) : (s.onFlight r q f).mapDevice = s.mapDevice := rfl
@[simp] theorem State.onFlight_mapWing (r : Nat) (q : BitVec 32) (f : Flight → Flight) : (s.onFlight r q f).mapWing = s.mapWing := rfl
@[simp] theorem State.onFlight_hopLimit (r : Nat) (q : BitVec 32) (f : Flight → Flight) : (s.onFlight r q f).hopLimit = s.hopLimit := rfl
@[simp] theorem State.onFlight_extTimeout (r : Nat) (q : BitVec 32) (f : Flight → Flight) : (s.onFlight r q f).extTimeout = s.extTimeout := rfl
@[simp] theorem State.onFlight_groupBase (r : Nat) (q : BitVec 32) (f : Flight → Flight) : (s.onFlight r q f).groupBase = s.groupBase := rfl
@[simp] theorem State.onFlight_groupLimit (r : Nat) (q : BitVec 32) (f : Flight → Flight) : (s.onFlight r q f).groupLimit = s.groupLimit := rfl
@[simp] theorem State.onFlight_curveBase (r : Nat) (q : BitVec 32) (f : Flight → Flight) : (s.onFlight r q f).curveBase = s.curveBase := rfl
@[simp] theorem State.onFlight_curveLimit (r : Nat) (q : BitVec 32) (f : Flight → Flight) : (s.onFlight r q f).curveLimit = s.curveLimit := rfl
@[simp] theorem State.onFlight_seamKnown (r : Nat) (q : BitVec 32) (f : Flight → Flight) : (s.onFlight r q f).seamKnown = s.seamKnown := rfl
@[simp] theorem State.onFlight_capstoned (r : Nat) (q : BitVec 32) (f : Flight → Flight) : (s.onFlight r q f).capstoned = s.capstoned := rfl
@[simp] theorem State.onFlight_deferred (r : Nat) (q : BitVec 32) (f : Flight → Flight) : (s.onFlight r q f).deferred = s.deferred := rfl
@[simp] theorem State.onFlight_health (r : Nat) (q : BitVec 32) (f : Flight → Flight) : (s.onFlight r q f).health = s.health := rfl
@[simp] theorem State.onFlight_pack (r : Nat) (q : BitVec 32) (f : Flight → Flight) : (s.onFlight r q f).pack = s.pack := rfl
@[simp] theorem State.onFlight_power (r : Nat) (q : BitVec 32) (f : Flight → Flight) : (s.onFlight r q f).power = s.power := rfl
@[simp] theorem State.onFlight_sec (r : Nat) (q : BitVec 32) (f : Flight → Flight) : (s.onFlight r q f).sec = s.sec := rfl
@[simp] theorem State.onFlight_sb (r : Nat) (q : BitVec 32) (f : Flight → Flight) : (s.onFlight r q f).sb = s.sb := rfl
@[simp] theorem State.onFlight_tap (r : Nat) (q : BitVec 32) (f : Flight → Flight) : (s.onFlight r q f).tap = s.tap := rfl
@[simp] theorem State.onFlight_pins (r : Nat) (q : BitVec 32) (f : Flight → Flight) : (s.onFlight r q f).pins = s.pins := rfl
@[simp] theorem State.onFlight_freeCtr (r : Nat) (q : BitVec 32) (f : Flight → Flight) : (s.onFlight r q f).freeCtr = s.freeCtr := rfl
@[simp] theorem State.onFlight_pending (r : Nat) (q : BitVec 32) (f : Flight → Flight) : (s.onFlight r q f).pending = s.pending := rfl

/-! ### Wings and cores -/

@[simp] theorem State.wing_setWing_same (w : Nat) : (s.setWing w x).wing w = x := by
  unfold State.setWing State.wing; split <;> simp_all
theorem State.wing_setWing (w v : Nat) : (s.setWing w x).wing v = if (v = 0 ↔ w = 0) then x else s.wing v := by
  unfold State.setWing State.wing; split <;> split <;> simp_all
@[simp] theorem State.wing_onWing_same (w : Nat) : (s.onWing w g).wing w = g (s.wing w) := State.wing_setWing_same ..
theorem State.wing_onWing (w v : Nat) : (s.onWing w g).wing v = if (v = 0 ↔ w = 0) then g (s.wing v) else s.wing v := by
  unfold State.onWing; rw [State.wing_setWing]
  split
  · rename_i e; have : s.wing w = s.wing v := by unfold State.wing; simp [e]
    rw [this]
  · rfl
@[simp] theorem State.setWing_setWing (w : Nat) (y : WingState) : (s.setWing w x).setWing w y = s.setWing w y := by
  unfold State.setWing; split <;> rfl
@[simp] theorem State.setWing_wing (w : Nat) : s.setWing w (s.wing w) = s := by
  unfold State.setWing State.wing; split <;> simp_all

@[simp] theorem State.lead_setWing (w v : Nat) : (s.setWing w x).lead v = s.lead v := by simp [State.lead]
@[simp] theorem State.lead_onWing (w v : Nat) : (s.onWing w g).lead v = s.lead v := by simp [State.lead]
@[simp] theorem State.lead_setCore (k v : Nat) : (s.setCore k c).lead v = s.lead v := by simp [State.lead]
@[simp] theorem State.lead_onCore (k v : Nat) : (s.onCore k h).lead v = s.lead v := by simp [State.lead]
@[simp] theorem State.lead_lead (w : Nat) : s.lead (s.lead w) = s.lead w := by unfold State.lead; split <;> simp_all

@[simp] theorem State.core_setCore_same (k : Nat) : (s.setCore k c).core k = c := by
  simp [State.core, State.setCore, WingState.core, Map.get_set_same]
theorem State.core_setCore_ne (k j : Nat) (e : j ≠ k) : (s.setCore k c).core j = s.core j := by
  simp only [State.core, State.setCore, State.wing_onWing]
  split
  · simp [WingState.core, Map.get_set_ne _ _ _ _ _ e]
  · rfl
/-- A core read after one core has been replaced. -/
theorem State.core_setCore (k j : Nat) : (s.setCore k c).core j = if j = k then c else s.core j := by
  split
  · subst_vars; simp
  · exact State.core_setCore_ne _ _ _ _ ‹_›
@[simp] theorem State.core_onCore_same (k : Nat) : (s.onCore k h).core k = h (s.core k) := State.core_setCore_same ..
theorem State.core_onCore (k j : Nat) : (s.onCore k h).core j = if j = k then h (s.core j) else s.core j := by
  unfold State.onCore; rw [State.core_setCore]; split <;> simp_all
@[simp] theorem State.setCore_setCore (k : Nat) (d : Core) : (s.setCore k c).setCore k d = s.setCore k d := by
  simp only [State.setCore, State.onWing, State.wing_setWing_same, State.setWing_setWing, Map.set_set]

/-- A wing keeps everything but its listed cores when one core is replaced. -/
theorem State.wing_setCore (k w : Nat) : ((s.setCore k c).wing w) = { s.wing w with cores := ((s.setCore k c).wing w).cores } := by
  simp only [State.setCore, State.wing_onWing]; split <;> rfl
/-- The module keeps everything but its wings when one core is replaced. -/
theorem State.setCore_outside (k : Nat) : ({ s.setCore k c with west := s.west, east := s.east } : State) = s := by
  unfold State.setCore State.onWing State.setWing; split <;> rfl

end Sys2Proof.Machine
end

