-- ==== Sys2Proof/Laws/Faults.lean ====
section
/-!
SUPPORT. What the shared operations that decide a descriptor and end a step can do: sending frames, writes that waited, the
close of a step, the outcome of a descriptor, and a fault on the array (R168, R297, R319, R354, R356).
-/

namespace Sys2Proof.Machine

/-! ### Guards -/

@[simp] theorem atCore_valid {k : Nat} (r : Res) (h : validCore k = true) : atCore k r = r := by simp [atCore, h]
@[simp] theorem below_lt {n i : Nat} (r : Res) (h : i < n) : below n i r = r := by simp [below, h]
@[simp] theorem atWing_lt {w : Nat} (r : Res) (h : w < 2) : atWing w r = r := by simp [atWing, h]

/-- A core that acts on a command runs its operation. -/
theorem State.actAt_acting (s : State) (k : Nat) (i : Instr) (op : Core → Core × Option CoreFault) (h : validCore k = true)
    (ha : s.acting k i = true) : s.actAt k i op = .next (s.coreStep k (op (s.core k))) := by
  simp [State.actAt, h, ha]
/-- A core that does not act on a command does nothing. -/
theorem State.actAt_idle (s : State) (k : Nat) (i : Instr) (op : Core → Core × Option CoreFault) (h : validCore k = true)
    (ha : s.acting k i = false) : s.actAt k i op = .next s := by
  simp [State.actAt, h, ha]
/-- A memory-port command that does not act does nothing. -/
theorem State.portAt_idle (s : State) (k : Nat) (word i : Instr) (h : validCore k = true) (ha : s.acting k word = false) :
    s.portAt k word i = .next s := by
  unfold State.portAt; rw [atCore_valid _ h]; split <;> simp [ha]
/-- A memory-port command that acts starts; it waits where its data is late (R63, R109). -/
theorem State.portAt_acting (s : State) (k : Nat) (word i : Instr) (p : PortCmd) (h : validCore k = true) (hp : portOf i = some p)
    (ha : s.acting k word = true) : s.portAt k word i = .next (s.portStart k i p) := by
  unfold State.portAt; rw [atCore_valid _ h, hp]; simp [ha]
/-- A memory-port command whose data is there runs as any other command of the core. -/
theorem State.portStart_now (s : State) (k : Nat) (i : Instr) (p : PortCmd) (h : s.portLate k p.op p.cmd = none) :
    s.portStart k i p = s.coreStep k (p.run (s.core k)) := by
  unfold State.portStart; rw [h]
/-- A core operation without a fault changes its core alone. -/
@[simp] theorem State.coreStep_ok (s : State) (k : Nat) (c : Core) : s.coreStep k (c, none) = s.setCore k c := rfl
/-- A core operation with a fault is followed by what the fault brings. -/
@[simp] theorem State.coreStep_fault (s : State) (k : Nat) (c : Core) (f : CoreFault) :
    s.coreStep k (c, some f) = (s.setCore k c).coreFault k f := rfl

/-! ### Frames sent (R314, R317) -/

/-- What sending frames may change: the ports, and the fabric state of both wings. -/
def State.Sent (s t : State) : Prop :=
  ({ t with ports := s.ports, west := { t.west with fab := s.west.fab }, east := { t.east with fab := s.east.fab } } : State) = s

theorem State.Sent.refl (s : State) : State.Sent s s := rfl
theorem State.Sent.trans {s t u : State} (h : State.Sent s t) (k : State.Sent t u) : State.Sent s u := by
  unfold State.Sent at *
  rw [← h]; simp only
  rw [← k]
theorem State.sent_onFab (s : State) (w : Nat) (f : Fabric → Fabric) : State.Sent s (s.onFab w f) := by
  unfold State.Sent State.onFab State.onWing State.setWing State.wing; split <;> simp
theorem State.sent_onPort (s : State) (p : Nat) (f : Port → Port) : State.Sent s (s.onPort p f) := rfl
/-- A frame sent changes only ports and fabric state. -/
theorem State.sendFrame_sent (s t : State) (w : Nat) (op : Option (Nat × Nat)) (f : Frame) (h : s.sendFrame w op f = some t) :
    State.Sent s t := by
  unfold State.sendFrame at h; dsimp only at h
  split at h
  · cases h; exact .refl s
  split at h
  · cases h; exact s.sent_onFab _ _
  · rw [Option.map_eq_some_iff] at h
    obtain ⟨p, -, rfl⟩ := h
    exact s.sent_onPort _ _
/-- So do frames sent where a port is found. -/
theorem State.trySend_sent (w : Nat) (fs : List Frame) : ∀ s : State, State.Sent s (s.trySend w fs) := by
  induction fs with
  | nil => intro s; exact .refl s
  | cons f fs ih =>
    intro s
    have e : s.trySend w (f :: fs) = ((s.sendFrame w none f).getD s).trySend w fs := rfl
    rw [e]
    refine State.Sent.trans ?_ (ih _)
    cases h : s.sendFrame w none f with
    | none => exact .refl s
    | some t => exact s.sendFrame_sent _ _ _ _ h
theorem State.sent_foldl {α : Type} (f : State → α → State) (hf : ∀ t a, State.Sent t (f t a)) (xs : List α) :
    ∀ s, State.Sent s (xs.foldl f s) := by
  induction xs with
  | nil => intro s; exact .refl s
  | cons a xs ih => intro s; exact (hf s a).trans (ih _)
/-- Frames that no operation awaits any more are discarded and counted at their ports. -/
theorem State.dropWaiting_sent (s : State) (w : Nat) (fl : List (Nat × Nat)) : State.Sent s (s.dropWaiting w fl) := by
  unfold State.dropWaiting
  refine State.Sent.trans (t := s.onFab w _) (s.sent_onFab w _) (State.sent_foldl _ (fun t e => ?_) _ _)
  split
  · exact t.sent_onPort _ _
  · exact .refl t
theorem State.abandonFlows_sent (s : State) (w : Nat) (fl : List (Nat × Nat)) : State.Sent s (s.abandonFlows w fl) :=
  (State.trySend_sent _ _ _).trans (State.dropWaiting_sent _ _ _)
theorem State.abandonStep_sent (s : State) (w : Nat) : State.Sent s (s.abandonStep w) := State.abandonFlows_sent _ _ _
theorem State.Sent.wing {s t : State} (h : State.Sent s t) (w : Nat) : t.wing w = { s.wing w with fab := (t.wing w).fab } := by
  unfold State.Sent at h
  have hw := congrArg State.west h
  have he := congrArg State.east h
  simp only at hw he
  unfold State.wing; split
  · rw [← hw]
  · rw [← he]

/-! ### The end of a step's work (R168, R297, R319, R350) -/

/-- What the end of a descriptor's work may change: the wings, the ports, and the registers whose writes waited. -/
def State.Ended (s t : State) : Prop :=
  ({ t with west := s.west, east := s.east, ports := s.ports, hopLimit := s.hopLimit, extTimeout := s.extTimeout,
            domainId := s.domainId, domainSet := s.domainSet, mirrorSrc := s.mirrorSrc, deferred := s.deferred } : State) = s

theorem State.Ended.refl (s : State) : State.Ended s s := rfl
theorem State.Ended.trans {s t u : State} (h : State.Ended s t) (k : State.Ended t u) : State.Ended s u := by
  unfold State.Ended at *
  rw [← h]; simp only
  rw [← k]
theorem State.Sent.ended {s t : State} (h : State.Sent s t) : State.Ended s t := by
  unfold State.Sent at h; unfold State.Ended
  rw [← h]
theorem State.ended_onWing (s : State) (w : Nat) (f : WingState → WingState) : State.Ended s (s.onWing w f) := by
  unfold State.Ended State.onWing State.setWing; split <;> rfl
theorem State.ended_onCore (s : State) (k : Nat) (f : Core → Core) : State.Ended s (s.onCore k f) := s.ended_onWing _ _
theorem State.ended_foldl {α : Type} (f : State → α → State) (hf : ∀ t a, State.Ended t (f t a)) (xs : List α) :
    ∀ s, State.Ended s (xs.foldl f s) := by
  induction xs with
  | nil => intro s; exact .refl s
  | cons a xs ih => intro s; exact (hf s a).trans (ih _)
theorem State.ended_mapCores (s : State) (w : Nat) (f : Core → Core) : State.Ended s (s.mapCores w f) :=
  State.ended_foldl _ (fun t v => t.ended_onWing v _) _ s
theorem State.ended_onWings (s : State) (w : Nat) (f : WingState → WingState) : State.Ended s (s.onWings w f) :=
  State.ended_foldl _ (fun t v => t.ended_onWing v _) _ s
theorem State.ended_applyFab (s : State) (off : Nat) (v : Word) : State.Ended s (s.applyFab off v) := by
  unfold State.applyFab; simp only; repeat' split
  all_goals rfl
/-- Writes that waited change the registers whose writes wait, and nothing else. -/
theorem State.ended_flushDeferred (s : State) : State.Ended s s.flushDeferred := by
  unfold State.flushDeferred; split
  · exact .refl s
  · have h := State.ended_foldl (fun t (e : Nat × Word) => t.applyFab e.1 e.2) (fun t e => t.ended_applyFab e.1 e.2) s.deferred s
    exact h
theorem State.ended_closeStep (s : State) (w : Nat) (b : Bool) : State.Ended s (s.closeStep w b) := by
  unfold State.closeStep; simp only; split
  · exact (((s.ended_mapCores _ _).trans (State.ended_onWings _ _ _)).trans (State.ended_onWing _ _ _)).trans (State.ended_flushDeferred _)
  · exact .refl s
theorem State.ended_undoLoad (s : State) (f : Flight) : State.Ended s (s.undoLoad f) := by
  unfold State.undoLoad
  exact (State.ended_foldl (fun (t : State) (e : Nat × Nat) => t.onCore e.1 (fun c => { c with mem := c.mem.turnOff (BitVec.ofNat 8 e.2) }))
    (fun t e => t.ended_onCore _ _) f.aux s).trans (State.ended_onWing _ _ _)
theorem State.ended_dropColl (s : State) (f : Flight) : State.Ended s (s.dropColl f) := by
  unfold State.dropColl; split
  · exact ((State.abandonFlows_sent _ _ _).trans (State.sent_onFab _ _ _)).ended
  · exact .refl s
/-- The work of a descriptor dropped changes wings, ports and waiting writes alone. -/
theorem State.ended_dropWork (s : State) (f : Flight) : State.Ended s (s.dropWork f) := by
  unfold State.dropWork; split
  · exact s.ended_dropColl f
  · split
    · refine State.Ended.trans ?_ (State.ended_onWing _ _ _)
      have h := (s.abandonStep_sent f.wing).ended.trans (State.ended_closeStep _ f.wing false)
      split
      · exact h.trans (State.ended_undoLoad _ f)
      · exact h
    · exact .refl s
theorem State.Ended.flights {s t : State} (h : State.Ended s t) : t.flights = s.flights := by
  unfold State.Ended at h; have := congrArg State.flights h; exact this
theorem State.Ended.split {s t : State} (h : State.Ended s t) : t.split = s.split := by
  unfold State.Ended at h; have := congrArg State.split h; exact this
theorem State.Ended.sq {s t : State} (h : State.Ended s t) : t.sq = s.sq := by
  unfold State.Ended at h; have := congrArg State.sq h; exact this
theorem State.Ended.cq {s t : State} (h : State.Ended s t) : t.cq = s.cq := by
  unfold State.Ended at h; have := congrArg State.cq h; exact this
theorem State.Ended.lead {s t : State} (h : State.Ended s t) (w : Nat) : t.lead w = s.lead w := by
  unfold State.lead; rw [h.split]
theorem State.Ended.sring {s t : State} (h : State.Ended s t) (i : Nat) : t.sring i = s.sring i := by
  unfold State.sring; rw [h.sq]
theorem State.Ended.cring {s t : State} (h : State.Ended s t) (i : Nat) : t.cring i = s.cring i := by
  unfold State.cring; rw [h.cq]

/-! ### The outcome of a descriptor (R354, R356) -/

/-- An outcome changes the descriptors in flight and a completion ring, and nothing else. -/
def State.Settled (s t : State) : Prop :=
  ({ t with flights := s.flights, cq := s.cq } : State) = s ∧ (∀ f ∈ t.flights, f ∈ s.flights) ∧
  ∀ j, ∃ rs, t.cring j = { s.cring j with waiting := (s.cring j).waiting ++ rs }

theorem State.Settled.refl (s : State) : State.Settled s s := ⟨rfl, fun _ h => h, fun j => ⟨[], by simp⟩⟩
theorem State.Settled.trans {s t u : State} (h : State.Settled s t) (k : State.Settled t u) : State.Settled s u := by
  refine ⟨?_, fun f hf => h.2.1 f (k.2.1 f hf), fun j => ?_⟩
  · rw [← h.1]; simp only
    rw [← k.1]
  · obtain ⟨a, ha⟩ := h.2.2 j
    obtain ⟨b, hb⟩ := k.2.2 j
    exact ⟨a ++ b, by rw [hb, ha]; simp⟩
/-- The record of an outcome joins those that wait on its ring, and the descriptor is no longer in flight. -/
theorem State.settleFlight_spec (s : State) (f : Flight) (disp : Nat) (code : Code) (kind loc : Nat) :
    State.Settled s (s.settleFlight f disp code kind loc) ∧
    (s.settleFlight f disp code kind loc).flights = s.flights.filter (fun x => !x.named f.ring f.seq) ∧
    (∃ r : OutRec, ((s.settleFlight f disp code kind loc).cring (s.sring f.ring).cq.toNat).waiting =
        (s.cring (s.sring f.ring).cq.toNat).waiting ++ [r] ∧
      r.ring = f.ring ∧ r.seq = f.seq ∧ r.family = famOf f.words ∧ r.disp = disp ∧ r.status = f.status ∧ r.fault = code ∧
      r.whereKind = kind ∧ r.where_ = loc) ∧
    ∀ j, j ≠ (s.sring f.ring).cq.toNat → (s.settleFlight f disp code kind loc).cring j = s.cring j := by
  obtain ⟨r, hr⟩ : ∃ r : OutRec, r =
      { ring := f.ring, seq := f.seq, family := famOf f.words, disp := disp, status := f.status
        fault := code, whereKind := kind, where_ := loc, user := BitVec.ofNat 64 (bits f.words 127 64)
        order := f.order, array := if f.cls = .array then some f.wing else none, after := f.after } := ⟨_, rfl⟩
  have e : s.settleFlight f disp code kind loc = { s with
      flights := s.flights.filter (fun x => !x.named f.ring f.seq),
      cq := Map.upd {} s.cq (s.sring f.ring).cq.toNat (fun c => { c with waiting := c.waiting ++ [r] }) } := by rw [hr]; rfl
  have hc : ∀ j, (s.settleFlight f disp code kind loc).cring j = if j = (s.sring f.ring).cq.toNat
      then { s.cring j with waiting := (s.cring j).waiting ++ [r] } else s.cring j := by
    intro j; rw [e]; unfold State.cring; dsimp only; rw [Map.get_upd]
    by_cases h : j = (s.sring f.ring).cq.toNat <;> simp [h]
  refine ⟨⟨?_, fun x hx => ?_, fun j => ?_⟩, ?_, ⟨r, ?_, by rw [hr], by rw [hr], by rw [hr], by rw [hr], by rw [hr], by rw [hr], by rw [hr], by rw [hr]⟩, fun j hj => ?_⟩
  · rw [e]
  · rw [e] at hx; exact (List.mem_filter.1 hx).1
  · rw [hc]; split
    · exact ⟨_, rfl⟩
    · exact ⟨[], by simp⟩
  · rw [e]
  · rw [hc]; simp
  · rw [hc]; simp [hj]
theorem State.Settled.wing {s t : State} (h : State.Settled s t) (w : Nat) : t.wing w = s.wing w := by
  have := congrArg (fun x => x.wing w) h.1; exact this
theorem State.Settled.core {s t : State} (h : State.Settled s t) (k : Nat) : t.core k = s.core k := by
  unfold State.core; rw [h.wing]
theorem State.Settled.sring {s t : State} (h : State.Settled s t) (i : Nat) : t.sring i = s.sring i := by
  have := congrArg (fun x => x.sring i) h.1; exact this
theorem State.Settled.split {s t : State} (h : State.Settled s t) : t.split = s.split := by
  have := congrArg State.split h.1; exact this
theorem State.Settled.lead {s t : State} (h : State.Settled s t) (w : Nat) : t.lead w = s.lead w := by
  unfold State.lead; rw [h.split]
/-- A descriptor settled is no longer in flight. -/
theorem State.settleFlight_gone (s : State) (f : Flight) (disp : Nat) (code : Code) (kind loc : Nat) :
    ∀ x ∈ (s.settleFlight f disp code kind loc).flights, x.named f.ring f.seq = false := by
  intro x hx
  rw [(s.settleFlight_spec f disp code kind loc).2.1] at hx
  have := (List.mem_filter.1 hx).2; simpa using this
/-- What a list of outcomes leaves. -/
theorem State.discardList (code : Code) (fs : List Flight) : ∀ s : State,
    State.Settled s (fs.foldl (fun s f => s.settleFlight { f with status := 0 } 4 code 0 0) s) ∧
    ∀ x ∈ (fs.foldl (fun s f => s.settleFlight { f with status := 0 } 4 code 0 0) s).flights, x ∉ fs := by
  induction fs with
  | nil => intro s; exact ⟨.refl s, by simp⟩
  | cons f fs ih =>
    intro s
    obtain ⟨h1, h2⟩ := ih (s.settleFlight { f with status := 0 } 4 code 0 0)
    refine ⟨(s.settleFlight_spec _ _ _ _ _).1.trans h1, fun x hx => ?_⟩
    have hg := s.settleFlight_gone { f with status := 0 } 4 code 0 0 x (h1.2.1 x hx)
    simp only [List.mem_cons, not_or]
    refine ⟨fun e => ?_, h2 x hx⟩
    subst e
    simp [Flight.named] at hg
/-- A discard leaves no descriptor that satisfies p in flight. -/
theorem State.discard_spec (s : State) (p : Flight → Bool) (code : Code) :
    State.Settled s (s.discard p code) ∧ ∀ x ∈ (s.discard p code).flights, p x = false := by
  obtain ⟨h1, h2⟩ := State.discardList code (s.flights.filter p) s
  refine ⟨h1, fun x hx => ?_⟩
  have hm := h1.2.1 x hx
  have hn := h2 x hx
  cases hp : p x with
  | false => rfl
  | true => exact absurd (List.mem_filter.2 ⟨hm, hp⟩) hn

/-! ### The close of a step (R168, R297) -/

/-- Every core of the wings that a controller directs takes f; their other fields stay. -/
theorem State.wing_mapCores (s : State) (w : Nat) (f : Core → Core) (v : Nat) :
    (s.mapCores w f).wing v = if s.split = false ∨ (v = 0 ↔ w = 0) then (s.wing v).mapCores f else s.wing v := by
  unfold State.mapCores State.wings
  cases hs : s.split with
  | true => simp [State.wing_onWing]
  | false =>
    simp only [Bool.false_eq_true, if_false, List.foldl_cons, List.foldl_nil, State.wing_onWing, true_or, if_true]
    by_cases h : v = 0 <;> simp [h]
/-- A write that waited keeps every field of a wing but its fabric state. -/
theorem State.wing_applyFab (s : State) (off : Nat) (v : Word) (w : Nat) :
    ∃ b, (s.applyFab off v).wing w = { s.wing w with fab := b } := by
  have h : (s.applyFab off v).west = { s.west with fab := (s.applyFab off v).west.fab } ∧
      (s.applyFab off v).east = { s.east with fab := (s.applyFab off v).east.fab } := by
    unfold State.applyFab; dsimp only
    repeat' split
    all_goals exact ⟨rfl, rfl⟩
  unfold State.wing; split
  · exact ⟨_, h.1⟩
  · exact ⟨_, h.2⟩
theorem State.wing_flushDeferred (s : State) (w : Nat) : ∃ b, s.flushDeferred.wing w = { s.wing w with fab := b } := by
  unfold State.flushDeferred; split
  · exact ⟨_, rfl⟩
  · have h : ∀ (ds : List (Nat × Word)) (t : State), ∃ b, (ds.foldl (fun t e => t.applyFab e.1 e.2) t).wing w = { t.wing w with fab := b } := by
      intro ds
      induction ds with
      | nil => intro t; exact ⟨_, rfl⟩
      | cons d ds ih =>
        intro t
        obtain ⟨b, hb⟩ := ih (t.applyFab d.1 d.2)
        obtain ⟨b', hb'⟩ := t.wing_applyFab d.1 d.2 w
        exact ⟨b, by rw [List.foldl_cons, hb, hb']⟩
    obtain ⟨b, hb⟩ := h s.deferred s
    exact ⟨b, hb⟩
/-- What the close of a step leaves of its controller's wing. -/
theorem State.closeStep_run (s : State) (w : Nat) (b : Bool) (h : s.stepRuns w = true) :
    ((s.closeStep w b).wing (s.lead w)).run = none ∧ ((s.closeStep w b).wing (s.lead w)).pass = none := by
  unfold State.closeStep; dsimp only; rw [if_pos h]
  generalize (s.mapCores w (fun c => c.afterStep b)).onWings w _ = u
  obtain ⟨x, hx⟩ := State.wing_flushDeferred (u.onWing (s.lead w)
    (fun x => { x.keepPeak with run := none, pass := none, boundaryRun := true })) (s.lead w)
  rw [hx, State.wing_onWing_same]
  exact ⟨rfl, rfl⟩

/-! ### A fault on the array (R168, R209, R356) -/

theorem State.wing_undoLoad (s : State) (f : Flight) (w : Nat) :
    ((s.undoLoad f).wing w).run = (s.wing w).run ∧ ((s.undoLoad f).wing w).pass = (s.wing w).pass := by
  have hc : ∀ (es : List (Nat × Nat)) (t : State),
      ((es.foldl (fun (t : State) e => t.onCore e.1 (fun c => { c with mem := c.mem.turnOff (BitVec.ofNat 8 e.2) })) t).wing w).run = (t.wing w).run ∧
      ((es.foldl (fun (t : State) e => t.onCore e.1 (fun c => { c with mem := c.mem.turnOff (BitVec.ofNat 8 e.2) })) t).wing w).pass = (t.wing w).pass := by
    intro es
    induction es with
    | nil => intro t; exact ⟨rfl, rfl⟩
    | cons e es ih =>
      intro t
      rw [List.foldl_cons]
      refine ⟨(ih _).1.trans ?_, (ih _).2.trans ?_⟩ <;> (unfold State.onCore; rw [State.wing_setCore])
  unfold State.undoLoad
  rw [State.wing_onWing]
  split
  · exact hc f.aux s
  · exact hc f.aux s
/-- The work of the running array descriptor dropped, no step or pass runs on its wing. -/
theorem State.dropWork_run (s : State) (f : Flight) (hc : f.cls = .array) (hr : f.stage = .running) (h : s.stepRuns f.wing = true) :
    ((s.dropWork f).wing (s.lead f.wing)).run = none ∧ ((s.dropWork f).wing (s.lead f.wing)).pass = none := by
  have hs := s.abandonStep_sent f.wing
  have hl : ∀ v, (s.abandonStep f.wing).lead v = s.lead v := fun v => hs.ended.lead v
  have hsr : (s.abandonStep f.wing).stepRuns f.wing = true := by
    unfold State.stepRuns at *; rw [hl, hs.wing]; exact h
  have hk := State.closeStep_run (s.abandonStep f.wing) f.wing false hsr
  rw [hl] at hk
  unfold State.dropWork
  rw [if_neg (by rw [hc]; decide), if_pos ⟨hc, hr⟩]
  dsimp only
  have hu := State.wing_undoLoad ((s.abandonStep f.wing).closeStep f.wing false) f (s.lead f.wing)
  by_cases hf : famOf f.words = 1
  · simp only [hf, if_true]
    rw [State.wing_onWing]
    split <;> exact ⟨hu.1.trans hk.1, hu.2.trans hk.2⟩
  · simp only [hf, if_false]
    rw [State.wing_onWing]
    split <;> exact hk
/-- What ends the running array descriptor leaves: its record waits on its ring, it is in flight no longer, and no step or pass
runs on its wing. -/
theorem State.endRunning_spec (s : State) (w disp : Nat) (code : Code) (kind loc : Nat) (cause : Option (BitVec 2)) (g : Flight)
    (hg : s.runningArray (s.lead w) = some g) :
    (∀ f ∈ (s.endRunning w disp code kind loc cause).flights, f ∈ s.flights) ∧
    (∃ r ∈ ((s.endRunning w disp code kind loc cause).cring (s.sring g.ring).cq.toNat).waiting, r.ring = g.ring ∧ r.seq = g.seq ∧
      r.disp = disp ∧ r.fault = code ∧ r.whereKind = kind ∧ r.where_ = loc) ∧
    (∀ i, (s.endRunning w disp code kind loc cause).sring i = s.sring i) ∧
    (s.endRunning w disp code kind loc cause).split = s.split ∧
    (s.stepRuns w = true → ((s.endRunning w disp code kind loc cause).wing (s.lead w)).run = none ∧
      ((s.endRunning w disp code kind loc cause).wing (s.lead w)).pass = none) := by
  have hm := List.find?_some hg
  simp only [Bool.and_eq_true, beq_iff_eq] at hm
  obtain ⟨⟨hcls, hst⟩, hw⟩ := hm
  have hlw : s.lead g.wing = s.lead w := by rw [hw, State.lead_lead]
  have he := s.ended_dropWork g
  obtain ⟨h1, h2, ⟨r, hr, hring, hseq, -, hdisp, -, hf, hk, hl⟩, -⟩ :=
    (s.dropWork g).settleFlight_spec { g with status := 0 } disp code kind loc
  have core : (∀ f ∈ (s.endFlight g disp code kind loc).flights, f ∈ s.flights) ∧
      (∃ r ∈ ((s.endFlight g disp code kind loc).cring (s.sring g.ring).cq.toNat).waiting, r.ring = g.ring ∧ r.seq = g.seq ∧
        r.disp = disp ∧ r.fault = code ∧ r.whereKind = kind ∧ r.where_ = loc) ∧
      (∀ i, (s.endFlight g disp code kind loc).sring i = s.sring i) ∧ (s.endFlight g disp code kind loc).split = s.split ∧
      (s.stepRuns w = true → ((s.endFlight g disp code kind loc).wing (s.lead w)).run = none ∧
        ((s.endFlight g disp code kind loc).wing (s.lead w)).pass = none) := by
    unfold State.endFlight
    refine ⟨fun f hf => ?_, ⟨r, ?_, hring, hseq, hdisp, hf, hk, hl⟩, fun i => ?_, ?_, fun hrun => ?_⟩
    · rw [← he.flights]; exact h1.2.1 f hf
    · rw [he.sring] at hr; rw [hr]; simp
    · rw [h1.sring, he.sring]
    · rw [h1.split, he.split]
    · rw [h1.wing, ← hlw]
      refine s.dropWork_run g hcls hst ?_
      unfold State.stepRuns at *; rw [hlw]; exact hrun
  have ask : ∀ (t : State) (d : DrainRun),
      (t.onWing (s.lead w) (fun x => x.askDrain d)).flights = t.flights ∧ (t.onWing (s.lead w) (fun x => x.askDrain d)).cq = t.cq ∧
      (t.onWing (s.lead w) (fun x => x.askDrain d)).sq = t.sq ∧ (t.onWing (s.lead w) (fun x => x.askDrain d)).split = t.split ∧
      ((t.onWing (s.lead w) (fun x => x.askDrain d)).wing (s.lead w)).run = (t.wing (s.lead w)).run ∧
      ((t.onWing (s.lead w) (fun x => x.askDrain d)).wing (s.lead w)).pass = (t.wing (s.lead w)).pass := by
    intro t d
    refine ⟨by simp, by simp, by simp, by simp, ?_, ?_⟩ <;>
      (rw [State.wing_onWing_same]; unfold WingState.askDrain; split <;> rfl)
  unfold State.endRunning; dsimp only; rw [hg]; dsimp only
  cases cause with
  | none => exact core
  | some k =>
    dsimp only; split
    · obtain ⟨a1, a2, a3, a4, a5, a6⟩ := ask (s.endFlight g disp code kind loc) (s.drainFor (s.lead w) k code g)
      refine ⟨?_, ?_, ?_, ?_, ?_⟩
      · rw [a1]; exact core.1
      · unfold State.cring; rw [a2]; exact core.2.1
      · unfold State.sring; rw [a3]; exact core.2.2.1
      · rw [a4]; exact core.2.2.2.1
      · rw [a5, a6]; exact core.2.2.2.2
    · exact core
/-- A fault on the array of a wing: what it leaves. -/
theorem State.endArray_spec (s : State) (w : Nat) (code : Code) (kind loc : Nat) (drains : Bool) (g : Flight)
    (hg : s.runningArray (s.lead w) = some g) :
    (∀ f ∈ (s.endArray w code kind loc drains).flights, f.cls = .array → f.wing ≠ s.lead w) ∧
    (∃ r ∈ ((s.endArray w code kind loc drains).cring (s.sring g.ring).cq.toNat).waiting, r.ring = g.ring ∧ r.seq = g.seq ∧
      r.disp = 2 ∧ r.fault = code ∧ r.whereKind = kind ∧ r.where_ = loc) ∧
    (s.stepRuns w = true → ((s.endArray w code kind loc drains).wing (s.lead w)).run = none ∧
      ((s.endArray w code kind loc drains).wing (s.lead w)).pass = none) := by
  obtain ⟨-, ⟨r, hr, hrest⟩, -, -, h5⟩ := s.endRunning_spec w 2 code kind loc (if drains then some 1 else none) g hg
  obtain ⟨d1, d2⟩ := (s.endRunning w 2 code kind loc (if drains then some 1 else none)).discard_spec
    (fun g => g.cls == .array && g.wing == s.lead w) (stepCode 5)
  have e : s.endArray w code kind loc drains = (s.endRunning w 2 code kind loc (if drains then some 1 else none)).discard
      (fun g => g.cls == .array && g.wing == s.lead w) (stepCode 5) := by
    unfold State.endArray; dsimp only; rw [hg]
  rw [e]
  refine ⟨fun f hf hc hw => ?_, ⟨r, ?_, hrest⟩, fun h => ?_⟩
  · have := d2 f hf; simp [hc, hw] at this
  · obtain ⟨rs, hrs⟩ := d1.2.2 (s.sring g.ring).cq.toNat
    rw [hrs]; exact List.mem_append_left _ hr
  · rw [d1.wing]; exact h5 h

/-! ### What the end of a step leaves of the cores (R168, R170, R294) -/

/-- The end of a step's work changes of a core only the states of its sections and its limits. -/
def Core.Ended (c d : Core) : Prop :=
  ∃ (on ret rel : Byte) (lines : BitVec 1536) (l : Limit),
    d = { c with mem := { c.mem with on := on, retained := ret, lineSet := lines, releasePend := rel }, limit := l }
theorem Core.Ended.refl (c : Core) : Core.Ended c c := ⟨_, _, _, _, _, rfl⟩
theorem Core.Ended.trans {c d e : Core} (h : Core.Ended c d) (k : Core.Ended d e) : Core.Ended c e := by
  obtain ⟨a1, a2, a3, a4, a5, rfl⟩ := h
  obtain ⟨b1, b2, b3, b4, b5, rfl⟩ := k
  exact ⟨b1, b2, b3, b4, b5, rfl⟩
theorem Core.ended_afterStep (c : Core) (b : Bool) : Core.Ended c (c.afterStep b) := ⟨_, _, _, _, _, rfl⟩
theorem Core.ended_turnOff (c : Core) (m : Byte) : Core.Ended c { c with mem := c.mem.turnOff m } := ⟨_, _, _, _, _, rfl⟩
theorem WingState.core_mapCores (x : WingState) (f : Core → Core) (k : Nat) : (x.mapCores f).core k = f (x.core k) := by
  unfold WingState.mapCores WingState.core; dsimp only; rw [Map.get_map]
theorem State.core_mapCores (s : State) (w : Nat) (f : Core → Core) (k : Nat) :
    (s.mapCores w f).core k = if s.split = false ∨ (wingOf k = 0 ↔ w = 0) then f (s.core k) else s.core k := by
  unfold State.core; rw [State.wing_mapCores]; split
  · rw [WingState.core_mapCores]
  · rfl
/-- A core reads its wing's list and base alone. -/
theorem State.core_of_wing {s t : State} (k : Nat) (h1 : (t.wing (wingOf k)).base = (s.wing (wingOf k)).base)
    (h2 : (t.wing (wingOf k)).cores = (s.wing (wingOf k)).cores) : t.core k = s.core k := by
  unfold State.core WingState.core; rw [h1, h2]
theorem State.core_onWing (s : State) (w k : Nat) (g : WingState → WingState) (h1 : ∀ x, (g x).base = x.base)
    (h2 : ∀ x, (g x).cores = x.cores) : (s.onWing w g).core k = s.core k := by
  refine State.core_of_wing k ?_ ?_ <;> (rw [State.wing_onWing]; split)
  · exact h1 _
  · rfl
  · exact h2 _
  · rfl
theorem State.core_onWings (s : State) (w k : Nat) (g : WingState → WingState) (h1 : ∀ x, (g x).base = x.base)
    (h2 : ∀ x, (g x).cores = x.cores) : (s.onWings w g).core k = s.core k := by
  unfold State.onWings
  generalize s.wings w = ws
  induction ws generalizing s with
  | nil => rfl
  | cons v ws ih => rw [List.foldl_cons, ih, State.core_onWing _ _ _ _ h1 h2]
theorem State.Sent.core {s t : State} (h : State.Sent s t) (k : Nat) : t.core k = s.core k := by
  refine State.core_of_wing k ?_ ?_ <;> rw [h.wing]
theorem State.core_flushDeferred (s : State) (k : Nat) : s.flushDeferred.core k = s.core k := by
  obtain ⟨b, hb⟩ := s.wing_flushDeferred (wingOf k)
  refine State.core_of_wing k ?_ ?_ <;> rw [hb]
theorem WingState.keepPeak_cores (x : WingState) : x.keepPeak.base = x.base ∧ x.keepPeak.cores = x.cores := by
  unfold WingState.keepPeak; split
  · split <;> exact ⟨rfl, rfl⟩
  · exact ⟨rfl, rfl⟩
theorem State.core_closeStep (s : State) (w k : Nat) (b : Bool) : Core.Ended (s.core k) ((s.closeStep w b).core k) := by
  unfold State.closeStep; dsimp only; split
  · rw [State.core_flushDeferred, State.core_onWing]
    · rw [State.core_onWings, State.core_mapCores]
      · split
        · exact Core.ended_afterStep _ _
        · exact .refl _
      · intro x; rfl
      · intro x; rfl
    · intro x; exact x.keepPeak_cores.1
    · intro x; exact x.keepPeak_cores.2
  · exact .refl _
theorem State.core_undoLoad (s : State) (f : Flight) (k : Nat) : Core.Ended (s.core k) ((s.undoLoad f).core k) := by
  have hc : ∀ (es : List (Nat × Nat)) (t : State), Core.Ended (t.core k)
      ((es.foldl (fun (t : State) e => t.onCore e.1 (fun c => { c with mem := c.mem.turnOff (BitVec.ofNat 8 e.2) })) t).core k) := by
    intro es
    induction es with
    | nil => intro t; exact .refl _
    | cons e es ih =>
      intro t
      refine Core.Ended.trans ?_ (ih _)
      rw [State.core_onCore]; split
      · exact Core.ended_turnOff _ _
      · exact .refl _
  unfold State.undoLoad
  rw [State.core_onWing]
  · exact hc f.aux s
  · intro x; rfl
  · intro x; rfl
theorem State.core_dropColl (s : State) (f : Flight) (k : Nat) : (s.dropColl f).core k = s.core k := by
  unfold State.dropColl; split
  · exact ((s.abandonFlows_sent _ _).trans (State.sent_onFab _ _ _)).core k
  · rfl
/-- The work of a descriptor dropped: its cores. -/
theorem State.core_dropWork (s : State) (f : Flight) (k : Nat) : Core.Ended (s.core k) ((s.dropWork f).core k) := by
  unfold State.dropWork; split
  · rw [State.core_dropColl]; exact .refl _
  · split
    · have h : Core.Ended (s.core k) (((s.abandonStep f.wing).closeStep f.wing false).core k) := by
        have := (s.abandonStep f.wing).core_closeStep f.wing k false
        rw [(s.abandonStep_sent f.wing).core] at this; exact this
      dsimp only
      rw [State.core_onWing]
      · split
        · exact h.trans (State.core_undoLoad _ _ _)
        · exact h
      · intro x; rfl
      · intro x; rfl
    · exact .refl _
theorem State.core_endFlight (s : State) (f : Flight) (disp : Nat) (code : Code) (kind loc k : Nat) :
    Core.Ended (s.core k) ((s.endFlight f disp code kind loc).core k) := by
  unfold State.endFlight
  rw [((s.dropWork f).settleFlight_spec _ _ _ _ _).1.core]; exact s.core_dropWork f k
theorem State.core_endRunning (s : State) (w disp : Nat) (code : Code) (kind loc : Nat) (cause : Option (BitVec 2)) (k : Nat) :
    Core.Ended (s.core k) ((s.endRunning w disp code kind loc cause).core k) := by
  unfold State.endRunning; dsimp only; split
  · exact .refl _
  · rename_i f _
    have h := s.core_endFlight f disp code kind loc k
    split
    · split
      · rw [State.core_onWing]
        · exact h
        · intro x; unfold WingState.askDrain; split <;> rfl
        · intro x; unfold WingState.askDrain; split <;> rfl
      · exact h
    · exact h
theorem State.core_endArray (s : State) (w : Nat) (code : Code) (kind loc : Nat) (drains : Bool) (k : Nat) :
    Core.Ended (s.core k) ((s.endArray w code kind loc drains).core k) := by
  unfold State.endArray; dsimp only; split
  · exact .refl _
  · rw [(State.discard_spec _ _ _).1.core]; exact s.core_endRunning _ _ _ _ _ _ _
theorem State.core_endStep (s : State) (w : Nat) (code : Code) (kind loc : Nat) (drains : Bool) (k : Nat) :
    Core.Ended (s.core k) ((s.endStep w code kind loc drains).core k) := by
  unfold State.endStep; split
  · exact s.core_endArray _ _ _ _ _ _
  · exact .refl _
theorem State.core_followUnit (s : State) (w : Nat) (code : Code) (u : TestUnit) (k : Nat) :
    (s.followUnit w code u).core k = s.core k := by
  unfold State.followUnit; dsimp only; split
  · rw [State.core_onWing] <;> (intro x; rfl)
  · rw [State.core_onWing] <;> (intro x; rfl)
  · rfl
theorem State.core_followUnits (s : State) (w : Nat) (code : Code) (us : List TestUnit) (k : Nat) :
    (s.followUnits w code us).core k = s.core k := by
  unfold State.followUnits
  induction us generalizing s with
  | nil => rfl
  | cons u us ih => rw [List.foldl_cons, ih, State.core_followUnit]
/-- What a fault that a core finds leaves of every core: its record at that core, and the end of the step. -/
theorem State.core_coreFault (s : State) (c : Nat) (f : CoreFault) (k : Nat) :
    Core.Ended (if k = c then { (s.core c).record (s.wing (s.lead (wingOf c))).draining f with
        health := { (s.core c).health with lastEvent := f.code } } else s.core k) ((s.coreFault c f).core k) := by
  have h : (s.onCore c (fun x => { x.record (s.wing (s.lead (wingOf c))).draining f with
      health := { x.health with lastEvent := f.code } })).core k = (if k = c then { (s.core c).record (s.wing (s.lead (wingOf c))).draining f with
        health := { (s.core c).health with lastEvent := f.code } } else s.core k) := by
    rw [State.core_onCore]; split
    · subst_vars; rfl
    · rfl
  unfold State.coreFault; dsimp only
  rw [← h]
  split
  · exact .refl _
  · split
    · rw [State.core_followUnits]; exact .refl _
    · refine Core.Ended.trans ?_ (State.core_endStep _ _ _ _ _ _ k)
      rw [State.core_followUnits]; exact .refl _

end Sys2Proof.Machine
end

