-- ==== Sys2Proof/Laws/Claims.lean ====
section
/-!
SUPPORT. Lemmas about the words in which the statements are written: one core changed, a key set, a step ended.
-/

namespace Sys2Proof.Claim

open Sys2Proof.Machine

theorem coresOnly_setCore (s : State) (k : Nat) (c : Core) : CoresOnly s (s.setCore k c) := by
  refine ⟨fun w => ?_, State.setCore_outside s c k⟩
  rw [State.wing_setCore]
/-- Replacing a core is a change of one core. -/
theorem oneCore_setCore (s : State) (k : Nat) (c : Core) : OneCore k s (s.setCore k c) c :=
  ⟨by simp, fun j hj => State.core_setCore_ne _ _ _ _ hj, coresOnly_setCore _ _ _⟩
theorem oneCore_of {s : State} {k : Nat} {c d : Core} (h : c = d) : OneCore k s (s.setCore k c) d := h ▸ oneCore_setCore s k c
/-- A core operation without a fault answers the state with that core replaced. -/
theorem answers_op {i : Instr} (op : Core → Core × Option CoreFault) (k : Nat) (s : State) (h : Acts k s i) (P : State → Prop)
    (hi : exec i s = s.actAt k (asScheduled i) op) (hn : (op (s.core k)).2 = none) (hp : P (s.setCore k (op (s.core k)).1)) :
    Answers i s P := by
  refine ⟨_, ?_, hp⟩
  rw [hi, State.actAt_acting _ _ _ _ h.1 h.2]; unfold State.coreStep; rw [hn]
theorem setsKey_set {α : Type} (d : α) (m : List (Nat × α)) (k : Nat) (v : α) : SetsKey d m (Map.set m k v) k v :=
  ⟨Map.get_set_same .., fun _ hj => Map.get_set_ne _ _ _ _ _ hj⟩
theorem setsKey_upd {α : Type} (d : α) (m : List (Nat × α)) (k : Nat) (f : α → α) :
    SetsKey d m (Map.upd d m k f) k (f (Map.get d m k)) := setsKey_set d m k _
/-- A command of the schedule that does not act does nothing. -/
theorem exec_idle {i : Instr} (op : Core → Core × Option CoreFault) (k : Nat) (s : State) (hk : validCore k = true)
    (h : s.acting k (asScheduled i) = false) (hi : exec i s = s.actAt k (asScheduled i) op) : exec i s = .next s := by
  rw [hi, State.actAt_idle _ _ _ _ hk h]

/-- A fault on the array of a wing ends its step. -/
theorem endStep_ends (s : State) (w : Nat) (code : Code) (kind loc : Nat) (drains : Bool) :
    StepEnds w s (s.endStep w code kind loc drains) code kind loc := by
  intro g hrun hg
  have e : s.endStep w code kind loc drains = s.endArray w code kind loc drains := by
    unfold State.endStep; rw [hrun]; rfl
  obtain ⟨h1, h2, h3⟩ := s.endArray_spec w code kind loc drains g hg
  rw [e]; exact ⟨h1, h2, (h3 hrun).1, (h3 hrun).2⟩
/-- What a step's end needs to know of the state before. -/
theorem StepEnds.of_eq {w : Nat} {s u t : State} {code : Code} {kind loc : Nat} (h : StepEnds w u t code kind loc)
    (h1 : u.flights = s.flights) (h2 : u.sq = s.sq) (h3 : u.split = s.split) (h4 : u.stepRuns w = s.stepRuns w) :
    StepEnds w s t code kind loc := by
  intro g hrun hg
  have hl : u.lead w = s.lead w := by unfold State.lead; rw [h3]
  have hg' : u.runningArray (u.lead w) = some g := by unfold State.runningArray at *; rw [h1, hl]; exact hg
  have := h g (by rw [h4]; exact hrun) hg'
  rw [hl] at this
  unfold State.sring at *; rw [h2] at this; exact this
theorem followUnit_other (s : State) (w v : Nat) (code : Code) (u : TestUnit) :
    (s.followUnit w code u).flights = s.flights ∧ (s.followUnit w code u).sq = s.sq ∧ (s.followUnit w code u).split = s.split ∧
    ((s.followUnit w code u).wing v).run = (s.wing v).run ∧ ((s.followUnit w code u).wing v).pass = (s.wing v).pass := by
  unfold State.followUnit; dsimp only; split
  · refine ⟨by simp, by simp, by simp, ?_, ?_⟩ <;> (rw [State.wing_onWing]; split <;> rfl)
  · refine ⟨by simp, by simp, by simp, ?_, ?_⟩ <;> (rw [State.wing_onWing]; split <;> rfl)
  · exact ⟨rfl, rfl, rfl, rfl, rfl⟩
theorem followUnits_other (s : State) (w v : Nat) (code : Code) (us : List TestUnit) :
    (s.followUnits w code us).flights = s.flights ∧ (s.followUnits w code us).sq = s.sq ∧ (s.followUnits w code us).split = s.split ∧
    ((s.followUnits w code us).wing v).run = (s.wing v).run ∧ ((s.followUnits w code us).wing v).pass = (s.wing v).pass := by
  unfold State.followUnits
  induction us generalizing s with
  | nil => exact ⟨rfl, rfl, rfl, rfl, rfl⟩
  | cons u us ih =>
    obtain ⟨a1, a2, a3, a4, a5⟩ := followUnit_other s w v code u
    obtain ⟨b1, b2, b3, b4, b5⟩ := ih (s.followUnit w code u)
    exact ⟨b1.trans a1, b2.trans a2, b3.trans a3, b4.trans a4, b5.trans a5⟩
/-- A fault that a core finds ends the step of its wing and names the core. -/
theorem coreFault_ends (s : State) (k : Nat) (f : CoreFault) (ht : s.underTest k = false) (hs : f.code ≠ syncCode 7) :
    StepEnds (wingOf k) s (s.coreFault k f) f.code 1 (localCore s.split (wingOf k) k) := by
  unfold State.coreFault; dsimp only
  rw [ht, if_neg (by simp), if_neg hs]
  refine (endStep_ends _ _ _ _ _ _).of_eq ?_ ?_ ?_ ?_
  · rw [(followUnits_other _ _ 0 _ _).1]; simp
  · rw [(followUnits_other _ _ 0 _ _).2.1]; simp
  · rw [(followUnits_other _ _ 0 _ _).2.2.1]; simp
  · unfold State.stepRuns State.lead
    rw [(followUnits_other _ _ 0 _ _).2.2.1]
    rw [(followUnits_other _ _ _ _ _).2.2.2.1, (followUnits_other _ _ _ _ _).2.2.2.2]
    unfold State.onCore
    rw [State.setCore_split, State.wing_setCore]

/-- A fault is found alike in a state whose core has been put back as it was. -/
theorem coreFault_setCore (s : State) (k : Nat) (f : CoreFault) : (s.setCore k (s.core k)).coreFault k f = s.coreFault k f := by
  have h1 : (s.setCore k (s.core k)).wing (wingOf k) = { s.wing (wingOf k) with cores := ((s.setCore k (s.core k)).wing (wingOf k)).cores } :=
    State.wing_setCore _ _ _ _
  have hd : ((s.setCore k (s.core k)).wing ((s.setCore k (s.core k)).lead (wingOf k))).draining = (s.wing (s.lead (wingOf k))).draining := by
    rw [State.lead_setCore, State.wing_setCore]
  have hw : ((s.setCore k (s.core k)).wing ((s.setCore k (s.core k)).lead (wingOf k))).window = (s.wing (s.lead (wingOf k))).window := by
    rw [State.lead_setCore, State.wing_setCore]
  have hu : (s.setCore k (s.core k)).underTest k = s.underTest k := by
    unfold State.underTest; rw [hw, State.core_setCore_same]
  have ho : ∀ g : Core → Core, (s.setCore k (s.core k)).onCore k g = s.onCore k g := by
    intro g; unfold State.onCore; rw [State.core_setCore_same, State.setCore_setCore]
  unfold State.coreFault; dsimp only
  rw [hd, hu, ho, State.setCore_split]
/-- A core operation that finds a fault before it changes anything. -/
theorem exec_fault {i : Instr} (op : Core → Core × Option CoreFault) (k : Nat) (s : State) (f : CoreFault) (h : Acts k s i)
    (hi : exec i s = s.actAt k (asScheduled i) op) (hn : op (s.core k) = (s.core k, some f)) :
    exec i s = .next (s.coreFault k f) := by
  rw [hi, State.actAt_acting _ _ _ _ h.1 h.2, hn, State.coreStep_fault, coreFault_setCore]
theorem answers_fault {i : Instr} (op : Core → Core × Option CoreFault) (k : Nat) (s : State) (f : CoreFault) (h : Acts k s i)
    (P : State → Prop) (hi : exec i s = s.actAt k (asScheduled i) op) (hn : op (s.core k) = (s.core k, some f))
    (hp : P (s.coreFault k f)) : Answers i s P := ⟨_, exec_fault op k s f h hi hn, hp⟩

end Sys2Proof.Claim
end

