-- ==== Sys2Proof/Laws/Memory.lean ====
section
/-!
SUPPORT. Byte strings, the CRC of a concatenation, lines of core memory and blocks of bonded memory: what is read after a
write.
-/

namespace Sys2Proof.Machine

/-! ### Byte strings and CRCs -/

@[simp] theorem toBytes_length (n x : Nat) : (toBytes n x).length = n := by
  induction n generalizing x with
  | zero => rfl
  | succ n ih => simp [toBytes, ih]

theorem toBytes_zero (n : Nat) : toBytes n 0 = List.replicate n 0 := by
  induction n with
  | zero => rfl
  | succ n ih => simp [toBytes, ih, List.replicate_succ]

theorem crc32cFrom_append (c : Nat) (a b : List Byte) : crc32cFrom c (a ++ b) = crc32cFrom (crc32cFrom c a) b := by
  induction a generalizing c with
  | nil => rfl
  | cons x a ih => exact ih _

@[simp] theorem Mem.read_length (m : List Host.Cell) (a n : Nat) : (Mem.read m a n).length = n := by
  induction n generalizing a with
  | zero => rfl
  | succ n ih => simp [Mem.read, ih]

theorem Mem.read_nil (a n : Nat) : Mem.read [] a n = List.replicate n (0 : Byte) := by
  induction n generalizing a with
  | zero => rfl
  | succ n ih => rw [Mem.read, ih]; rfl

theorem Mem.read_eq_map (m : List Host.Cell) (a n : Nat) : Mem.read m a n = (List.range n).map (fun i => Mem.get m (a + i)) := by
  induction n generalizing a with
  | zero => rfl
  | succ n ih =>
    rw [Mem.read, ih, List.range_succ_eq_map, List.map_cons, List.map_map]
    congr 1
    apply List.map_congr_left
    intro i _
    simp only [Function.comp, Nat.succ_eq_add_one]
    congr 1
    omega

theorem Mem.read_congr (m k : List Host.Cell) (a n : Nat) (h : ∀ b, a ≤ b → b < a + n → Mem.get m b = Mem.get k b) :
    Mem.read m a n = Mem.read k a n := by
  rw [Mem.read_eq_map, Mem.read_eq_map]
  apply List.map_congr_left
  intro i hi
  rw [List.mem_range] at hi
  exact h _ (by omega) (by omega)

/-- Bytes read back where they were written. -/
theorem Mem.read_write_same (m : List Host.Cell) (a : Nat) (bs : List Byte) (h : Memory.wf m = true) :
    Mem.read (Mem.write m a bs) a bs.length = bs := by
  rw [Mem.read_eq_map]
  apply List.ext_getElem
  · simp
  · intro i h1 h2
    simp only [List.getElem_map, List.getElem_range, Mem.get_write bs m a _ h]
    have : a ≤ a + i ∧ a + i < a + bs.length := by omega
    simp [this, List.getD_eq_getElem?_getD, h2]

/-! ### Lines of core memory (R162 to R164) -/

variable {m : CoreMem}

/-- What a line's check depends on. -/
theorem CoreMem.lineFault_congr (m k : CoreMem) (line : Nat) (h1 : m.on = k.on) (h2 : m.lineSet.getLsbD line = k.lineSet.getLsbD line)
    (h3 : Map.get 0 m.checks line = Map.get 0 k.checks line) (h4 : m.lineBytes line = k.lineBytes line) (h5 : m.entry = k.entry) :
    m.lineFault line = k.lineFault line := by
  unfold CoreMem.lineFault CoreMem.isOn
  rw [h1, h2, h3, h4, h5]

/-- A line written in a section that is on. -/
theorem CoreMem.writeLine_on (line : Nat) (data : List Byte) (h : m.isOn (sectionOf (64 * line)) = true) :
    m.writeLine line data = { m with
      bytes := Mem.write m.bytes (64 * line) data, lineSet := m.lineSet ||| BitVec.ofNat 1536 (2 ^ line),
      checks := Map.set m.checks line (lineCheck line data) } := by
  simp [CoreMem.writeLine, h]

/-- A line that has just been written passes its check. -/
theorem CoreMem.writeLine_lineFault_same (line : Nat) (data : List Byte) (h : m.isOn (sectionOf (64 * line)) = true)
    (hw : Memory.wf m.bytes = true) (hl : line < 1536) (hd : data.length = 64) : (m.writeLine line data).lineFault line = none := by
  have hb : Mem.read (Mem.write m.bytes (64 * line) data) (64 * line) 64 = data := hd ▸ Mem.read_write_same _ _ _ hw
  have hs : (m.lineSet ||| BitVec.ofNat 1536 (2 ^ line)).getLsbD line = true := by
    rw [BitVec.getLsbD_or, BitVec.getLsbD_ofNat, Nat.testBit_two_pow_self, decide_eq_true hl, Bool.and_true, Bool.or_true]
  rw [CoreMem.writeLine_on line data h]
  generalize m.lineSet ||| BitVec.ofNat 1536 (2 ^ line) = set at hs ⊢
  simp only [CoreMem.isOn] at h
  simp [CoreMem.lineFault, CoreMem.lineBytes, CoreMem.isOn, h, hs, hb, Map.get_set_same]

/-- A line that is not written keeps its check. -/
theorem CoreMem.writeLine_lineFault_ne (line j : Nat) (data : List Byte) (hw : Memory.wf m.bytes = true) (hd : data.length = 64)
    (hj : j ≠ line) : (m.writeLine line data).lineFault j = m.lineFault j := by
  by_cases h : m.isOn (sectionOf (64 * line)) = true
  · rw [CoreMem.writeLine_on line data h]
    apply CoreMem.lineFault_congr
    · rfl
    · have : (2 ^ line).testBit j = false := by rw [Nat.testBit_two_pow]; simp; omega
      simp only [BitVec.getLsbD_or, BitVec.getLsbD_ofNat, this, Bool.and_false, Bool.or_false]
    · exact Map.get_set_ne _ _ _ _ _ hj
    · apply Mem.read_congr
      intro b h1 h2
      rw [Mem.get_write _ _ _ _ hw]
      have : ¬ (64 * line ≤ b ∧ b < 64 * line + data.length) := by omega
      simp [this]
    · rfl
  · simp [CoreMem.writeLine, h]

/-- Writing lines in sections that are on: the switch of the sections stays, the memory keeps its form, every byte is the one
written or the old one, the lines written pass their checks, and the others keep theirs. -/
theorem CoreMem.writeLines_spec (n : Nat) : ∀ (m : CoreMem) (line : Nat) (data : List Byte), Memory.wf m.bytes = true →
    (∀ i, i < n → m.isOn (sectionOf (64 * (line + i))) = true) → line + n ≤ 1536 → data.length = 64 * n →
    (let k := m.writeLines line data n
     k.on = m.on ∧ Memory.wf k.bytes = true ∧
     (∀ b, Mem.get k.bytes b = if 64 * line ≤ b ∧ b < 64 * (line + n) then data.getD (b - 64 * line) 0 else Mem.get m.bytes b) ∧
     (∀ j, line ≤ j → j < line + n → k.lineFault j = none) ∧ ∀ j, j < line ∨ line + n ≤ j → k.lineFault j = m.lineFault j) := by
  induction n with
  | zero =>
    intro m line data hw _ _ _
    refine ⟨rfl, hw, ?_, ?_, fun _ _ => rfl⟩
    · intro b
      simp only [CoreMem.writeLines]
      exact (if_neg (by omega)).symm
    · intro j h1 h2; omega
  | succ n ih =>
    intro m line data hw hon hl hd
    have h0 : m.isOn (sectionOf (64 * line)) = true := hon 0 (by omega)
    have ht : (data.take 64).length = 64 := by simp; omega
    have e := CoreMem.writeLine_on line (data.take 64) h0
    have hw' : Memory.wf (m.writeLine line (data.take 64)).bytes = true := by rw [e]; exact Memory.wf_write _ _ _ hw
    have hon' : (m.writeLine line (data.take 64)).on = m.on := by rw [e]
    obtain ⟨r1, r2, r3, r4, r5⟩ := ih (m.writeLine line (data.take 64)) (line + 1) (data.drop 64) hw'
      (fun i hi => by
        have := hon (i + 1) (by omega)
        simp only [CoreMem.isOn, hon'] at this ⊢
        rwa [Nat.add_right_comm, Nat.add_assoc]) (by omega) (by simp; omega)
    have hb : ∀ b, Mem.get (m.writeLine line (data.take 64)).bytes b =
        if 64 * line ≤ b ∧ b < 64 * line + 64 then data.getD (b - 64 * line) 0 else Mem.get m.bytes b := by
      intro b
      rw [e]
      simp only [Mem.get_write _ _ _ _ hw, ht]
      split
      · simp only [List.getD_eq_getElem?_getD]
        rw [List.getElem?_take_of_lt (by omega)]
      · rfl
    refine ⟨r1.trans hon', r2, ?_, ?_, ?_⟩
    · intro b
      simp only [CoreMem.writeLines, r3, hb]
      by_cases h1 : 64 * line ≤ b ∧ b < 64 * line + 64
      · have h2 : ¬ (64 * (line + 1) ≤ b ∧ b < 64 * (line + 1 + n)) := by omega
        have h3 : 64 * line ≤ b ∧ b < 64 * (line + (n + 1)) := by omega
        simp [h1, h2, h3]
      · by_cases h2 : 64 * (line + 1) ≤ b ∧ b < 64 * (line + 1 + n)
        · have h3 : 64 * line ≤ b ∧ b < 64 * (line + (n + 1)) := by omega
          have h4 : 64 + (b - 64 * (line + 1)) = b - 64 * line := by omega
          simp [h2, h3, List.getD_eq_getElem?_getD, List.getElem?_drop, h4]
        · have h3 : ¬ (64 * line ≤ b ∧ b < 64 * (line + (n + 1))) := by omega
          simp [h1, h2, h3]
    · intro j h1 h2
      by_cases hj : j = line
      · subst hj
        exact (r5 j (by omega)).trans (CoreMem.writeLine_lineFault_same j _ h0 hw (by omega) ht)
      · exact r4 j (by omega) (by omega)
    · intro j hj
      exact (r5 j (by omega)).trans (CoreMem.writeLine_lineFault_ne line j _ hw ht (by omega))

/-- What an engine writes as whole lines in sections that are on, an engine reads back. -/
theorem Core.readMem_writeMem (c : Core) (a : Nat) (bs : List Byte) (hw : Memory.wf c.mem.bytes = true) (ha : a % 64 = 0)
    (hb : bs.length % 64 = 0) (hl : a + bs.length ≤ 98304)
    (hon : ∀ i, i < bs.length / 64 → c.mem.isOn (sectionOf (64 * (a / 64 + i))) = true) :
    (c.writeMem a bs).readMem a bs.length = .ok bs := by
  obtain ⟨-, -, r3, r4, -⟩ := CoreMem.writeLines_spec (bs.length / 64) c.mem (a / 64) bs hw hon (by omega) (by omega)
  unfold Core.readMem
  split
  · rename_i h
    rw [List.length_eq_zero_iff.mp h]
  · have hf : (c.writeMem a bs).linesFault a bs.length = none := by
      unfold Core.linesFault
      rw [List.findSome?_eq_none_iff]
      intro i hi
      rw [List.mem_range] at hi
      simp only [Core.writeMem, r4 (a / 64 + i) (by omega) (by omega), ite_self]
    rw [hf]
    simp only [Except.ok.injEq]
    apply List.ext_getElem
    · simp
    · intro i h1 h2
      have hs : (c.dma.unstage a (64 * (bs.length / 64))).staged.find? (fun e => e.1 == a + i) = none := by
        rw [List.find?_eq_none]
        intro e he
        simp only [Dma.unstage, List.mem_filter] at he
        simp only [beq_iff_eq]
        intro h
        simp [h] at he
        omega
      simp only [List.getElem_map, List.getElem_range, Core.byteAt, Core.writeMem, hs, r3]
      have : 64 * (a / 64) ≤ a + i ∧ a + i < 64 * (a / 64 + bs.length / 64) := by omega
      have h4 : a + i - 64 * (a / 64) = i := by omega
      simp [this, h4, List.getD_eq_getElem?_getD, h2]

/-! ### Blocks of bonded memory (R171 to R174) -/

/-- A block formed from data passes its check. -/
theorem mkBlock_good (data : List Byte) (tag : BitVec 32) : (mkBlock data tag).good = true := by simp [mkBlock, Block.good]

@[simp] theorem mkBlock_length (data : List Byte) (tag : BitVec 32) : (mkBlock data tag).data.length = 512 := by
  simp [mkBlock, padTo, sliceBytes]

@[simp] theorem State.putBlock_bonded (s : State) (n : Nat) (b : Block) : (s.putBlock n b).bonded = Mem.write s.bonded (512 * n) b.data := by
  simp only [State.putBlock]
  split <;> rfl

@[simp] theorem State.putBlock_side (s : State) (n : Nat) (b : Block) : (s.putBlock n b).side = Map.set s.side n (b.crc, b.tag) := by
  simp only [State.putBlock]
  split <;> rfl

/-- The block written is the block read. -/
theorem State.block_putBlock_same (s : State) (n : Nat) (b : Block) (h : Memory.wf s.bonded = true) (hb : b.data.length = 512) :
    (s.putBlock n b).block n = b := by
  have e : ∀ t : State, t.bonded = Mem.write s.bonded (512 * n) b.data → t.side = Map.set s.side n (b.crc, b.tag) → t.block n = b := by
    intro t h1 h2
    have h3 : Mem.read (Mem.write s.bonded (512 * n) b.data) (512 * n) 512 = b.data := hb ▸ Mem.read_write_same _ _ _ h
    simp only [State.block, h1, h2, Map.get_set_same, h3]
  exact e _ (State.putBlock_bonded s n b) (State.putBlock_side s n b)

/-- Every other block stays. -/
theorem State.block_putBlock_ne (s : State) (n j : Nat) (b : Block) (h : Memory.wf s.bonded = true) (hb : b.data.length = 512)
    (hj : j ≠ n) : (s.putBlock n b).block j = s.block j := by
  have e : ∀ t : State, t.bonded = Mem.write s.bonded (512 * n) b.data → t.side = Map.set s.side n (b.crc, b.tag) →
      t.block j = s.block j := by
    intro t h1 h2
    have h3 : Mem.read (Mem.write s.bonded (512 * n) b.data) (512 * j) 512 = Mem.read s.bonded (512 * j) 512 := by
      apply Mem.read_congr
      intro x h4 h5
      rw [Mem.get_write _ _ _ _ h]
      have : ¬ (512 * n ≤ x ∧ x < 512 * n + b.data.length) := by omega
      simp [this]
    simp only [State.block, h1, h2, Map.get_set_ne _ _ _ _ _ hj, h3]
  exact e _ (State.putBlock_bonded s n b) (State.putBlock_side s n b)

/-- Writing a block keeps the canonical form of the bonded memory. -/
theorem State.wf_putBlock (s : State) (n : Nat) (b : Block) (h : Memory.wf s.bonded = true) : Memory.wf (s.putBlock n b).bonded = true := by
  rw [State.putBlock_bonded]
  exact Memory.wf_write _ _ _ h

/-- A block passes its check where its side field carries its CRC. -/
theorem State.block_good (s : State) (n : Nat) (tag : BitVec 32) (data : List Byte) (h : Mem.read s.bonded (512 * n) 512 = data)
    (hs : Map.get (zeroBlockCrc, 0#32) s.side n = (blockCrc data tag, tag)) : (s.block n).good = true := by
  simp [State.block, Block.good, h, hs]

end Sys2Proof.Machine
end

