-- ==== Sys2Proof/Tests/Slice0.lean ====
section
/-!
SUPPORT. Tests: the well-formedness checks refuse what they should, and for every obligation a witness: concrete states and
operands that meet its hypotheses, with some of the values that it claims, from the rules of the spec.
-/

set_option Elab.async false

namespace Sys2Proof.Tests

open Sys2Proof Sys2Proof.Machine

/-! ### Well-formedness -/

theorem test_wf_core : (Instr.nop 832).wf = false := by decide
theorem test_wf_wing : (Instr.drainStart 2).wf = false := by decide
theorem test_wf_cluster : (Instr.railFault 48).wf = false := by decide
theorem test_wf_chan : (Instr.readDelivery 1536).wf = false := by decide
theorem test_wf_port : (Instr.portLost 80).wf = false := by decide
theorem test_wf_laser : (Instr.laserLost 10).wf = false := by decide
theorem test_wf_ring : (Instr.sqEnable 128 true).wf = false := by decide
theorem test_wf_ok : (Instr.nop 415).wf = true := by decide

/-! ### States -/

/-- The fields of a tensor word above its opcode, CMD_VERSION 1 (Table 4.1). -/
def tensorBits (op : Nat) (c : TCmd) : CmdWord := .tensor (BitVec.ofNat 128 (op + 2 ^ 4 + c.fmt.toNat * 2 ^ 8 + c.fmtB.toNat * 2 ^ 12 +
  c.tiles.toNat * 2 ^ 16 + c.trLog2.toNat * 2 ^ 24 + c.tcLog2.toNat * 2 ^ 26 + (if c.half then 2 ^ 28 else 0) + c.sparse.toNat * 2 ^ 29 +
  c.kc.toNat * 2 ^ 32 + c.addr.toNat * 2 ^ 42 + c.scaleAddr.toNat * 2 ^ 64 + (if c.init then 2 ^ 81 else 0) + c.rmode.toNat * 2 ^ 82 +
  c.sat.toNat * 2 ^ 84 + c.outShift.toNat * 2 ^ 86))
/-- The fields of a vector word, with sub in VC (Table 5.1). -/
def vectorBits (op sub : Nat) (c : VCmd) : CmdWord :=
  let ty := match c.ty with
    | .fp32 => 0
    | .bf16 => 1
    | .int32 => 2
  .vector (BitVec.ofNat 64 (op + 2 ^ 6 + c.vd.toNat * 2 ^ 10 + c.va.toNat * 2 ^ 15 + c.vb.toNat * 2 ^ 20 + (c.vc.toNat + sub) * 2 ^ 25 +
    ty * 2 ^ 30 + (if c.pred then 2 ^ 32 else 0) + (if c.bcastB then 2 ^ 33 else 0) + c.addr.toNat * 2 ^ 34))
/-- The fields of a steering word (Table 7.2). -/
def steerBits (op ctr ep pred cond : Nat) (inv flag : Bool) (imm len : Nat) : CmdWord :=
  .steer (BitVec.ofNat 64 (op + 2 ^ 5 + ctr * 2 ^ 9 + ep * 2 ^ 13 + pred * 2 ^ 17 + (if inv then 2 ^ 20 else 0) + cond * 2 ^ 21 +
    (if flag then 2 ^ 23 else 0) + imm * 2 ^ 24 + len * 2 ^ 40))
/-- The fields of a router word (Table 9.5). -/
def routerBits (op rest target : Nat) : CmdWord :=
  .router (BitVec.ofNat 64 (op + 2 ^ 4 + rest + coreX target * 2 ^ 40 + coreY target * 2 ^ 52))
/-- n where a flag is set. -/
def ifSet (b : Bool) (n : Nat) : Nat := if b then n else 0
/-- The word of a command as a schedule holds it, written from the tables of the spec (Tables 4.1, 4.2, 5.1, 5.2, 7.2, 7.3, 8.1, 9.5,
9.6); none for a command of no schedule. -/
def wordOf : Instr → Option CmdWord
  | .loadA _ c _ => some (tensorBits 1 c)
  | .loadB _ c _ => some (tensorBits 2 c)
  | .loadAnchor _ c _ => some (tensorBits 3 c)
  | .mma _ c _ => some (tensorBits 4 c)
  | .merge _ c _ => some (tensorBits 5 c)
  | .store _ c _ => some (tensorBits 6 c)
  | .vld _ c => some (vectorBits 1 0 c)
  | .vst _ c => some (vectorBits 2 0 c)
  | .vadd _ c => some (vectorBits 3 0 c)
  | .vsub _ c => some (vectorBits 4 0 c)
  | .vmul _ c => some (vectorBits 5 0 c)
  | .vfma _ c => some (vectorBits 6 0 c)
  | .vdiv _ c => some (vectorBits 7 0 c)
  | .vsqrt _ c => some (vectorBits 8 0 c)
  | .vrsqrt _ c => some (vectorBits 9 0 c)
  | .vexp2 _ c => some (vectorBits 10 0 c)
  | .vlog2 _ c => some (vectorBits 11 0 c)
  | .vmax _ c => some (vectorBits 12 0 c)
  | .vmin _ c => some (vectorBits 13 0 c)
  | .vcmp _ t c => some (vectorBits 14 (match t with
      | .eq => 0
      | .lt => 1
      | .le => 2
      | .notFinite => 3) c)
  | .vsel _ c => some (vectorBits 15 0 c)
  | .vcvt _ k c => some (vectorBits 16 (match k with
      | .lowBf16ToF32 => 0
      | .highBf16ToF32 => 1
      | .f32ToLowBf16 => 2
      | .f32ToHighBf16 => 3
      | .i32ToF32 => 4
      | .f32ToI32 => 5) c)
  | .vsum _ c => some (vectorBits 17 0 c)
  | .vpowi _ c => some (vectorBits 18 0 c)
  | .ctrSet _ n v => some (steerBits 1 n.toNat 0 0 0 false false v.toNat 0)
  | .ctrAdd _ n v => some (steerBits 2 n.toNat 0 0 0 false false v.toNat 0)
  | .ctrTest _ p n k v => some (steerBits 3 n.toNat 0 p.toNat (match k with
      | .eq => 0
      | .lt => 1
      | .le => 2
      | .ne => 3) false false v.toNat 0)
  | .loopCmd _ d n v len => some (steerBits 4 n.toNat 0 0 0 false d v.toNat len.toNat)
  | .gate _ p inv len => some (steerBits 5 0 0 p.toNat 0 inv false 0 len.toNat)
  | .fire _ e => some (steerBits 6 0 e.toNat 0 0 false false 0 0)
  | .consume _ e => some (steerBits 7 0 e.toNat 0 0 false false 0 0)
  | .take _ e n => some (steerBits 8 n.toNat e.toNat 0 0 false false 0 0)
  | .token _ e f n v => some (steerBits 9 n.toNat e.toNat 0 0 false f v.toNat 0)
  | .dstart _ n d => some (.dma (BitVec.ofNat 64 (1 + 2 ^ 4 + n.toNat * 2 ^ 8 + d.toNat * 2 ^ 11)))
  | .dtile _ n => some (.dma (BitVec.ofNat 64 (2 + 2 ^ 4 + n.toNat * 2 ^ 8)))
  | .arrive _ waf c half own tgt => some (routerBits 1 (ifSet waf (2 ^ 8) + c.toNat * 2 ^ 9 + half.toNat * 2 ^ 22 + ifSet own (2 ^ 21)) tgt)
  | .await _ waf c ext => some (routerBits 2 (ifSet waf (2 ^ 8) + c.toNat * 2 ^ 9 + ifSet ext (2 ^ 15)) 0)
  | .tprod _ n v a b tgt => some (routerBits 3 (n.toNat * 2 ^ 16 + v.toNat * 2 ^ 32 + ifSet a (2 ^ 28) + ifSet b (2 ^ 21)) tgt)
  | .tcons _ n v => some (routerBits 4 (n.toNat * 2 ^ 16 + v.toNat * 2 ^ 32) 0)
  | .twait _ n v ext => some (routerBits 5 (n.toNat * 2 ^ 16 + v.toNat * 2 ^ 32 + ifSet ext (2 ^ 15)) 0)
  | _ => none

/-- A state in which the schedule of the step that runs has a command of a core at the core's present beat; a command of no schedule
needs none. -/
def placed (i : Instr) (s : State) : State :=
  match Claim.scheduledAt i, wordOf (Claim.asScheduled i) with
  | some k, some w =>
    let c := s.core k
    let x : StepSched := ⟨[⟨100, 64⟩], [], [], [], [], [], [⟨localCore s.split (wingOf k) k, c.flow.layer.toNat, c.time - c.flow.layerStart, w⟩]⟩
    let img : Image := ⟨0, [], [], .step, 0, 0, [x], [], [], [], []⟩
    s.onWing (s.lead (wingOf k)) (fun y => { y with
      run := some { (y.run.getD { ring := 0, seq := 7, handle := 1, sel := 0 }) with handle := 1, sel := 0, began := true },
      progs := [(1, { image := img, seed := 0, wing := 0 })] })
  | _, _ => s
/-- Whether a core acts on a command that its schedule has at its present beat (Claim.Acts). -/
def acts (k : Nat) (i : Instr) (s : State) : Bool := validCore k && (placed i s).acting k (Claim.asScheduled i)
/-- A condition on the state that a command answers, where its schedule has it. -/
def answers (i : Instr) (s : State) (p : State → Bool) : Bool :=
  match exec i (placed i s) with
  | .next t => p t
  | _ => false

/-- A wing after its capstone. -/
def liveWing : WingState := { phase := 7, coupled := true, level := false }

/-- A module after its capstone: powered, with every compute rail up and the companion's link up. -/
def live : State := { State.reset with
  pins := { pwrOk := true, flowOk := true }, capstoned := true, west := liveWing, east := liveWing,
  clusters := (List.range 48).map (fun n => (n, { railUp := true })), link := { up := true, version := 1, width := 32 } }

/-- A wing on which a STEP_RUN runs as descriptor 7 of ring 0. -/
def running : State := { live with
  flights := [{ ring := 0, seq := 7, words := 0x20, wing := 0, order := 0, stage := .running }],
  west := { liveWing with run := some { ring := 0, seq := 7, handle := 1, sel := 0 } } }

/-- live with a core of its own at 0. -/
def at0 (c : Core) : State := live.setCore 0 c

/-- A core whose sections are on, with bytes written at an address. -/
def holding (a : Nat) (bs : List Byte) : Core := ({ mem := { on := 0xFF } } : Core).writeMem a bs

/-- Bytes that all differ from their neighbours: i · 7 + 3. -/
def someBytes (n : Nat) : List Byte := (List.range n).map (fun i => BitVec.ofNat 8 (7 * i + 3))

/-! ### The block itself -/

/-- The CRC of a block of zeros with tag 0 (R173, R175), in four pieces of 128 bytes and the tag. -/
theorem test_zero_block_crc : blockCrc (List.replicate 512 0) 0 = zeroBlockCrc := by
  have z : ∀ c, crc32cFrom c (List.replicate 512 (0 : Byte)) = crc32cFrom (crc32cFrom (crc32cFrom (crc32cFrom c
      (List.replicate 128 0)) (List.replicate 128 0)) (List.replicate 128 0)) (List.replicate 128 0) := by
    intro c; simp only [← crc32cFrom_append, List.replicate_append_replicate]
  have a : crc32cFrom 0xFFFFFFFF (List.replicate 128 (0 : Byte)) = 4158167844 := by decide +kernel
  have b : crc32cFrom 4158167844 (List.replicate 128 (0 : Byte)) = 1200442991 := by decide +kernel
  have d : crc32cFrom 1200442991 (List.replicate 128 (0 : Byte)) = 1158271177 := by decide +kernel
  have e : crc32cFrom 1158271177 (List.replicate 128 (0 : Byte)) = 3473084991 := by decide +kernel
  unfold blockCrc crc32c
  rw [crc32cFrom_append, z, a, b, d, e]
  decide +kernel

theorem witness_StepRunsFrontCommand :
    ({ live with pending := [.nop 0, .snop 1] } : State).pending = .nop 0 :: [.snop 1] ∧ live.pending = [] := by decide

theorem witness_CommandsAnswerAndKeepQueue : (Instr.nop 0).wf = true ∧ (Instr.nop 832).wf = false ∧
    answers (.nop 0) live (fun _ => true) = true := by decide +kernel

theorem witness_StepKeepsInvariant : Claim.Inv { live with pending := [.rnop 0, .ctrSet 0 1 5] } ∧
    step { live with pending := [.rnop 0, .ctrSet 0 1 5] } = exec (.rnop 0) { live with pending := [.ctrSet 0 1 5] } ∧
    answers (.ctrSet 0 1 5) live (fun t => (t.core 0).ctr 1 == 5) = true := by
  refine ⟨⟨by decide +kernel, by decide +kernel⟩, rfl, by decide +kernel⟩

theorem witness_ResetState : validCore 0 = true ∧ validCore (mkCore 831 815) = true ∧ validCore 832 = false := by decide

/-- A core that waits, one in sink mode, one in a suppressed window, and one whose rail is at retention. -/
theorem witness_IdleCores :
    Claim.scheduledAt (.ctrSet 0 1 5) = some 0 ∧
    ((at0 { pace := { wait := some { what := .await false 3 } } }).core 0).pace.wait ≠ none ∧
    ((at0 { flow := { sink := true } }).core 0).flow.sink = true ∧
    ((at0 { flow := { suppress := [(0, 1)] } }).core 0).suppressed = true ∧
    State.reset.railOn (clusterOf 0) = false ∧ live.railOn (clusterOf 0) = true := by decide +kernel

/-! ### Tensor engine -/

/-- FP32, one element of k for a tile group of one tile at ADDR 64. -/
def cmd32 : TCmd := { tiles := 0x04, kc := 1, addr := 64, init := true }

theorem witness_LoadsReplaceTheirTargets :
    (let s := at0 (holding 64 (someBytes 64))
     acts 0 (.loadA 0 cmd32 .ok) s = true ∧ acts 0 (.loadB 0 { cmd32 with half := true } .ok) s = true ∧
     acts 0 (.loadAnchor 0 cmd32 .ok) s = true ∧
     (loadABytes (s.core 0) cmd32).toOption = some 64 ∧
     ((s.core 0).readMem 64 64).toOption = some (someBytes 64) ∧
     ((s.core 0).readMem 0 0).toOption = some [] ∧
     elemBytes cmd32.fmt.toNat (cmd32.kc.toNat * (16 * cmdTc cmd32)) = 64 ∧
     64 * (cmdSel cmd32).length = 64 ∧
     answers (.loadA 0 cmd32 .ok) s (fun t => (Map.get {} (t.core 0).tensor.a 0).data == BitVec.ofNat 16384 (ofBytes (someBytes 64))
       && Map.get {} (t.core 0).tensor.a 1 == {} && (t.core 0).mem == (s.core 0).mem) = true ∧
     answers (.loadB 0 { cmd32 with half := true } .ok) s (fun t =>
       (Map.get {} (t.core 0).tensor.b 1).data == BitVec.ofNat 16384 (ofBytes (someBytes 64)) && (t.core 0).tensor.a == []) = true ∧
     answers (.loadAnchor 0 cmd32 .ok) s (fun t =>
       (((t.core 0).tile 2).rowMax.getD 0 0).toNat == 3 + 256 * 10 && (((t.core 0).tile 2).colMax.getD 15 0).toNat == 181 + 256 * 188
       && (t.core 0).tile 1 == {}) = true) := by decide +kernel

/-- INT8 by INT8 on the exact path, anchors 0 and scales 127, and FP32 on the split path. -/
def cmdI8 : TCmd := { fmt := 0xA, fmtB := 0xA, tiles := 0x04, kc := 1, init := true }
/-- A core whose operand buffers and anchors are loaded for cmdI8. -/
def loaded : Core := { tensor := { a := [(0, ⟨BitVec.ofNat 16384 (ofBytes (List.replicate 16 3)), BitVec.ofNat 1024 (ofBytes (List.replicate 16 127))⟩)],
                                   b := [(0, ⟨BitVec.ofNat 16384 (ofBytes (List.replicate 16 5)), BitVec.ofNat 1024 (ofBytes (List.replicate 16 127))⟩)],
                                   tiles := [(2, { rowMax := List.replicate 16 0, colMax := List.replicate 16 0 })] } }

theorem witness_MmaAccumulatesSelectedTiles :
    (let s := at0 loaded
     let c := s.core 0
     let ts := (cmdSel cmdI8).map (fun n => (n, (c.tile n).initMma false))
     acts 0 (.mma 0 cmdI8 .ok) s = true ∧ mmaPath16 cmdI8 = false ∧
     (∀ x ∈ ts, x.2.init = true ∧ x.2.path16 = false) ∧
     anchorExceeded cmdI8 (Map.get {} c.tensor.a 0) (Map.get {} c.tensor.b 0) ts = none ∧
     answers (.mma 0 cmdI8 .ok) s (fun t => decide (Claim.laneSum (((t.core 0).tile 2).lane 255) = 15 * 2 ^ 56) &&
       (t.core 0).tile 3 == {} && (t.core 0).tensor.a == c.tensor.a) = true) := by decide +kernel

/-- An EP128 word with EP_VERSION 1: VALUE v at SCALE 0, not EMPTY (Table 3.4). -/
def epWord (v : Nat) : Nat := 0x4000 * 2 ^ 112 + v

/-- A core with tile 2 initialised on a path, and 256 partials of nb bytes each at address 0. -/
def withTile (path16 : Bool) (nb w : Nat) : Core :=
  { holding 0 ((List.replicate 256 w).flatMap (toBytes nb)) with tensor := { tiles := [(2, ({} : Tile).initMerge path16)] } }

theorem holding_reads (a : Nat) (bs : List Byte) (h : a % 64 = 0) (h1 : bs.length % 64 = 0) (h2 : a + bs.length ≤ 98304) :
    (holding a bs).readMem a bs.length = .ok bs := by
  refine Core.readMem_writeMem _ a bs rfl h h1 h2 (fun i hi => ?_)
  have on : ∀ n, n < 8 → ({ on := 0xFF } : CoreMem).isOn n = true := by decide
  exact on _ (by unfold sectionOf; omega)

theorem witness_MergeCombinesPartials :
    (let cmd : TCmd := { fmt := 0xC, tiles := 0x04 }
     let cmd4 : TCmd := { tiles := 0x04 }
     let s := at0 { tensor := { tiles := [(2, ({} : Tile).initMerge false)] } }
     let s4 := at0 { tensor := { tiles := [(2, ({} : Tile).initMerge true)] } }
     acts 0 (.merge 0 cmd .ok) s = true ∧ acts 0 (.merge 0 cmd4 .ok) s4 = true ∧
     (∀ n ∈ cmdSel cmd, ((s.core 0).tile n).init = true ∧ ((s.core 0).tile n).path16 = false) ∧
     (∀ n ∈ cmdSel cmd4, ((s4.core 0).tile n).init = true ∧ ((s4.core 0).tile n).path16 = true) ∧
     epMalformed (BitVec.ofNat 128 (epWord 9)) = false) ∧
    (∀ bs : List Byte, bs.length = 4096 → (holding 0 bs).readMem 0 4096 = .ok bs) ∧
    (∀ bs : List Byte, bs.length = 1024 → (holding 0 bs).readMem 0 1024 = .ok bs) :=
  ⟨by decide +kernel, fun bs h => h ▸ holding_reads 0 bs (by omega) (by omega) (by omega),
    fun bs h => h ▸ holding_reads 0 bs (by omega) (by omega) (by omega)⟩

theorem witness_MalformedPartialIsRefused :
    (let cmd : TCmd := { fmt := 0xC, tiles := 0x04 }
     let s := running.setCore 0 { tensor := { tiles := [(2, ({} : Tile).initMerge false)] } }
     acts 0 (.merge 0 cmd .ok) s = true ∧ cmd.fmt.toNat ≠ 0 ∧
     s.underTest 0 = false ∧ s.stepRuns 0 = true ∧ (s.runningArray 0).isSome = true ∧
     (∀ n ∈ cmdSel cmd, ((s.core 0).tile n).init = true ∧ ((s.core 0).tile n).path16 = false) ∧
     epMalformed 5#128 = true ∧ epMalformed (BitVec.ofNat 128 (0x4080 * 2 ^ 112)) = true ∧
     epMalformed (BitVec.ofNat 128 (0x4040 * 2 ^ 112 + 1)) = true ∧ epMalformed (BitVec.ofNat 128 (0x4040 * 2 ^ 112)) = false) ∧
    (holding 0 (List.replicate 4096 0)).readMem 0 4096 = .ok (List.replicate 4096 0) := by
  refine ⟨by decide +kernel, ?_⟩
  have l : (List.replicate 4096 (0 : Byte)).length = 4096 := List.length_replicate
  have := holding_reads 0 (List.replicate 4096 0) (by omega) (by rw [l]) (by rw [l]; omega)
  rwa [l] at this

theorem witness_StoreWritesPanel :
    (let cmd : TCmd := { tiles := 0x04, addr := 4096 }
     let s := at0 (withTile true 4 0)
     acts 0 (.store 0 cmd .ok) s = true ∧ storeAllowed cmd (panelLanes (s.core 0) cmd) = true ∧
     storeAllowed { cmd with fmt := 0xC } (panelLanes (s.core 0) cmd) = false ∧
     answers (.store 0 cmd .ok) s (fun t => (t.core 0).mem.lineSet.getLsbD 79 && !(t.core 0).mem.lineSet.getLsbD 80 &&
       (t.core 0).tensor == (s.core 0).tensor) = true) := by decide +kernel

/-- Two words merged in both orders; an EMPTY lane, equal scales and different scales. -/
theorem witness_MergeAddsExactly :
    (let l : Lane := { v := 7, st := 0 }
     let w (v e st : Nat) : BitVec 128 := BitVec.ofNat 128 ((0x4000 + st) * 2 ^ 112 + e * 2 ^ 96 + v)
     let ws := [w 5 0 0, w (2 ^ 95) 0 1, w (2 ^ 95) 0 0]
     l.st &&& stEmpty = 0 ∧ ws.all (fun x => (epFields x).scale == l.e && !bit (epFields x).status 6) = true ∧
     l.c.toInt.natAbs + ws.length < 2147483647 ∧
     Claim.laneSum (ws.foldl (fun x y => (x.merge y).1) l) = 12 - 2 ^ 96 ∧
     ws.reverse.foldl (fun x y => (x.merge y).1) l = ws.foldl (fun x y => (x.merge y).1) l ∧
     bit (epFields (w 0 0x8000 0x40)).status 6 = true ∧ ({ l with st := stEmpty } : Lane).st &&& stEmpty ≠ 0 ∧
     (epFields (w 5 3 0)).scale ≠ l.e ∧ (l.merge (w 5 3 0)).1.e = 3) := by decide +kernel

theorem witness_ExactLaneHoldsExactSum :
    (let terms : List (Nat × Machine.Num) := [(0, .fin false 3 0), (31, .fin true 5 0)]
     let b : Nat → Machine.Num := fun _ => .fin false 7 0
     (∀ x ∈ terms, x.1 / 32 < 1) ∧
     Claim.laneSum (exactLane {} terms b (fun _ => 127) (fun _ => 127) 1).1 = -14 * 2 ^ 56 ∧
     (exactLane {} terms b (fun _ => 127) (fun _ => 127) 1).2 = false) := by decide +kernel

/-! ### Vector engine -/

/-- Registers 1 and 2 hold lanes; the predicate is set in lane 0 alone. -/
def vcore : Core := { vec := { regs := [(1, BitVec.ofNat 1024 (0x40000000 * 2 ^ 992 + 0x3F800000)),
                                        (2, BitVec.ofNat 1024 (0x40400000 * 2 ^ 992 + 0x40400000))], pred := 1 } }
/-- VD 3, VA 1, VB 2. -/
def vcmd : VCmd := { vd := 3, va := 1, vb := 2 }
/-- Lane i of register 3 after a command. -/
def lane3 (i : Instr) (n : Nat) (v : F32) : Bool := answers i (at0 vcore) (fun t =>
  vlane ((t.core 0).vreg 3) n == v && (t.core 0).vreg 1 == vcore.vreg 1)

theorem witness_VectorFunctionsOfLanes :
    acts 0 (.vadd 0 vcmd) (at0 vcore) = true ∧ acts 0 (.vlog2 0 { vcmd with pred := true }) (at0 vcore) = true ∧ vcmd.vrfErr = none ∧
    lane3 (.vadd 0 vcmd) 31 0x40A00000#32 = true ∧ lane3 (.vsub 0 vcmd) 0 0xC0000000#32 = true ∧
    lane3 (.vmul 0 { vcmd with bcastB := true }) 31 0x40C00000#32 = true ∧ lane3 (.vmax 0 vcmd) 0 0x40400000#32 = true ∧
    lane3 (.vmin 0 { vcmd with pred := true }) 31 0 = true ∧ lane3 (.vdiv 0 { vcmd with va := 2, vb := 2 }) 0 0x3F800000#32 = true ∧
    lane3 (.vfma 0 { vcmd with vc := 1 }) 0 0x40800000#32 = true ∧ lane3 (.vadd 0 { vcmd with ty := .int32 }) 0 0x7FC00000#32 = true ∧
    lane3 (.vsqrt 0 vcmd) 0 0x3F800000#32 = true ∧ lane3 (.vrsqrt 0 vcmd) 0 0x3F800000#32 = true ∧
    lane3 (.vexp2 0 vcmd) 0 0x40000000#32 = true ∧ lane3 (.vlog2 0 vcmd) 31 0x3F800000#32 = true := by decide +kernel

theorem witness_VectorSelectCompareSumPower :
    vcmd.vrfErr = none ∧ (∀ i, i < 32 → 0 ≤ (vlane (vcore.vreg 4) i).toInt) ∧
    lane3 (.vsel 0 vcmd) 0 0x3F800000#32 = true ∧ lane3 (.vsel 0 vcmd) 31 0x40400000#32 = true ∧
    answers (.vcmp 0 .lt vcmd) (at0 vcore) (fun t => (t.core 0).vec.pred == 0x80000001#32) = true ∧
    lane3 (.vsum 0 vcmd) 0 0x40400000#32 = true ∧ lane3 (.vsum 0 vcmd) 1 0 = true ∧
    lane3 (.vpowi 0 { vcmd with vb := 4 }) 31 0x3F800000#32 = true := by decide +kernel

theorem witness_VectorConversions :
    vcmd.vrfErr = none ∧ lane3 (.vcvt 0 .lowBf16ToF32 vcmd) 1 0x3F800000#32 = true ∧
    lane3 (.vcvt 0 .highBf16ToF32 vcmd) 31 0x40000000#32 = true ∧ lane3 (.vcvt 0 .i32ToF32 { vcmd with va := 2 }) 0 0x4E808000#32 = true ∧
    lane3 (.vcvt 0 .f32ToI32 vcmd) 31 2 = true ∧ lane3 (.vcvt 0 .f32ToLowBf16 vcmd) 0 0x00003F80#32 = true ∧
    lane3 (.vcvt 0 .f32ToHighBf16 vcmd) 31 0x40000000#32 = true := by decide +kernel

theorem witness_VectorLoadAndStore :
    (let s := at0 { holding 0 (someBytes 128) with vec := vcore.vec }
     vcmd.vrfErr = none ∧ acts 0 (.vld 0 vcmd) s = true ∧ acts 0 (.vst 0 { vcmd with addr := 98176 }) s = true ∧ ((s.core 0).readMem 0 128).isOk = true ∧
     ({ vcmd with addr := 98176 } : VCmd).addr.toNat % 128 = 0 ∧ Memory.wf (s.core 0).mem.bytes = true ∧
     (s.core 0).mem.isOn (sectionOf 98176) = true ∧
     answers (.vld 0 vcmd) s (fun t => vlane ((t.core 0).vreg 3) 1 == 0x342D261F#32 && (t.core 0).mem == (s.core 0).mem) = true ∧
     answers (.vst 0 { vcmd with addr := 98176 }) s (fun t => Mem.get (t.core 0).mem.bytes 98303 == 0x40 &&
       Mem.get (t.core 0).mem.bytes 98304 == 0 && Mem.get (t.core 0).mem.bytes 127 == Mem.get (s.core 0).mem.bytes 127 &&
       (t.core 0).mem.lineSet.getLsbD 1535) = true) := by decide +kernel

theorem witness_VectorParityEndsStep :
    (let i : Instr := .vadd 0 { vcmd with vrfErr := some 0x44 }
     acts 0 i running = true ∧ running.underTest 0 = false ∧ running.stepRuns 0 = true ∧
     (running.runningArray 0).isSome = true ∧
     answers i running (fun t => t.flights.isEmpty && (t.cring 0).waiting.any (fun r => r.seq == 7 && r.disp == 2 &&
       r.fault == 0x2007#16 && r.whereKind == 1 && r.where_ == 0) && t.west.run.isNone && t.west.drain.isSome &&
       (t.core 0).mem.errAddr == 0x44 && (t.core 0).mem.errUnit == 6 && (t.core 0).vec == {}) = true) := by decide +kernel

/-! ### Steering unit, courses and tally pairs -/

/-- Counter 1 holds 3, predicate 2 is set, and governed receive endpoint 4 holds both halves with a VALUE beyond 16 bits. -/
def scounts : Core :=
  let recv : List (Nat × RecvEp) := [(4, { bound := true, governed := true, skew := [(0, { token := some 0x10000, data := true })] })]
  { flow := { counters := [(1, 3)], preds := 4, recv := recv } }

theorem witness_SteeringCommandsAct :
    (let s := at0 scounts
     acts 0 (.ctrSet 0 1 9) s = true ∧ acts 0 (.ctrTest 0 7 1 .le 3) s = true ∧ acts 0 (.loopCmd 0 true 1 5 10) s = true ∧
     acts 0 (.gate 0 2 false 6) s = true ∧ acts 0 (.take 0 4 1) s = true ∧ ((s.core 0).ctr 1).toNat = 3 ∧
     answers (.ctrSet 0 1 9) s (fun t => (t.core 0).ctr 1 == 9 && (t.core 0).ctr 2 == 0) = true ∧
     answers (.ctrAdd 0 1 0xFFFD) s (fun t => (t.core 0).ctr 1 == 0) = true ∧
     answers (.ctrTest 0 7 1 .le 3) s (fun t => (t.core 0).flow.preds == 0x84) = true ∧
     answers (.ctrTest 0 2 1 .lt 3) s (fun t => (t.core 0).flow.preds == 0) = true ∧
     answers (.ctrAdd 0 1 0xFFFC) s (fun t => (t.core 0).ctr 1 == 3 && (t.core 0).flow.errCode == 0xA) = true ∧
     answers (.loopCmd 0 true 1 2 1) s (fun t => (t.core 0).suppressedAt 1 && !(t.core 0).suppressedAt 2 &&
       (t.core 0).flow.errCode == 0xA) = true ∧
     answers (.take 0 4 1) s (fun t => (t.core 0).ctr 1 == 3 && (t.core 0).flow.errEp == 4) = true ∧
     answers (.loopCmd 0 true 1 5 10) s (fun t => (t.core 0).flow.suppress == [(30, 50)]) = true ∧
     answers (.loopCmd 0 false 1 5 10) s (fun t => (t.core 0).flow.suppress == [] && (t.core 0).flow.loops == [(0, 50)]) = true ∧
     answers (.gate 0 2 false 6) s (fun t => (t.core 0).flow.suppress == [(1, 7)]) = true ∧
     answers (.gate 0 2 true 6) s (fun t => (t.core 0).flow.suppress == []) = true) := by decide +kernel

/-- SEND of one flit from address 64 on endpoint 3. -/
def dSend : Desc := BitVec.ofNat 512 (0x20 + 3 * 2 ^ 20 + 31 * 2 ^ 112 + 64 * 2 ^ 320)
/-- Send endpoint 3 with 1 credit of 2 and its peer's receive endpoint 5, holding two blocks. -/
def streams : Core :=
  let send : List (Nat × SendEp) := [(3, { bound := true, peer := 1, peerEp := 2, flits := 1, perFiring := 1, depth := 2, credits := 1, stream := some 1 }),
    (6, { bound := true, token := true, peer := 1, peerEp := 7, pair := 1, fired := 2 })]
  let recv : List (Nat × RecvEp) := [(5, { bound := true, peer := 2, peerEp := 1, flits := 1, perFiring := 2, depth := 2, level := 2 }),
           (4, { bound := true, governed := true, skew := [(0, { token := some 0xFFFF, data := true })] })]
  { flow := { send := send, recv := recv }, dma := { slots := [(1, { desc := dSend })], busy := 2 } }

theorem witness_FireAndConsumeMoveCredits :
    (let s := at0 streams
     let c := s.core 0
     acts 0 (.fire 0 3) s = true ∧ acts 0 (.consume 0 5) s = true ∧ (c.sendEp 3).bound = true ∧ (c.sendEp 3).token = false ∧
     (c.sendEp 3).perFiring ≤ (c.sendEp 3).credits.toNat ∧ (c.sendEp 3).governed = false ∧
     c.nextFlits (c.sendEp 3) = [64] ∧ (c.recvEp 5).bound = true ∧
     (c.recvEp 5).perFiring ≤ (c.recvEp 5).level.toNat ∧ (c.recvEp 5).governed = false ∧
     answers (.fire 0 3) s (fun t => ((t.core 0).sendEp 3).credits == 0 && ((t.core 0).sendEp 3).fired == 1 &&
       (t.core 0).dma.firing.map (fun f => (f.ep, f.peer, f.peerEp, f.flits)) == [(3, 1, 2, [64])]) = true ∧
     answers (.fire 0 3) (at0 (streams.setSend 3 { streams.sendEp 3 with credits := 0 })) (fun t =>
       (t.core 0).pace.lateCount == 1 && (t.core 0).pace.cause == 6 && (t.core 0).pace.shift == 1 &&
       (t.core 0).pace.wait == some { what := .fire 3, late := 1 }) = true ∧
     answers (.fire 0 3) (at0 (streams.setSend 3 { streams.sendEp 3 with governed := true })) (fun t =>
       (t.core 0).pace.lateCount == 1 && (t.core 0).pace.cause == 5) = true ∧
     answers (.consume 0 5) s (fun t => ((t.core 0).recvEp 5).level == 0 && (t.core 0).router.out == [.credit 2 1 false 2 0] &&
       (t.core 0).router.toSend == [.credit 2 1 false 2 0]) = true) := by
  decide +kernel

theorem witness_TokenAndTakePair :
    (let s := at0 streams
     let c := s.core 0
     acts 0 (.token 0 6 false 1 0xABCD) s = true ∧ acts 0 (.take 0 4 9) s = true ∧ (c.sendEp 6).bound = true ∧ (c.sendEp 6).token = true ∧ (c.sendEp 6).pair ≠ 0 ∧
     (c.sendEp 6).peerEp < 16 ∧ (c.recvEp 4).bound = true ∧ (c.recvEp 4).governed = true ∧
     ((c.recvEp 4).entry 0).token = some 0xFFFF ∧ ((c.recvEp 4).entry 0).data = true ∧
     answers (.token 0 6 false 1 0xABCD) s (fun t => (t.core 0).router.out ==
       [.token 1 false (BitVec.ofNat 128 (1 + 7 * 2 ^ 6 + 2 * 2 ^ 10 + 0xABCD * 2 ^ 32))]) = true ∧
     answers (.take 0 4 9) s (fun t => (t.core 0).ctr 9 == 0xFFFF && ((t.core 0).recvEp 4).skew == [] &&
       ((t.core 0).recvEp 4).taken == 1 && (t.core 0).router.out == [.credit 0 0 false 0 1, .credit 0 0 false 0 1]) = true) := by decide +kernel

/-- Course 5 at core 0, of two participants, the first of which has arrived; releases held; a wafer course at the root. -/
def courses : State :=
  let cs : List (Nat × Course) := [(5, { participants := 2, arrived := 1, senders := [(0, (1, true))] }), (6, { held := true })]
  (at0 { router := { courses := cs, waferHeld := 1 } }).onWing 0 (fun x => { x with wafer := [(3, { participants := 2, arrived := 1 })] })

theorem witness_CoursesMeet :
    acts 0 (.arrive 0 false 5 1 true 1) courses = true ∧ acts 0 (.await 0 true 0 false) courses = true ∧ ((courses.core 0).course 6).held = true ∧
    (courses.core 0).router.waferHeld.getLsbD 0 = true ∧ ((courses.core 0).course 5).arrived.getLsbD 1 = false ∧
    (Map.get {} (courses.wing 0).wafer 3).arrived + 1 = (Map.get {} (courses.wing 0).wafer 3).participants ∧
    (Map.get ({} : WaferCourse) [(3, { participants := 3 })] 3).arrived + 1 < 3 ∧
    answers (.arrive 0 false 5 1 true 1) courses (fun t => (t.core 0).router.out == [.course 1 5 1 true]) = true ∧
    answers (.await 0 false 6 false) courses (fun t => !((t.core 0).course 6).held && (t.core 0).pace.wait.isNone) = true ∧
    answers (.await 0 true 0 false) courses (fun t => (t.core 0).router.waferHeld == 0) = true ∧
    answers (.courseRelease 0 63) courses (fun t => ((t.core 0).course 63).held) = true ∧
    answers (.courseMessage 0 5 1 7 false) courses (fun t => ((t.core 0).course 5).gen && ((t.core 0).course 5).arrived == 0 &&
      (t.core 0).router.out == [.release 1 5 true, .release 7 5 false]) = true ∧
    answers (.courseTreeMessage 0 3 true 0) courses (fun t => (Map.get {} t.west.wafer 3).gen &&
      (t.core 415).router.waferHeld.getLsbD 3 && (t.core 416).router.waferHeld.getLsbD 3) = true ∧
    answers (.courseMessage 0 5 1 7 false) (at0 { router := { courses := [(5, { participants := 3, arrived := 1 })] } }) (fun t =>
      ((t.core 0).course 5).arrived == 3 && (t.core 0).router.out == []) = true := by decide +kernel

/-- Tally pair 2: two produced of four, one consumed. -/
def tallies : State := at0 { router := { tallies := [(2, { prod := 2, cons := 1, buffers := 4 })] } }

theorem witness_TalliesCountAndWait :
    acts 0 (.tprod 0 2 2 false true 0) tallies = true ∧ acts 0 (.tcons 0 2 0) tallies = true ∧
    acts 0 (.twait 0 2 1 true) tallies = true ∧ ((tallies.core 0).tally 2).prod.toNat + 2 + 1 ≤ 4 + 1 ∧
    answers (.tallyMessage 0 2 2) tallies (fun t => ((t.core 0).tally 2).prod == 5) = true ∧
    answers (.tprod 0 2 2 false true 0) tallies (fun t => ((t.core 0).tally 2).prod == 5) = true ∧
    answers (.tprod 0 2 255 true true 1) tallies (fun t => (t.core 0).router.out == [.tally 1 2 256 true]) = true ∧
    answers (.tcons 0 2 0) tallies (fun t => ((t.core 0).tally 2).cons == 2) = true ∧
    answers (.twait 0 2 0 false) tallies (fun t => (t.core 0).pace.wait.isNone) = true ∧
    answers (.twait 0 2 1 false) tallies (fun t => (t.core 0).pace.wait.isSome && (t.core 0).pace.lateCount == 1 &&
      (t.core 0).pace.cause == 7) = true ∧
    (tallies.core 0).isHeld false 9 = false ∧
    answers (.await 0 false 9 true) tallies (fun t => (t.core 0).pace.extCount == 1 && (t.core 0).pace.lateCount == 0) = true := by
  decide +kernel

/-! ### DMA engine -/

/-- READ of one 512-byte block at bonded address 0, and a WRITE, an EXT_IN at the companion gateway and a PRESCAN of the same. -/
def dRead : Desc := BitVec.ofNat 512 (511 * 2 ^ 112)
/-- The WRITE. -/
def dWrite : Desc := BitVec.ofNat 512 (0x10 + 511 * 2 ^ 112)
/-- The EXT_IN. -/
def dExtIn : Desc := BitVec.ofNat 512 (0x40 + 0x40 * 2 ^ 48 + 511 * 2 ^ 112)
/-- The PRESCAN. -/
def dScan : Desc := BitVec.ofNat 512 (0x30 + 511 * 2 ^ 112)

theorem witness_StreamsStartAndTile :
    (let s := at0 { dma := { bursts := [(0, [dRead, dWrite])] } }
     let c := s.core 0
     let ext := at0 { dma := { slots := [(2, { desc := dExtIn })] }, router := { tallies := [(2, { prod := 1, buffers := 2 })] } }
     let late := running.setCore 0 { dma := { slots := [(2, { desc := dExtIn })] }, router := { tallies := [(2, { buffers := 2 })] } }
     acts 0 (.dstart 0 7 1) s = true ∧ acts 0 (.dtile 0 2) ext = true ∧ c.slotBusy 7 = false ∧ (c.dma.held 1).isSome = true ∧ (c.dma.held 8).isSome = false ∧
     dOptical dWrite = false ∧ dKind dWrite ≠ 2 ∧ dKind dWrite ≠ 4 ∧ dTiles dRead = 1 ∧ dKind dExtIn = 4 ∧ dOptical dExtIn = false ∧
     acts 0 (.dtile 0 2) late = true ∧ late.underTest 0 = false ∧
     answers (.dstart 0 7 1) s (fun t => (t.core 0).slotBusy 7 && ((t.core 0).slot 7).desc == dWrite && ((t.core 0).slot 7).index == 1) = true ∧
     answers (.dstart 0 7 8) s (fun t => (t.core 0).slotBusy 7 && ((t.core 0).slot 7).fetching && (t.core 0).dma.fetch == [⟨1, 4, 7, 8⟩]) = true ∧
     answers (.dtile 0 2) (at0 { dma := { slots := [(2, { desc := dRead })] } }) (fun t => ((t.core 0).slot 2).released == [0]) = true ∧
     answers (.dtile 0 2) ext (fun t => ((t.core 0).tally 2).cons == 1 && ((t.core 0).slot 2).released == [0]) = true ∧
     answers (.dtile 0 2) late (fun t => (t.core 0).flow.errCode == 0x011 && t.flights.isEmpty && t.west.run.isNone) = true) := by
  decide +kernel

theorem witness_BlocksIssueAndPrescansFree :
    (let rd := at0 { dma := { slots := [(1, { desc := dRead })], busy := 2 } }
     let w64 : Desc := BitVec.ofNat 512 (0x10 + 63 * 2 ^ 112)
     let wr := at0 { holding 0 (someBytes 64) with dma := { slots := [(1, { desc := w64, released := [0] })], busy := 2 } }
     let sc := at0 { mem := { on := 0xFF }, dma := { slots := [(1, { desc := dScan })], busy := 2 } }
     let mxScan : Desc := BitVec.ofNat 512 (0x530 + 479 * 2 ^ 112)
     let ab := at0 { dma := { slots := [(1, { desc := mxScan, pairDesc := mxScan, issue := { run := 1 }, issued := 1 })], busy := 2 } }
     validCore 0 = true ∧ rd.railOn (clusterOf 0) = true ∧ (rd.core 0).slotBusy 1 = true ∧ dSparse dRead = 0 ∧
     ((rd.core 0).slot 1).mayIssue false 0 = true ∧ ((wr.core 0).slot 1).mayIssue false 0 = true ∧ dKind w64 = 1 ∧ dKind dScan = 3 ∧
     ((sc.core 0).slot 1).more false = false ∧ ((sc.core 0).slot 1).more true = false ∧
     dKind mxScan = 3 ∧ dSparse mxScan = 0 ∧ (ab.core 0).slotBusy 1 = true ∧ ((ab.core 0).slot 1).mayIssue false 0 = false ∧
     ((ab.core 0).slot 1).mayIssue true 0 = true ∧
     answers (.blockIssue 0 1) ab (fun t => (t.core 0).router.out == [.readReq 1 0 secondRun 0 false false 0] &&
       ((t.core 0).slot 1).issuedB == 1) = true ∧
     answers (.blockIssue 0 1) rd (fun t => (t.core 0).dma.blocksRd == 1 && (t.core 0).router.out == [.readReq 1 0 0 0 false false 0]) = true ∧
     answers (.prescanDone 0 1) sc (fun t => !(t.core 0).slotBusy 1 && (t.core 0).dma.staged.length == 64 &&
       (t.core 0).dma.order == [⟨0, 0, 1⟩]) = true) := by decide +kernel

/-! ### Arrivals, mesh and buses -/

/-- A token for receive endpoint 4 with SEQ q, of epoch 0. -/
def tok (q : Nat) : BitVec 128 := BitVec.ofNat 128 (1 + 4 * 2 ^ 6 + q * 2 ^ 10 + 0x77 * 2 ^ 32)
/-- Endpoints with room for what arrives. -/
def arriving : Core :=
  let send : List (Nat × SendEp) := [(3, { bound := true, depth := 2, credits := 1, pair := 3 })]
  let skew : List (Nat × Skew) := [(3, { token := some 1 })]
  let recv : List (Nat × RecvEp) :=
    [(4, { bound := true, governed := true, perFiring := 1, flits := 1, depth := 4, taken := 2, skew := skew }), (5, { bound := true, perFiring := 1, flits := 1, depth := 2, level := 1, arrived := 3 })]
  { flow := { send := send, recv := recv } }

theorem witness_ArrivalsReachEndpoints :
    (let s := at0 arriving
     let r := running.setCore 0 arriving
     let code (i : Instr) (n : BitVec 12) : Bool := answers i r (fun t => t.flights.isEmpty && (t.core 0).flow.errCode == n &&
       (t.core 0).flow.errEp == 4)
     validCore 0 = true ∧ (s.core 0).flow.sink = false ∧ ((s.core 0).recvEp 5).bound = true ∧ r.underTest 0 = false ∧
     bits (tok 5) 9 6 = 4 ∧ bits (tok 5) 25 10 = 5 ∧ (((s.core 0).recvEp 4).entry 5).token = none ∧
     ((s.core 0).sendEp 3).pair.toNat + 1 ≤ 4 ∧ ((s.core 0).sendEp 3).credits.toNat + 1 ≤ ((s.core 0).sendEp 3).depth ∧
     answers (.streamBlock 0 5 (someBytes 32)) s (fun t => ((t.core 0).recvEp 5).level == 2 && (t.core 0).byteAt 32 == 3 &&
       (t.core 0).byteAt 63 == 0xDC) = true ∧
     answers (.creditPacket 0 3 0 1) s (fun t => ((t.core 0).sendEp 3).pair == 4) = true ∧
     answers (.creditPacket 0 3 1 0) s (fun t => ((t.core 0).sendEp 3).credits == 2) = true ∧
     answers (.controlToken 0 (tok 5)) s (fun t => (((t.core 0).recvEp 4).entry 5).token == some 0x77) = true ∧
     code (.controlToken 0 (tok 5 + 1)) 6 = true ∧ code (.controlToken 0 (tok 6)) 5 = true ∧ code (.controlToken 0 (tok 3)) 4 = true ∧
     answers (.controlToken 0 (tok 5 + 16)) r (fun t => !t.flights.isEmpty && (t.core 0).flow.staleCount == 1 &&
       (t.core 0).flow.staleEpoch == 1 && (t.core 0).flow.errCode == 7) = true) := by decide +kernel

/-- A packet of one flit from core (0, 1)'s west for a destination, with its CRC. -/
def pkt (ptype : BitVec 3) (x y : BitVec 12) : Pkt :=
  let p : Pkt := ⟨ptype, false, x, y, 0, false, 1, 0, [0x5A], 0, 0, 0⟩
  { p with crc := pktCrc p }
/-- Core (1, 1), with an unanswered packet to the east and an unscheduled one from the west. -/
def router : Router :=
  let east : LinkKind := { replay := [(4, pkt 7 9 1, 6), (5, pkt 7 8 1, 0)], next := 6 }
  let west : LinkKind := { inBuf := [pkt 7 7 1] }
  { links := [(1, { unsched := east }), (3, { unsched := west })] }

/-- The flits of a packet arrive over link 3, as they were sent or with a payload that has changed. -/
def arrives (p : Pkt) (good : Bool) : Instr :=
  .meshPacketReceive (mkCore 1 1) 3 ⟨p.src, p.due⟩ (pktSides p 0 0) (if good then p.payload else [0])

theorem witness_MeshMovesPackets :
    (let k := mkCore 1 1
     let s := live.setCore k { router := router }
     let c := s.core k
     let p := pkt 0 9 1
     let side := pktSides p 0 0
     let failing := running.setCore k { router := { links := [(1, { unsched := { replay := [(4, pkt 7 9 1, 7)], next := 5 } })] } }
     let turn : Core := { router := { links := [(3, { sched := { inBuf := [p] } })] } }
     validCore k = true ∧ posOk side = true ∧ side.length = p.payload.length ∧ side.all (fun b => sideOk b && !bit b 11) = true ∧
     pktOf ⟨0, 0⟩ side p.payload = p ∧ p.version = 1 ∧ p.rsv = 0 ∧ s.levelAt k = false ∧ routeFails s.split k p = false ∧
     (c.mlink 3).sched.takes p = true ∧ pktCrc p = p.crc ∧ pktOut k p = 1 ∧ failing.underTest k = false ∧
     (turn.mlink 1).sched.room p = true ∧ pktScheduled (pkt 7 9 1) = false ∧
     c.nextUnsched false k 1 = some (3, pkt 7 7 1) ∧ c.outIdle false k 1 = true ∧ (c.mlink 1).unsched.room (pkt 7 7 1) = true ∧
     answers (arrives p true) s (fun t => ((t.core k).mlink 3).sched.inBuf == [p] && ((t.core k).mlink 3).sched.expect == 1 &&
       ((t.core k).mlink 3).answers == [ackWord false true 0]) = true ∧
     answers (arrives p false) s (fun t => ((t.core k).mlink 3).sched.inBuf == [] && ((t.core k).mlink 3).sched.discard &&
       ((t.core k).mlink 3).sched.expect == 0 && ((t.core k).mlink 3).answers == [ackWord true true 0]) = true ∧
     ((turn.serveSched k 0 1).mlink 1).sched.replay = [(0, p, 0)] ∧ ((turn.serveSched k 0 1).mlink 3).sched.inBuf = [] ∧
     answers (.meshAck k 1 false false 4) s (fun t => ((t.core k).mlink 1).unsched.replay == [(5, pkt 7 8 1, 0)]) = true ∧
     answers (.meshAck k 1 false true 5) s (fun t => ((t.core k).mlink 1).unsched.replay == [(4, pkt 7 9 1, 6), (5, pkt 7 8 1, 1)] &&
       ((t.core k).mlink 1).resends == 1) = true ∧
     answers (.meshAck k 1 false true 4) failing (fun t => ((t.core k).mlink 1).failed && t.flights.isEmpty &&
       (t.core k).router.errCode == 1) = true ∧
     answers (.meshResendTimeout k 1 false) s (fun t => ((t.core k).mlink 1).unsched.replay ==
       [(4, pkt 7 9 1, 7), (5, pkt 7 8 1, 1)]) = true ∧
     answers (.unscheduledPacket k (.enter (pkt 7 9 1))) s (fun t => (t.core k).router.localIn.length == 1) = true ∧
     answers (.unscheduledPacket k (.serve 1)) s (fun t => ((t.core k).mlink 3).unsched.inBuf == [] &&
       ((t.core k).mlink 1).unsched.replay.getLast? == some (6, pkt 7 7 1, 0)) = true) := by decide +kernel

/-- A bus binding of 16-byte blocks: the writer's, and a listener's. -/
def busWord (writer : Bool) : BitVec 256 := BitVec.ofNat 256 ((if writer then 0x20 else 0x40) + 3 * 2 ^ 16)

theorem witness_BusesAndControlLane :
    (let w := at0 { holding 0 (someBytes 64) with router := { buses := [(2, { raw := busWord true })] } }
     let l := at0 { router := { buses := [(2, { raw := busWord false, count := 3 })] } }
     let r := running
     let part : BusBind := { raw := busWord true, sending := true }
     validCore 0 = true ∧ (w.core 0).flow.sink = false ∧ bit (busWord true) 5 = true ∧ bit (busWord false) 5 = false ∧
     busWord false ≠ 0 ∧ busBytes (busWord true) = 16 ∧ ((w.core 0).readMem 0 16).isOk = true ∧ l.underTest 0 = false ∧
     ((w.core 0).placeWord 2 part).2.isNone = true ∧ ((w.core 0).placeWord 2 part).1.bus 2 = { raw := busWord true, placed := someBytes 16, count := 1 } ∧
     answers (.busBlockSend 0 2) w (fun t => ((t.core 0).bus 2).count == 0 && ((t.core 0).bus 2).sending) = true ∧
     answers (.busBlock 0 2 (someBytes 16) (crc32c (someBytes 16))) l (fun t => ((t.core 0).bus 2).count == 4 &&
       (t.core 0).byteAt 15 == 108) = true ∧
     answers (.busBlock 0 2 (someBytes 16) 0) l (fun t => ((t.core 0).bus 2).count == 3 && (t.core 0).router.errCode == 2) = true ∧

     answers (.controlWord 0 (.setup 0x218 1) true) (at0 { arith := { status := 3 } }) (fun t => (t.core 0).arith.status == 2) = true ∧
     answers (.controlWord 0 .drainNotice false) r (fun t => t.flights.isEmpty && (t.core 0).flow.sink && (t.core 0).router.errCode == 2) = true) := by
  decide +kernel

/-! ### Memory channels -/

/-- A block that passes its check, and one that does not. -/
def blockOf (good : Bool) : Block :=
  let d := someBytes 512
  { data := d, crc := if good then blockCrc d 5 else ~~~(blockCrc d 5), tag := 5 }

theorem blockOf_good : (blockOf true).good = true ∧ (blockOf false).good = false := by
  constructor
  · simp [blockOf, Block.good]
  · have : ∀ x : BitVec 32, ~~~x ≠ x := by
      intro x h
      have := congrArg (fun y => y.getLsbD 0) h
      simp at this
    simp [blockOf, Block.good, this]

/-- Channel 0's request from core 0's slot 1 for block 9. -/
def asking : Core := { dma := { slots := [(1, { desc := dRead })], busy := 2 }, router := { out := [.readReq 1 9 0 0 true false 0] } }

/-- Core 0's read of block 9, accepted by channel 0: from its cache, or not. -/
def accepted (miss : Bool) : ChanRead := ⟨0, 1, 0, 0, 9, blockOf (!miss), miss, 0⟩

theorem witness_ReadsReachTheirSlots :
    (let s := (at0 asking).setCore (attachCore 0) { pace := { beat := 44 } }
     s.mayAccept 0 0 1 9 = true ∧ (at0 asking).mayAccept 0 0 1 9 = false ∧ 0 < 1536 ∧ validCore 0 = true ∧ blockChan 9 = 0 ∧ (s.core 0).findReq 1 9 = some (0, 0) ∧ (s.chan 0).lookup 9 = none ∧
     (s.core 0).slotBusy 1 = true ∧ dKind dRead = 0 ∧ dSparse dRead = 0 ∧
     answers (.readAccept 0 0 1 9 false) s (fun t => (t.chan 0).reads.length == 1 && (t.chan 0).misses == 1 &&
       (t.core 0).router.out.isEmpty) = true) ∧
    ({ cache := [(9, blockOf true)] } : Chan).lookup 9 = some (blockOf true) ∧
    (∀ miss, (running.onChan 0 (fun x => { x with reads := [accepted miss] })).chan 0 = { reads := [accepted miss] }) :=
  ⟨by decide +kernel, rfl, fun _ => rfl⟩

theorem witness_WritesReachMemory :
    (let w : Core := { router := { out := [.write 1 9 false 0 5 0] } }
     let s := at0 w
     let a := (at0 { dma := { slots := [(1, { desc := dWrite, issued := 1 })], busy := 2 } }).onChan 0 (fun x => { x with writes := [some (0, 1)] })
     s.mayWrite 0 true = true ∧ s.mayWrite 0 false = true ∧ blockChan (2 ^ 20 - 1) = 0 ∧ blockChan (2 ^ 20) = 1 ∧ Memory.wf s.bonded = true ∧ (s.core 0).findWrite 1 = some (9, 0, 5, 0) ∧
     (a.chan 0).writes = [some (0, 1)] ∧ (a.core 0).slotBusy 1 = true ∧
     answers (.writeAcknowledgement 0) a (fun t => ((t.core 0).slot 1).done == 1 && (t.chan 0).writes.isEmpty) = true) := by
  decide +kernel

theorem good_of_unwritten (s : State) (n : Nat) (h : s.bonded = []) (h' : s.side = []) : (s.block n).good = true := by
  unfold State.block Block.good
  rw [h, h', Mem.read_nil]
  simp only [Map.get]
  have := test_zero_block_crc
  exact beq_iff_eq.mpr this.symm

theorem witness_UnscheduledAccesses :
    blockChan 0 = 0 ∧ live.mayWrite 1535 false = true ∧ blockChan (1535 * 2 ^ 20) = 1535 ∧ Memory.wf live.bonded = true ∧ (live.block 0).good = true ∧
    answers (.channelFail 1535) running (fun t => t.flights.isEmpty && (t.cluster 47).memErrCode == 0xC) = true :=
  ⟨by decide, by decide +kernel, by decide, by decide, good_of_unwritten _ _ rfl rfl, by decide +kernel⟩

/-! ### Drains, beats and layers -/

/-- A drain of a wing, asked for or active since beat 0. -/
def draining (cause : BitVec 2) (active : Bool) : State :=
  live.onWing 0 (fun x => { x with drain := some { cause := cause, code := 0x3001, active := active, bound := 64 }, draining := active,
                                   drainCause := cause.setWidth 3 })

theorem witness_DrainsBeginAndEnd :
    (let c : Core := { arriving with router := { out := [.readReq 0 0 0 0 false false 0, .release 1 2 false], toSend := [.release 1 2 false] } }
     let n := (draining 1 true).setCore 0 c
     let late := (draining 1 true).setCore 0 { c with pace := { beat := 64 } }
     validCore 0 = true ∧ (draining 1 false).west.drain.isSome = true ∧ (n.wing (n.lead (wingOf 0))).draining = true ∧
     (n.core 0).flow.sink = false ∧ (draining 3 true).allCores 0 (fun c => c.drained) = true ∧
     late.allCores 0 (fun c => c.drained) = false ∧ 0 + 64 ≤ late.maxBeat 0 ∧ late.west.reformDue = none ∧
     answers (.drainStart 0) (draining 1 false) (fun t => t.west.draining && t.west.snapValid && t.west.snapFault == 0x3001) = true ∧
     answers (.drainStart 1) (draining 3 false) (fun t => t.west.draining && !t.west.snapValid) = true ∧
     answers (.drainNotice 0) n (fun t => (t.core 0).flow.sink && (t.core 0).snap.isSome && (t.core 0).router.out.contains (.readReq 0 0 0 0 false false 0) &&
       (t.core 0).router.out.contains (.release 1 2 false)) = true ∧
     answers (.drainSample 0) (draining 3 true) (fun t => t.west.drain.isNone && (t.core 0).flow.epoch == 0 && t.west.allEmpty) = true ∧
     answers (.drainSample 0) (draining 1 true) (fun t => t.west.drain.isNone && (t.core 0).flow.epoch == 0) = true ∧
     answers (.drainTimeout 0) late (fun t => t.west.drain.isNone && t.west.drainTimeout && t.west.reformDue == some 0x5008 &&
       (t.core 0).router.out.isEmpty && ((t.core 0).sendEp 3).credits == 2) = true) := by decide +kernel

theorem witness_BeatsAndCoreFaults :
    (let ahead := at0 { pace := { beat := 1 } }
     let stuck := running.setCore 0 { pace := { wait := some { what := .await false 3, late := 65536 } } }
     let ends (i : Instr) (s : State) (code : Code) : Bool := answers i s (fun t => t.flights.isEmpty && t.west.run.isNone &&
       (t.core 0).health.lastEvent == code)
     validCore 0 = true ∧ live.mayBeat 0 = true ∧ (live.core 0).pace.wait = none ∧ live.sched 0 = none ∧ ahead.mayBeat 0 = false ∧
     running.underTest 0 = false ∧ running.stepRuns 0 = true ∧ (running.wing (running.lead (wingOfCluster 47))).coupled = true ∧
     (let h := { running with west := { running.west with halted := true } }
      answers (.couplingTimeout (.noBeat 47)) h (fun t => decide (t = h)) = true ∧
      answers (.couplingTimeout (.skew 0)) h (fun t => decide (t = h)) = true) ∧
     answers (.beat 0 {}) live (fun t => (t.core 0).pace.beat == 1) = true ∧
     answers (.beat 0 {}) ahead (fun t => (t.core 0).pace.beat == 1) = true ∧
     ends (.engineTimeout 0) running 0x3001 = true ∧ ends (.computeRail 0) running 0x3004 = true ∧
     ends (.couplingTimeout (.skew 0)) running 0x8005 = true ∧ ends (.stall 0) stuck 0x8002 = true ∧
     answers (.couplingTimeout (.noBeat 47)) running (fun t => t.flights.isEmpty && !t.west.coupled && t.west.reformDue == some 0x8004) = true) := by
  decide +kernel

/-- A step schedule of two layers without commands, its image, and a wing on which it is prepared or runs. -/
def sched2 : StepSched := ⟨[⟨100, 64⟩, ⟨5, 0⟩], [], [], [], [], [], []⟩
/-- An image that holds sched2. -/
def image2 : Image := ⟨0, [], [], .step, 0, 0, [sched2], [], [], [], []⟩
/-- The wing with its run. -/
def stepping (r : Run) : State :=
  running.onWing 0 (fun x => { x with run := some r, progs := [(1, { image := image2, seed := 0, wing := 0 })] })
/-- The run of descriptor 7 of ring 0. -/
def run7 : Run := { ring := 0, seq := 7, handle := 1, sel := 0 }

/-- Every core of a state has begun a beat. -/
def atBeat (n : Word) (s : State) : State :=
  s.onWings 0 (fun x => { x with base := { x.base with pace := { x.base.pace with beat := n } } })

theorem witness_LayersStartAndEnd :
    (let prep := stepping run7
     let now := { run7 with began := true, start := 8 }
     let first := atBeat 108 (stepping now)
     let last := atBeat 177 (stepping { run7 with began := true, layer := 1, sampled := 1, start := 172 })
     let late := first.setCore 0 { pace := { beat := 108, lateCount := 1, firstBeat := 20 } }
     let away := first.setCore 0 { pace := { beat := 108 }, flow := { send := [(3, { bound := true, depth := 2, credits := 1 })] } }
     prep.sched 0 = some (run7, sched2) ∧ prep.west.power.startWaits = false ∧ first.sched 0 = some (now, sched2) ∧
     first.layerOver 0 now sched2 = true ∧ (stepping now).layerOver 0 now sched2 = false ∧
     (first.listed 0).all (fun c => !(first.flagsOf c 0).late && !(first.flagsOf c 0).away) = true ∧ first.west.draining = false ∧
     (late.flagsOf 0 0).late = true ∧ late.listed 0 = [0] ∧ late.underTest 0 = false ∧ (away.flagsOf 0 0).away = true ∧
     (away.flagsOf 0 0).late = false ∧ (away.flagsOf 0 0).unpaired = false ∧
     answers (.layerStart 0) prep (fun t => t.west.run == some { run7 with began := true, start := 1744 } && !(t.core 0).flow.sink) = true ∧
     answers (.layerStart 0) (stepping { run7 with start := 1748 }) (fun t => t.west.run ==
       some { run7 with began := true, start := 1748 }) = true ∧
     answers (.controlWord 0 (.startBeat 1744) true) prep (fun t => t.west.run == some { run7 with start := 1744 }) = true ∧
     answers (.controlWord 0 (.startBeat 1740) true) prep (fun t => t.west.run == some run7) = true ∧
     answers (.layerStart 0) first (fun t => t.west.run == some { run7 with began := true, layer := 1, start := 172 } &&
       (t.core 500).flow.layerStart == 172) = true ∧
     answers (.layerEndSample 0) first (fun t => t.west.run == some { now with sampled := 1 } &&
       t.flights.all (fun f => !f.ready)) = true ∧
     answers (.layerEndSample 0) last (fun t => t.flights.all (fun f => f.ready)) = true ∧
     answers (.layerEndSample 0) late (fun t => t.flights.isEmpty && (t.core 0).health.lastEvent == 0x8001) = true ∧
     answers (.layerEndSample 0) away (fun t => t.flights.isEmpty && (t.core 0).health.lastEvent == 0x5003) = true) := by decide +kernel

/-- The reference core of the west wing has begun 1000 beats in the window, and a sampled core of cluster 47 waited in 2 of 100. -/
def windowed : State :=
  (live.setCore (refCore 0) { pace := { winBeats := 1000 } }).setCore (mkCore (7 * 104 + 6) (5 * 136 + 8)) { pace := { winBeats := 100, winWaits := 2 } }

theorem witness_PaceFollowsReference :
    live.powered = true ∧ windowed.waitShare 47 = 20 ∧ windowed.waitShare 0 = 0 ∧
    answers (.refLost 1) running (fun t => t.west.refFault && !t.west.paceValid && t.west.refWait == 16 && t.flights.isEmpty) = true ∧
    answers (.referenceRestored 0) (live.onWing 0 (fun x => { x with refFault := true })) (fun t => !t.west.refFault) = true ∧
    answers (.paceWindowEnd 0 1000 [(47, 20)]) windowed (fun t => t.west.paceCount == 1000 && t.west.windowTag == 1 && t.west.paceValid &&
      (t.cluster 47).waitPermille == 20 && !(t.cluster 47).lagging && (t.cluster 0).lagging &&
      (t.core (refCore 0)).pace.winBeats == 0) = true ∧
    answers (.paceWindowEnd 0 1000 []) (windowed.onWing 0 (fun x => { x with paceDirty := true, refWait := 16 })) (fun t =>
      !t.west.paceValid && t.west.refWait == 16 && !t.west.paceDirty) = true := by
  decide +kernel

/-! ### The Tirrik link and register accesses -/

/-- Ring 0 with its doorbell line at 0x1000 held, a descriptor and a doorbell read and a record's write outstanding. -/
def linked : State :=
  let msgs : List CompMsg := [.rdShared 0x1000 (.doorbell false 0), .rdShared 0x2000 (.descriptor 0), .wrNc 0x3000 (someBytes 32) (.record 0)]
  let rec0 : OutRec := { ring := 0, seq := 1, family := 7, disp := 0 }
  { live with sq := [(0, { enable := true, size := 64, db := 0x40 })], cq := [(0, { size := 64, held := some (rec0, []), reserved := 1, enable := true })],
              link := { live.link with cache := [⟨0x1000, 5, true⟩], toComp := msgs } }

theorem witness_LinkMessagesAct :
    linked.link.cache.any (fun c => c.addr == 0x1000) = true ∧ (linked.sring 0).inUse = true ∧ (linked.sring 0).dbAddr = 0x1000 ∧
    (takeMsg (isRead 0x1000) (lineTaken 0x1000) linked.link.toComp).map (fun m => useOf m.1) = some (some (.doorbell false 0)) ∧
    (takeMsg (isRead 0x2000) (lineTaken 0x2000) linked.link.toComp).map (fun m => useOf m.1) = some (some (.descriptor 0)) ∧
    (takeMsg isWrNc (fun _ => []) linked.link.toComp).map (fun m => useOf m.1) = some (some (.record 0)) ∧
    (takeMsg (isWrNcAt 0x3000) (lineTaken 0x3000) linked.link.toComp).map (fun m => useOf m.1) = some (some (.record 0)) ∧
    takeMsg (isRead 0x4000) (lineTaken 0x4000) linked.link.toComp = none ∧ takeMsg isWrNc (fun _ => []) live.link.toComp = none ∧
    (linked.cring 0).held.isSome = true ∧
    answers (.inv 0x1010) linked (fun t => t.link.cache.isEmpty && t.link.toComp.contains (.invAck 0x1000)) = true ∧
    answers (.inv 0x1040) linked (fun t => t.link.errCode == 0x804) = true ∧
    answers (.data 0x1000 9) linked (fun t => (t.sring 0).tail == 9 && t.link.cache.head? == some ⟨0x1000, 9, true⟩) = true ∧
    answers (.data 0x2000 9) linked (fun t => t.link.cache.head? == some ⟨0x2000, 9, false⟩ && t.link.toComp.length == 2) = true ∧
    answers (.data 0x4000 9) linked (fun t => t.link.errCode == 0x804) = true ∧
    answers .wrAck linked (fun t => (t.cring 0).posted == 1 && (t.cring 0).held.isNone) = true ∧
    answers .wrAck live (fun t => t.link.errCode == 0x804) = true ∧
    answers (.companionErrorResponse false 0x2000) linked (fun t => (t.sring 0).halted && t.link.errCode == 0x805 &&
      (t.cring 0).waiting.any (fun r => r.fault == 0x1805)) = true ∧
    answers (.companionErrorResponse true 0x3000) linked (fun t => (t.cring 0).retry && t.link.errCode == 0x806) = true ∧
    answers (.companionErrorResponse false 0x2000) { linked with sq := [] } (fun t => !(t.sring 0).halted && t.link.errCode == 0x805) = true ∧
    lineTaken 0x1040 (.rdNc 0x1000 4 .report) = [.rdNc 0x1000 1 .report, .rdNc 0x1080 2 .report] := by
  decide +kernel

theorem witness_FlitsAndTraining :
    (let s : State := { live with link := { live.link with replay := [(4, 6), (5, 0)] } }
     let bad : State := { live with link := { live.link with replay := [(4, 7)] } }
     let tr : State := { live with link := { training := true } }
     s.link.up = true ∧ (∀ e ∈ s.link.replay, e.2 < 7) ∧ 7 ≤ 7 ∧ tr.link.up = false ∧ tr.west.phase ≠ 4 ∧ tr.east.phase ≠ 4 ∧
     (State.reset.west.phase.toNat < 4) ∧
     answers (.tirrikFlit 0 true none true) s (fun t => t.link.rxExpect == 1 && t.link.replay.length == 3) = true ∧
     answers (.tirrikFlit 0 false none true) s (fun t => t.link.rxNak && t.link.badFlits == 1) = true ∧
     answers .tirrikResendTimeout s (fun t => t.link.replay == [(4, 7), (5, 1)] && t.link.resends == 2) = true ∧
     answers .tirrikResendTimeout bad (fun t => !t.link.up && t.link.errCode == 0x807) = true ∧
     answers (.tirrikTrain 16 2) tr (fun t => t.link.up && t.link.width == 16 && t.link.version == 1) = true ∧
     answers (.tirrikTrain 32 1) tr (fun t => t.link.up && t.link.width == 32) = true ∧
     answers (.tirrikTrain 15 1) tr (fun t => !t.link.up && t.link.errCode == 0x802) = true ∧
     answers (.tirrikTrain 16 0) tr (fun t => !t.link.up && t.link.errCode == 0x803) = true ∧
     answers .tirrikTrainRetry { tr with link := {} } (fun t => t.link.training) = true ∧
     answers .tirrikTrainRetry State.reset (fun t => !t.link.training) = true ∧
     answers (.tirrikLaneLoss 16) live (fun t => t.link.up) = true ∧
     answers (.tirrikLaneLoss 15) running (fun t => !t.link.up && t.flights.isEmpty && t.link.errCode == 0x807) = true) := by
  decide +kernel

theorem witness_GeometryReadsAsTabled :
    live.link.up = true ∧ answers (.setupRd 8 8) live (fun t => t.link.toComp ==
      [.setupResp 0 (BitVec.ofNat 512 0x9070886868330340)]) = true := by decide +kernel

/-- Aperture 3 selects core 832 · 0 + 5 of the west wing, aperture 63 broadcasts. -/
def apertures : State :=
  { live with link := { live.link with apsel := [(3, { target := 5 }), (63, { mode := 2 })] } }

theorem witness_SetupAccessesAct :
    (let a (n : Nat) : BitVec 64 := BitVec.ofNat 64 (0x200000 + 0x1000 * n + 0xC10)
     apertures.link.up = true ∧ (a 63).toNat < 0x4000000 ∧ (0x3FFFFFC : Nat) % 8 ≠ 0 ∧ validCore 5 = true ∧
     (apertures.wing (wingOf 5)).phase ≠ 10 ∧ State.reset.link.up = false ∧
     answers (.setupWr (a 3) 8 7) apertures (fun t => (t.core 5).groups == 7 && (t.core 6).groups == 0 &&
       t.link.toComp == [.setupResp 0 0]) = true ∧
     answers (.setupWr (a 63) 8 7) apertures (fun t => (t.core 5).groups == 7 && (t.core 500).groups == 7) = true ∧
     answers (.setupRd (a 63) 8) apertures (fun t => t.link.toComp == [.setupResp 2 0] && t.link.setupFault == 0x700B) = true ∧
     answers (.setupWr (a 3) 4 7) apertures (fun t => (t.core 5).groups == 0 && t.link.toComp == [.setupResp 3 0]) = true ∧
     answers (.setupWr (a 3) 8 7) (apertures.onWing 0 (fun x => { x with phase := 10 })) (fun t => (t.core 5).groups == 0 &&
       t.link.toComp == [.setupResp 1 0] && t.link.setupTarget == 5) = true) := by decide +kernel

/-- Window 0 of 1 GiB at the bottom of the bonded space, window 3 beyond its top. -/
def windows : State :=
  { live with link := { live.link with wins := [(0, { sizeLog2 := 30 }), (2, { sizeLog2 := 30, readOnly := true }),
                                                (3, { sizeLog2 := 39, base := BitVec.ofNat 18 768 })] } }

theorem witness_WindowsReachBondedMemory :
    windows.link.up = true ∧ (Map.get {} windows.link.wins 0).sizeLog2.toNat = 30 ∧ 2 ^ 30 - 64 < 2 ^ 30 ∧ (2 ^ 30 - 64) % 64 = 0 ∧
    2 ^ 30 - 64 + 64 ≤ bondedTop false ∧ bondedTop false < 768 * 2 ^ 30 + 64 ∧ (windows.block ((2 ^ 30 - 64) / 512)).good = true ∧
    (windows.wing 0).phase ≠ 10 ∧ Memory.wf windows.bonded = true ∧
    answers (.setupWr (BitVec.ofNat 64 (4 * 2 ^ 40)) 64 1) windows (fun t => t.link.toComp == [.setupResp 4 0] && t.bonded.isEmpty) = true ∧
    answers (.setupWr (BitVec.ofNat 64 (3 * 2 ^ 40)) 64 1) windows (fun t => t.link.toComp == [.setupResp 4 0] && t.bonded.isEmpty) = true :=
  ⟨by decide, by decide, by decide, by decide, by decide, by decide, good_of_unwritten _ _ rfl rfl, by decide, by decide,
    by decide +kernel, by decide +kernel⟩

theorem witness_CoreRegisterWritesAct :
    (let mem : CoreMem := { on := 3, retained := 2, lineSet := BitVec.ofNat 1536 (2 ^ 192 + 1) }
     let router : Router := { links := [(3, { resends := 9, lastAttempts := 2 }), (2, { resends := 8 })] }
     let c : Core := { mem := mem, arith := { status := 5 }, flow := { staleCount := 4 }, router := router }
     let s := at0 c
     let r := running.setCore 0 c
     validCore 0 = true ∧ s.stepRuns 0 = false ∧ r.stepRuns 0 = true ∧
     answers (.coreLimitWrite 0 0x108421) s (fun t => (t.core 0).limit.sections == 0x21 && (t.core 0).limit.tiles == 4 &&
       (t.core 0).limit.slots == 8 && (t.core 0).limit.depth == 16 && (t.core 0).limit.pend.isNone) = true ∧
     answers (.coreLimitWrite 0 0) r (fun t => (t.core 0).limit.sections == 0xFF && (t.core 0).limit.pend == some 0) = true ∧
     answers (.coreMemRelease 0 1) s (fun t => (t.core 0).mem.on == 2 && (t.core 0).mem.lineSet == BitVec.ofNat 1536 (2 ^ 192)) = true ∧
     answers (.coreMemRelease 0 1) r (fun t => (t.core 0).mem.on == 3 && (t.core 0).mem.releasePend == 1) = true ∧
     answers (.coreArithStatusClear 0 1) s (fun t => (t.core 0).arith.status == 4) = true ∧
     answers (.staleClear 0) s (fun t => (t.core 0).flow.staleCount == 0) = true ∧
     answers (.rtLinkClear 0 3) s (fun t => ((t.core 0).mlink 3).resends == 0 && ((t.core 0).mlink 2).resends == 8) = true) := by
  decide +kernel

theorem witness_ModuleRegisterWritesAct :
    (let link : Link := { live.link with resends := 5 }
     let power : Power := { live.power with lastFault := 0x9001 }
     let s : State := { (live.attend 0).attend 1 with ports := [(79, { framesTx := 3, groups := 7 })], link := link, power := power }
     let ring : State := { live with sq := [(127, { size := 64, halted := true })], cq := [(127, { size := 65536 })] }
     s.powered = true ∧ State.reset.powered = false ∧ sizeOk (ring.sring 127).size = true ∧ sizeOk (ring.cring 127).size = true ∧
     (ring.sring 127).enable = false ∧ (ring.cring 127).enable = false ∧ ring.link.up = true ∧
     answers (.attnClear 1) s (fun t => !t.west.attn && !t.east.attn && !t.pins.attn) = true ∧
     answers (.portClear 79) s (fun t => (t.port 79).framesTx == 0 && (t.port 79).groups == 7) = true ∧
     answers .linkErrClear s (fun t => t.link.resends == 0) = true ∧ answers .pwrErrClear s (fun t => t.power.lastFault == 0) = true ∧
     answers (.pwrCtrlWrite .companion 0x190064) s (fun t => t.power.cap == 100 && t.power.slope == 25) = true ∧
     answers (.pwrCtrlWrite .sideband 0x190064) State.reset (fun t => t.power.cap == 420) = true ∧
     answers (.sqEnable 127 true) ring (fun t => (t.sring 127).enable && !(t.sring 127).halted &&
       t.link.toComp == [.rdShared 0 (.doorbell false 127)]) = true ∧
     answers (.cqEnable 127 true) ring (fun t => (t.cring 127).enable) = true ∧
     answers (.sqEnable 127 false) ring (fun t => (t.sring 127).halted) = true ∧
     answers (.cqEnable 127 false) ring (fun t => !(t.cring 127).enable) = true) := by decide +kernel

/-! ### Rings and descriptors -/

/-- A descriptor of a family with a SEQ, the rest of its words given (Table 12.4). -/
def desc (fam seq rest : Nat) : Desc := BitVec.ofNat 512 (1 + fam * 16 + seq * 2 ^ 16 + rest)
/-- Ring 0 of 64 entries with one descriptor to fetch, whose line is held; completion ring 0 has room. -/
def ringed (d : Desc) : State :=
  { live with sq := [(0, { enable := true, size := 64, tail := 1, expect := 1 })], cq := [(0, { enable := true, size := 64 })],
              link := { live.link with cache := [⟨0, d, false⟩] } }

theorem witness_DescriptorsAreFetchedAndPosted :
    (let s := ringed (desc 7 1 0)
     let bad := ringed (desc 7 2 0)
     let overran : State := { s with sq := [(0, { enable := true, size := 64, tail := 65, expect := 1 })] }
     let rec0 : OutRec := { ring := 0, seq := 1, family := 7, disp := 0 }
     let post : State := { s with cq := [(0, { enable := true, size := 64, waiting := [rec0], reserved := 1 })] }
     let again : State := { s with cq := [(0, { enable := true, size := 64, held := some (rec0, someBytes 32), retry := true })] }
     s.fetches (s.lead 0) = true ∧ s.nextRing 0 = some (0, 0) ∧ overran.nextRing 0 = some (0, 0) ∧ overran.haltCause 0 = some 0x7007 ∧
     s.haltCause 0 = none ∧ s.unposted 0 < 256 ∧ s.link.line ((s.sring 0).entry 0) = some (desc 7 1 0) ∧
     fetchCheck false 0 1 (desc 7 1 0) = none ∧ (fetchCheck false 0 1 (desc 7 2 0)).isSome = true ∧
     post.mayPost (post.cring 0) rec0 = true ∧ (again.cring 0).held = some (rec0, someBytes 32) ∧
     answers (.descriptorFetch 0) s (fun t => t.flights.length == 1 && (t.sring 0).head == 1 && (t.sring 0).expect == 2 &&
       (t.cring 0).reserved == 1) = true ∧
     answers (.descriptorFetch 1) bad (fun t => t.flights.isEmpty && (t.cring 0).waiting.any (fun r => r.disp == 1 && r.seq == 2)) = true ∧
     answers (.descriptorFetch 0) overran (fun t => (t.sring 0).halted && (t.cring 0).waiting.any (fun r => r.fault == 0x7007)) = true ∧
     answers (.outcomePost 0 5) post (fun t => (t.cring 0).held.isSome && (t.cring 0).waiting.isEmpty && t.link.toComp.length == 1) = true ∧
     answers (.postingRetry 0) again (fun t => !(t.cring 0).retry && t.link.toComp == [.wrNc 0 (someBytes 32) (.record 0)]) = true) := by
  decide +kernel

/-- A descriptor of ring 0 with SEQ 1, queued alone. -/
def queuedAs (fam rest : Nat) : State :=
  { ringed 0 with flights := [{ ring := 0, seq := 1, words := desc fam 1 rest, wing := 0, order := 0 }] }
/-- Whether the descriptor of queuedAs may start (Claim.CanStart). -/
def canStart (s : State) (fam : Nat) : Bool :=
  match s.flight 0 1 with
  | some f => famOf f.words == fam && s.mayStart f && !(s.wing (s.lead f.wing)).halted
  | none => false
/-- Whether a command decides ring 0's descriptor of SEQ 1 with a disposition, a status and a code. -/
def decides (i : Instr) (s : State) (disp status : Nat) (code : Code) : Bool :=
  answers i s (fun t => (t.flight 0 1).isNone && (t.cring 0).waiting.getLast?.any (fun r => r.ring == 0 && r.seq == 1 && r.disp == disp &&
    r.status == status && r.fault == code))

theorem witness_ControlDescriptorsAct :
    (let pace := queuedAs 0xA (0x7654321 * 2 ^ 128 + 5 * 2 ^ 192)
     let abort (r q : Nat) : State := queuedAs 8 (r * 2 ^ 128 + q * 2 ^ 160)
     let both : State := { abort 0 9 with flights := (abort 0 9).flights ++ [{ ring := 0, seq := 9, words := desc 2 9 0, wing := 0, order := 1 }] }
     let ahead : State := { abort 5 9 with sq := [(5, { enable := true, size := 64, tail := 3, expect := 9 })] }
     canStart (queuedAs 7 0) 7 = true ∧ canStart pace 0xA = true ∧ canStart (abort 0 9) 8 = true ∧ canStart both 8 = true ∧
     (both.flight 0 9).isSome = true ∧ (abort 0 9).flight 0 9 = none ∧ (ahead.sring 5).unfetched 9 = some 0 ∧ ahead.markCount < 32 ∧
     ((abort 0 9).sring 0).unfetched 9 = none ∧ (abort 0 9).recordPending 0 9 (fun _ => true) = false ∧
     answers (.fence 0 1) (queuedAs 7 0) (fun t => (t.flight 0 1).any (fun f => f.stage == .running)) = true ∧
     decides (.paceSet 0 1) pace 0 0 0 = true ∧
     answers (.paceSet 0 1) pace (fun t => opEntry t.link.opMap0 0 == 1 && opEntry t.link.opMap0 1 == 3 && opEntry t.link.opMap0 2 == 3) = true ∧
     answers (.abort 0 1) both (fun t => (t.flight 0 9).isNone && (t.flight 0 1).isNone && (t.cring 0).waiting.length == 2) = true ∧
     decides (.abort 0 1) (abort 0 9) 0 3 0 = true ∧
     answers (.abort 0 1) ahead (fun t => (t.sring 5).marks == [(0, 0, 1)] && (t.flight 0 1).isNone) = true) := by decide +kernel

theorem witness_GatewayCopiesMoveBytes :
    (let inside := queuedAs 6 (3 * 2 ^ 128 + 1024 * 2 ^ 192 + 512 * 2 ^ 256 + 512 * 2 ^ 320)
     let comp := queuedAs 6 (2 * 2 ^ 128 + 0x4000 * 2 ^ 192 + 512 * 2 ^ 256 + 512 * 2 ^ 320)
     let started : State := comp.onFlight 0 1 (fun f => { f with stage := .running })
     let table := queuedAs 0xD (1 * 2 ^ 128 + 0 * 2 ^ 192 + 1 * 2 ^ 208)
     let overran := table
     let small : State := { table with curveLimit := 4 }
     let taken : State := small.onFlight 0 1 (fun f => { f with stage := .running })
     canStart inside 6 = true ∧ inside.copyBeyond (desc 6 1 (3 * 2 ^ 128 + 1024 * 2 ^ 192 + 512 * 2 ^ 256 + 512 * 2 ^ 320)) = false ∧
     Memory.wf inside.bonded = true ∧ canStart comp 6 = true ∧ canStart table 0xD = true ∧ canStart small 0xD = true ∧
     overran.tableOver (desc 0xD 1 (1 * 2 ^ 128 + 1 * 2 ^ 208)) = true ∧ small.tableOver (desc 0xD 1 (1 * 2 ^ 128 + 1 * 2 ^ 208)) = false ∧
     small.tableEnd (desc 0xD 1 (1 * 2 ^ 128 + 1 * 2 ^ 208)) ≤ bondedTop false ∧
     (started.flight 0 1).any (fun f => f.stage == .running && !f.ready) = true ∧
     (taken.flight 0 1).any (fun f => f.stage == .running && !f.ready) = true ∧ (someBytes 512).length = 512 ∧
     answers (.copy 0 1 []) comp (fun t => t.link.toComp == [.rdNc 0x4000 8 (.flight 0 1)]) = true ∧
     decides (.tableWrite 0 1 []) overran 1 0 0x7001 = true ∧
     answers (.tableWrite 0 1 []) small (fun t => t.link.toComp == [.rdNc 0 8 (.flight 0 1)]) = true) ∧
    ((queuedAs 6 (3 * 2 ^ 128 + 1024 * 2 ^ 192 + 512 * 2 ^ 256 + 512 * 2 ^ 320)).block 2).good = true :=
  ⟨by decide +kernel, good_of_unwritten _ _ rfl rfl⟩

/-- A program with handle 1 loaded on the west wing. -/
def programmed (fam rest : Nat) : State :=
  (queuedAs fam rest).onWing 0 (fun x => { x with progs := [(1, { image := image2, seed := 77, wing := 0 })] })

/-- An image of sched2 that passes every check, and the rest of the words of a PROGRAM_LOAD of it under handle 1. -/
def image3 : Image := { image2 with header := BitVec.ofNat 512 (1 + 64 * 2 ^ 32) }
/-- Handle 1, LENGTH 64, seed 77. -/
def loadWords : Nat := 1 * 2 ^ 128 + 64 * 2 ^ 256 + 77 * 2 ^ 288

theorem witness_ProgramsLoadAndStart :
    (let load := queuedAs 1 0
     let good := queuedAs 1 loadWords
     let step := programmed 2 (1 * 2 ^ 128)
     canStart load 1 = true ∧ load.wingEmpty 0 = true ∧ canStart step 2 = true ∧ canStart (programmed 3 (1 * 2 ^ 128)) 3 = true ∧
     canStart (programmed 4 (1 * 2 ^ 128)) 4 = true ∧
     (load.loadRefusal { ring := 0, seq := 1, words := desc 1 1 0, wing := 0, order := 0 } image2).isSome = true ∧
     good.loadRefusal { ring := 0, seq := 1, words := desc 1 1 loadWords, wing := 0, order := 0 } image3 = none ∧
     good.overflow 0 image3 = none ∧ good.trespass 0 1 image3 = none ∧ good.imageBad 0 (desc 1 1 loadWords) = none ∧
     answers (.programLoad 0 1 image3) good (fun t => t.west.loading == some (1, { image := image3, seed := 77, wing := 0 }) &&
       t.west.epoch == 1 && (t.flight 0 1).any (fun f => f.ready)) = true ∧
     step.prog 0 (dHandle (desc 2 1 (1 * 2 ^ 128))) = some { image := image2, seed := 77, wing := 0 } ∧
     step.schedOf 0 (dHandle (desc 2 1 (1 * 2 ^ 128))) (dSel (desc 2 1 (1 * 2 ^ 128))) = some sched2 ∧ hasPatches image2 = false ∧
     (queuedAs 2 (1 * 2 ^ 128)).prog 0 1 = none ∧
     step.startRefusal { ring := 0, seq := 1, words := desc 2 1 (1 * 2 ^ 128), wing := 0, order := 0 } = none ∧
     answers (.programLoad 0 1 image2) load (fun t => (t.flight 0 1).isNone && (t.cring 0).waiting.any (fun r => r.disp == 1)) = true ∧
     decides (.stepRun 0 1) (queuedAs 2 (1 * 2 ^ 128)) 1 0 0x7001 = true ∧ decides (.update 0 1 0) (queuedAs 3 (1 * 2 ^ 128)) 1 0 0x7001 = true ∧
     decides (.rootRefresh 0 1) (queuedAs 4 (1 * 2 ^ 128)) 1 0 0x7001 = true ∧
     answers (.stepRun 0 1) step (fun t => t.west.run.isSome && t.west.power.startWaits && t.west.pass.isNone) = true) := by decide +kernel

theorem witness_OtherDescriptorsAct :
    (let dump := queuedAs 0xB (512 * 2 ^ 192)
     let dumpC := queuedAs 0xB (1 * 2 ^ 128 + 512 * 2 ^ 192)
     let reform (m : Nat) : State := queuedAs 0xC (m * 2 ^ 128)
     let window := queuedAs 9 (1 * 2 ^ 128 + 5 * 2 ^ 208)
     let opened : State := (window.onFlight 0 1 (fun f => { f with stage := .running })).onWing 0 (fun x => { x with
       window := some ⟨0, 1, true, false, false, false, 0, 5, false, false, false, false⟩ })
     let copied : State := (queuedAs 6 0).onFlight 0 1 (fun f => { f with stage := .running, ready := true })
     let ran : State := stepping { run7 with began := true }
     let done : State := { ran with flights := ran.flights.map (fun f => { f with ready := true }), cq := [(0, { enable := true, size := 64 })] }
     canStart dump 0xB = true ∧ canStart dumpC 0xB = true ∧ 512 + dumpSize false ≤ bondedTop false ∧ Memory.wf dump.bonded = true ∧
     canStart (reform 1) 0xC = true ∧ canStart (reform 0) 0xC = true ∧ { reform 1 with seamKnown := true }.wholeAvail = true ∧
     { reform 1 with seamKnown := true, east := { liveWing with phase := 10 } }.wholeAvail = false ∧ canStart window 9 = true ∧
     opened.west.window.isSome = true ∧ (opened.flight 0 1).any (fun f => f.stage == .running && !f.ready) = true ∧
     (copied.flight 0 1).any (fun f => f.ready) = true ∧ done.writesAcked 0 = true ∧ done.stepRuns 0 = true ∧
     answers (.dumpSync 0 1) dumpC (fun t => t.link.toComp.length == 1 && (t.flight 0 1).any (fun f => f.status == 1 && f.ready)) = true ∧
     answers (.reform 0 1) (reform 0) (fun t => t.west.reform.any (fun r => r.phase == 0 && !r.toSplit)) = true ∧
     answers (.testWindow 0 1 []) window (fun t => t.west.level && t.west.window.any (fun v => v.due && v.budgetMs == 5)) = true ∧
     answers (.testWindow 0 1 []) opened (fun t => (t.flight 0 1).any (fun f => f.ready)) = true ∧
     decides (.commitPoint 0 1) copied 0 0 0 = true ∧
     answers (.commitPoint 0 7) done (fun t => t.west.run.isNone && t.west.lastCommitted && t.flights.isEmpty) = true) := by decide +kernel

/-! ### Ports, frames, flows and collectives -/

/-- live with port 0 as given; unbound, it belongs to the west wing. -/
def ported (x : Port) : State := { live with ports := [(0, x)] }
/-- A bound port that is up, with credits of every class. -/
def upPort : Port := { stat := .up, bound := true, laserOk := true, phase := 5, credits := [(0, 9), (1, 9), (2, 9), (3, 9)], linkVersion := 1 }

theorem witness_PortsTrainAndFail :
    (let at4 : State := ported { stat := .training, laserOk := true, phase := 4, linkVersion := 1, partnerDev := 77 }
     let at2 : State := ported { stat := .training, laserOk := true, phase := 2 }
     let info : TrainInfo := ⟨77, 5, false, 1, 100⟩
     (at4.port 0).stat = .training ∧ (at4.port 0).phase = 4 ∧ info.version ≠ 0 ∧ (ported { laserOk := true }).portsStarted 0 = true ∧
     ((ported upPort).port 0).stat = .up ∧
     answers (.train 0 info) at4 (fun t => (t.port 0).partnerDev == 77 && (t.port 0).partnerPort == 5 && (t.port 0).linkVersion == 1) = true ∧
     answers (.portTrainPhase 0 { ok := false }) at2 (fun t => (t.port 0).stat == .down) = true ∧
     answers (.portTrainPhase 0 { ok := true, roundTripNs := 25001 }) at2 (fun t => (t.port 0).stat == .down) = true ∧
     answers (.portTrainPhase 0 { ok := true, roundTripNs := 25000 }) at2 (fun t => (t.port 0).phase == 3) = true ∧
     answers (.portTrainPhase 0 { ok := true }) at4 (fun t => (t.port 0).stat == .idleSpare && (t.port 0).credit 3 == 256) = true ∧
     answers (.portTrainRetry 0) (ported { laserOk := true }) (fun t => (t.port 0).stat == .training && (t.port 0).phase == 1) = true ∧
     answers (.portLost 0) (ported upPort) (fun t => (t.port 0).stat == .failed && (t.port 0).errCode == 0x402) = true ∧
     answers (.degradedWindow 0) (ported { upPort with winFrames := 999999, winResends := 1 }) (fun t => (t.port 0).degraded) = true ∧
     answers (.degradedWindow 0) (ported { upPort with degraded := true, winFrames := 1000001, winResends := 1 }) (fun t => !(t.port 0).degraded) = true ∧
     answers (.laserLost 0) (ported upPort) (fun t => (t.port 0).stat == .failed && (t.port 0).errCode == 0x403) = true ∧
     answers (.laserInputRestored 0) (ported {}) (fun t => (t.port 0).stat == .training && (t.port 7).laserOk && !(t.port 8).laserOk) = true) := by
  decide +kernel

/-- A frame of this device's group: from device 2 to device 1, with HOPS 8. -/
def frame (cls kind flow seq addr aux0 aux1 : Nat) (bs : List Byte) : Frame := mkFrame cls kind 1 2 8 flow seq addr aux0 aux1 bs
/-- The west device: identifier 1, a route to device 2 by logical port 0, and frames that wait. -/
def device (fs : List Frame) : State :=
  (ported upPort).onWing 0 (fun x => { x with fab := { id := 1, idSet := true, route := [(2, 1)], inbox := fs.map (fun f => (none, f)) } })
/-- A data slot with a frame whose payload is zeros, a link sequence number and no other link field; its CRC is given. -/
def slotOf (f : Frame) (lseq crc : Nat) : Slot := BitVec.ofNat 4480 (f.header.toNat + lseq * 2 ^ 4352 + crc * 2 ^ 4448)
/-- The slot of a GRANT for device 1. -/
def slotA : Slot := slotOf (frame 3 4 7 0 0 0 0 []) 0 3954583635

/-- A CRC continued over zeros of a frame's payload, in four pieces. -/
theorem crc_zeros (c c1 c2 c3 c4 : Nat) (h1 : crc32cFrom c (List.replicate 128 0) = c1) (h2 : crc32cFrom c1 (List.replicate 128 0) = c2)
    (h3 : crc32cFrom c2 (List.replicate 128 0) = c3) (h4 : crc32cFrom c3 (List.replicate 128 0) = c4) :
    crc32cFrom c (List.replicate 512 (0 : Byte)) = c4 := by
  have z : List.replicate 512 (0 : Byte) = List.replicate 128 0 ++ (List.replicate 128 0 ++ (List.replicate 128 0 ++ List.replicate 128 0)) := by
    simp only [List.replicate_append_replicate]
  rw [z, crc32cFrom_append, crc32cFrom_append, crc32cFrom_append, h1, h2, h3, h4]

/-- A slot whose payload is zeros passes its check where its CRC is that of its 32, 512 and 12 bytes. -/
theorem slot_ok (x : Slot) (bs : List Byte) (c c4 : Nat) (h : toBytes 556 x.toNat = toBytes 32 x.toNat ++ (List.replicate 512 0 ++ bs))
    (h0 : crc32cFrom 0xFFFFFFFF (toBytes 32 x.toNat) = c) (h4 : crc32cFrom c (List.replicate 512 (0 : Byte)) = c4)
    (e : BitVec.ofNat 32 (crc32cFrom c4 bs ^^^ 0xFFFFFFFF) = BitVec.ofNat 32 (x.toNat / 2 ^ 4448)) : slotCrcOk x = true := by
  unfold slotCrcOk crc32c
  rw [h, crc32cFrom_append, crc32cFrom_append, h0, h4, e]
  exact beq_self_eq_true _

theorem slot_zeros : crc32cFrom 3285360161 (List.replicate 512 (0 : Byte)) = 2751653895 :=
  crc_zeros _ 3126497718 1336947766 2087424590 _ (by decide +kernel) (by decide +kernel) (by decide +kernel) (by decide +kernel)

theorem test_slot_crc : slotCrcOk slotA = true :=
  slot_ok _ (toBytes 12 0) 3285360161 2751653895 (by decide +kernel) (by decide +kernel) slot_zeros (by decide +kernel)

theorem witness_PortsExchangeFrames : slotCrcOk slotA = true ∧
    (let s := device []
     let f := frame 3 4 7 0 0 0 0 []
     let link : BitVec 96 := BitVec.ofNat 96 (2 ^ 17 + 5 * 2 ^ 20 + 3 * 2 ^ 36)
     let sent := ported { upPort with replay := [(5, f, 0), (6, f, 6)], next := 7 }
     (s.port 0).live = true ∧ bits (slotLink slotA) 19 16 = 0 ∧ bits (slotLink slotA) 67 36 = 0 ∧
     BitVec.ofNat 16 (bits (slotLink slotA) 15 0) = (s.port 0).expect ∧ frMalformed (slotFrame slotA) = false ∧
     frKind (slotFrame slotA) = 4 ∧ s.isDevice (s.portLead 0) (frDest (slotFrame slotA)) = true ∧
     bits link 18 17 = 1 ∧ BitVec.ofNat 16 (bits link 35 20) = 5 ∧ (sent.port 0).waiting = [] ∧
     (∀ c, c < 4 → (sent.port 0).credit c + bits link (43 + 8 * c) (36 + 8 * c) ≤ 256) ∧ (∀ e ∈ (sent.port 0).replay, e.2.2 < 7) ∧
     answers (.linkStatusWord 0 link (crc32c (toBytes 12 link.toNat))) sent (fun t => (t.port 0).replay == [(6, f, 6)] &&
       (t.port 0).credit 0 == 12 && (t.port 0).credit 1 == 9) = true ∧
     answers (.frameResendTimeout 0) sent (fun t => (t.port 0).replay == [(5, f, 1), (6, f, 7)] && (t.port 0).resends == 2 &&
       (t.port 0).stat == .up) = true) :=
  ⟨test_slot_crc, by decide +kernel⟩

/-- The slots of a frame of a gap, of one taken before, of one with a reserved bit of its link field set, of a TRAIN frame, and of a
frame for device 2 with hops left and with none. -/
def otherSlots : List Slot :=
  let f := frame 3 4 7 0 0 0 0 []
  [slotOf f 5 520137891, slotOf f 65535 1091526799, slotOf f (2 ^ 19) 2909586269, slotOf (frame 3 5 7 0 0 0 0 []) 0 3954583635,
   slotOf (mkFrame 3 4 2 3 8 7 0 0 0 0 []) 0 3954583635, slotOf (mkFrame 3 4 2 3 1 7 0 0 0 0 []) 0 2395208990]

theorem other_slots_pass : ∀ x ∈ otherSlots, slotCrcOk x = true := by
  have z1 : crc32cFrom 2578218917 (List.replicate 512 (0 : Byte)) = 973148522 :=
    crc_zeros _ 1918537602 412871502 4210896213 _ (by decide +kernel) (by decide +kernel) (by decide +kernel) (by decide +kernel)
  simp only [otherSlots, List.forall_mem_cons]
  refine ⟨slot_ok _ (toBytes 12 5) _ _ ?_ ?_ slot_zeros ?_, slot_ok _ (toBytes 12 65535) _ _ ?_ ?_ slot_zeros ?_,
    slot_ok _ (toBytes 12 (2 ^ 19)) _ _ ?_ ?_ slot_zeros ?_, slot_ok _ (toBytes 12 0) _ _ ?_ ?_ slot_zeros ?_,
    slot_ok _ (toBytes 12 0) _ _ ?_ ?_ slot_zeros ?_, slot_ok _ (toBytes 12 0) _ _ ?_ ?_ z1 ?_, fun _ h => nomatch h⟩ <;> decide +kernel

theorem witness_EverySlotOfAPort :
    (let s := device []
     let two : State := { s with ports := [(0, upPort), (1, { upPort with logical := 1 })] }.onWing 0 (fun x => { x with
       fab := { id := 1, idSet := true, route := [(2, 2)] } })
     let slot (n : Nat) : Slot := otherSlots.getD n 0
     let q (n : Nat) : BitVec 16 := BitVec.ofNat 16 (bits (slotLink (slot n)) 15 0)
     let sent := ported { upPort with replay := [(5, frame 3 4 7 0 0 0 0 [], 7)], next := 6 }
     let much : BitVec 96 := BitVec.ofNat 96 (255 * 2 ^ 36)
     (ported {}).port 0 = {} ∧ ({} : Port).live = false ∧ (s.port 0).waiting = [] ∧
     (q 0 ≠ 0 ∧ 2048 < (0 - q 0).toNat) ∧ (q 1 ≠ 0 ∧ (0 - q 1).toNat ≤ 2048) ∧ linkBad (slotLink (slot 2)) = true ∧
     s.isDevice 0 (frSrc (slotFrame (slot 2))) = false ∧ frKind (slotFrame (slot 3)) = 5 ∧ frMalformed (slotFrame (slot 3)) = false ∧
     (frMalformed (slotFrame (slot 4)) = false ∧ linkBad (slotLink (slot 4)) = false ∧ s.isDevice 0 (frDest (slotFrame (slot 4))) = false ∧
       1 < frHops (slotFrame (slot 4))) ∧ frHops (slotFrame (slot 5)) ≤ 1 ∧ two.split = false ∧ (two.fab 0).hasId = true ∧
     two.pickPort 0 (withHops (slotFrame (slot 4)) 7) = some 1 ∧ 256 < (s.port 0).credit 0 + bits much 43 36 ∧ bits much 17 17 = 0 ∧
     answers (.linkStatusWord 0 much (crc32c (toBytes 12 much.toNat))) s (fun t => (t.port 0).stat == .failed &&
       (t.port 0).errCode == 0x401) = true ∧
     answers (.frameResendTimeout 0) sent (fun t => (t.port 0).stat == .failed && (t.port 0).errCode == 0x401) = true) := by
  decide +kernel

theorem witness_PortsReachTheirPhases :
    (let at3 : State := ported { stat := .training, laserOk := true, phase := 3, bound := true }
     let at4 : State := ported { stat := .training, laserOk := true, phase := 4, bound := true, linkVersion := 1 }
     let spare : State := ported { stat := .idleSpare, laserOk := true, phase := 5 }
     answers (.portTrainPhase 0 { ok := true, failedFrames := 1 }) at3 (fun t => (t.port 0).phase == 4 && (t.port 0).stat == .training) = true ∧
     answers (.portTrainPhase 0 { ok := true, failedFrames := 2 }) at3 (fun t => (t.port 0).stat == .down) = true ∧
     answers (.portTrainPhase 0 { ok := true }) at4 (fun t => (t.port 0).stat == .up) = true ∧
     answers (.portLost 0) spare (fun t => (t.port 0).stat == .down) = true ∧
     answers (.train 0 ⟨77, 5, false, 0, 100⟩) at4 (fun t => (t.port 0).stat == .down && (t.port 0).errCode == 0x404) = true ∧
     answers (.train 0 ⟨77, 5, false, 1, 25001⟩) at4 (fun t => (t.port 0).stat == .down && (t.port 0).errCode == 0) = true) := by
  decide +kernel

/-- An EXT_IN or EXT_OUT descriptor of a stream with device 2 on flow 7, by an optical gateway. -/
def dOpt (kind : Nat) : Desc := BitVec.ofNat 512 (kind * 16 + (2 + 7 * 2 ^ 20) * 2 ^ 64 + 519 * 2 ^ 112)
/-- A core whose slot 1 runs a stream. -/
def streaming (kind : Nat) : Core := { mem := { on := 0xFF }, dma := { slots := [(1, { desc := dOpt kind })], busy := 2 } }
/-- BULK_DATA of a block of zeros for address 0, TAG 6, of domain 9. -/
def bulk : Frame := { header := BitVec.ofNat 256 (6740001129230060524445748589680621099732611857802509026329515589665 + 3821328220 * 2 ^ 224), payload := 0 }
/-- A mirror of device 2's passes at offset 0, whose copy of block 0 has a tag. -/
def mirror (f : Frame) (tag : BitVec 32) : State :=
  { device [f] with domainSet := true, domainId := 3, mirrorSrc := [(0, { owner := 2, valid := true })], side := [(0, (blockCrc (List.replicate 512 0) tag, tag))] }
/-- An UPDATE of the west wing with a mirror at device 2, under serial 7. -/
def mirrored (f : Frame) : State :=
  { device [f] with flights := [{ ring := 0, seq := 1, words := desc 3 1 (7 * 2 ^ 128 + 2 ^ 256 + 2 * 2 ^ 260), wing := 0, order := 0, stage := .running }] }.onWing 0 (fun x =>
    { x with run := some { ring := 0, seq := 1, handle := 1, sel := 0, began := true },
             pass := some { ring := 0, seq := 1, groupBase := 0, curveBase := 0, curveLimit := 0 } })
/-- A collective of device 1 with device 2: an all-gather or an exact all-reduce, direct, COLL_ID 7. -/
def coll (op : Nat) : Coll :=
  { ring := 0, seq := 1, collId := 7, op := op, bf16 := false, direct := true, follow := true, root := 0, src := 0, dst := 512 * 64,
    count := if op = 1 then 1024 else 128, group := [1, 2], rank := 0, listCrc := 5, paceAtStart := 100 }
/-- The west device with that collective open. -/
def colled (fs : List Frame) (c : Coll) : State :=
  { device fs with flights := [{ ring := 0, seq := 1, words := desc 5 1 0, wing := 0, order := 0, stage := .running }] }.onWing 0 (fun x =>
    { x with fab := { x.fab with colls := [c] } })

theorem test_bulk_e2e : frE2eOk bulk = true := by
  have h : frBytes bulk = List.replicate 512 0 := by decide +kernel
  have c0 : crc32cFrom 0xFFFFFFFF (toBytes 28 (bulk.header.toNat - bits (BitVec.ofNat 256 bulk.header.toNat) 60 56 * 2 ^ 56)) = 2947969163 := by decide +kernel
  have c4 : crc32cFrom 2947969163 (List.replicate 512 (0 : Byte)) = 473639075 :=
    crc_zeros _ 2191813608 2578840583 3633183324 _ (by decide +kernel) (by decide +kernel) (by decide +kernel) (by decide +kernel)
  unfold frE2eOk e2eCrc crc32c
  rw [h]
  simp only [crc32cFrom_append, c0, c4]
  decide +kernel

theorem mirror_good (f : Frame) (tag : BitVec 32) : ((mirror f tag).block 0).good = true :=
  State.block_good _ _ tag _ (Mem.read_nil _ _) rfl

theorem witness_FlowFramesAct : frE2eOk bulk = true ∧ ((mirror bulk 5).block 0).good = true ∧
    (let g := frame 3 4 7 0 0 0 0 (toBytes 8 (3 + 2 * 2 ^ 32))
     let d := frame 1 0 7 5 512 0 0 []
     let granted := (device [g]).setCore 0 (streaming 5)
     let streamed := (device [d]).setCore 0 { streaming 4 with dma := { slots := [(1, { desc := dOpt 4, baseSeq := 4 })], busy := 2 } }
     let r := frame 2 1 7 0 0 0 0 (toBytes 8 4)
     let n := frame 2 2 7 0 0 0 0 []
     let a := frame 3 2 7 0 0 0 0 []
     let x := (streamed.core 0).slot 1
     frE2eOk g = true ∧ frE2eOk d = true ∧ frE2eOk r = true ∧ frE2eOk n = true ∧ frE2eOk a = true ∧
     validCore 0 = true ∧ (granted.core 0).extSlot 1 5 g = true ∧ (streamed.core 0).extSlot 1 4 d = true ∧
     (streamed.core 0).flow.sink = false ∧ x.baseSeq ≤ frSeq d ∧ frSeq d - x.baseSeq < x.grantedBlocks ∧ x.extSeen.contains 1 = false ∧
     ((((streamed.core 0).setSlot 1 { x with extSeen := 1 :: x.extSeen }).takeRead 1 (streamed.core 0).now
       { x with extSeen := 1 :: x.extSeen, desc := dLocal x.desc }
       (iter (fun (k : Cursor) => k.next (dLocal x.desc)) (frAddr d / 512) {}) (toBytes 512 d.payload.toNat)).slot 1).usable ≤ x.usable) ∧
    (let m : MirrorIn := { owner := 2, serial := 7 }
     ((mirror bulk 5).fab 0).inbox.find? (fun e => e.2 == bulk) = some (none, bulk) ∧ frCls bulk = 2 ∧ frKind bulk = 0 ∧
     ((mirror bulk 5).fab 0).mirrorFor bulk = some m ∧ (mirror bulk 5).mirrorAddr bulk = some 0 ∧ frLen8 bulk = 64 ∧
     (((mirror bulk 5).block (globalAddr (mirror bulk 5).split 0 0 / 512)).tag.toNat + 1 = frAux0 bulk) ∧ Memory.wf (mirror bulk 5).bonded = true) ∧
    (let r := frame 2 1 7 0 0 0 0 (toBytes 8 4)
     let n := frame 2 2 7 0 0 0 0 []
     let a := frame 3 2 7 0 0 0 0 []
     let open_ : State := (device [a]).onFab 0 (fun x => { x with mirrors := [{ owner := 2, serial := 7 }] })
     (mirrored r).mirrored 0 r ≠ none ∧ (mirrored n).mirrored 0 n ≠ none ∧ (mirrored n).stepRuns 0 = true ∧
     ((mirrored n).runningArray ((mirrored n).lead 0)).isSome = true ∧ (device [a]).flowOp 0 7 2 = none ∧
     (open_.fab 0).mirrors.any (fun m => m.isOf a && !m.closed) = true ∧
     answers (.bulkReturn 0 r) (mirrored r) (fun t => t.west.pass.any (fun p => p.returned && p.counts.mirrorSkew == 4)) = true ∧
     answers (.bulkRefusal 0 n) (mirrored n) (fun t => t.mapFault == 0x6007 && t.mapDevice == 2 && t.flights.isEmpty) = true ∧
     answers (.abandon 0 a) open_ (fun t => (t.fab 0).mirrors.all (fun m => m.closed) && (t.fab 0).inbox.isEmpty) = true ∧
     answers (.fabricTimeout 0 7) (colled [] (coll 1)) (fun t => t.flights.isEmpty && (t.cring 0).waiting.any (fun r => r.fault == 0x1408)) = true) ∧
    (let g := frame 3 4 7 0 0 0 0 (toBytes 8 (3 + 2 * 2 ^ 32))
     answers (.grant 0 1 g) ((device [g]).setCore 0 (streaming 5)) (fun t => ((t.core 0).slot 1).baseSeq == 3 &&
       ((t.core 0).slot 1).granted == 2 && (t.fab 0).inbox.isEmpty) = true) := by
  refine ⟨test_bulk_e2e, mirror_good _ _, ?_, ?_, ?_, ?_⟩ <;> decide +kernel

/-- A COLLECTIVE of two devices, direct, with its list at block 2, and bonded memory that holds it. -/
def starting (id : Bool) : State :=
  let s := queuedAs 5 (1 * 2 ^ 128 + 2 ^ 133 + 7 * 2 ^ 160 + 512 * 64 * 2 ^ 256 + 1024 * 2 ^ 320 + 1024 * 2 ^ 352 + 2 * 2 ^ 400)
  { s with ports := [(0, upPort)], bonded := [(1024, 1), (1028, 2)],
           side := [(2, (blockCrc (Mem.read [(1024, 1), (1028, 2)] 1024 512) 0, 0))] }.onWing 0 (fun x => { x with
    fab := { id := 1, idSet := id, route := [(2, 1)] } })
/-- Its START to device 2. -/
def startSent : Frame := mkFrame 3 1 2 1 8 7 0 0 0 0 (coll 1).startBytes

/-- The block of its list passes its check, and holds it. -/
theorem starting_block (id : Bool) : ((starting id).block 2).good = true ∧
    ((starting id).block 2).data = Mem.read [(1024, 1), (1028, 2)] 1024 512 := by
  have hb : (starting id).bonded = [(1024, 1), (1028, 2)] := by cases id <;> rfl
  have hs : (starting id).side = [(2, (blockCrc (Mem.read [(1024, 1), (1028, 2)] 1024 512) 0, 0))] := by cases id <;> rfl
  refine ⟨State.block_good _ 2 0 _ (by rw [hb]) ?_, ?_⟩
  · rw [hs]
    simp only [Map.get, if_true]
  · simp only [State.block, hb]

/-- A read of bytes of one block. -/
theorem readBonded_one (s : State) (w a n b : Nat) (hb : globalAddr s.split w (512 * (a / 512 + 0)) / 512 = b)
    (hk : ceilDiv (a + n) 512 - a / 512 = 1) (hg : (s.block b).good = true) :
    s.readBonded w a n = .ok (sliceBytes (s.block b).data (a % 512) n) := by
  simp only [State.readBonded, hk, List.range_one, List.find?, List.flatMap_cons, List.flatMap_nil, hb, hg, Bool.not_true,
    List.append_nil]

theorem starting_reads (id : Bool) : (starting id).readBonded 0 1024 8 = .ok [1, 0, 0, 0, 2, 0, 0, 0] := by
  have d : sliceBytes (Mem.read [(1024, 1), (1028, 2)] 1024 512) (1024 % 512) 8 = [1, 0, 0, 0, 2, 0, 0, 0] := by decide +kernel
  rw [readBonded_one (starting id) 0 1024 8 2 (by cases id <;> decide +kernel) rfl (starting_block id).1, (starting_block id).2, d]

theorem witness_CollectiveFramesAct : (starting true).readBonded 0 1024 8 = .ok [1, 0, 0, 0, 2, 0, 0, 0] ∧
    (let s := starting false
     canStart s 5 = true ∧ canStart (starting true) 5 = true ∧ s.split = false ∧ (s.fab 0).hasId = false ∧ ((starting true).fab 0).hasId = true ∧
     groupBad 1 [1, 2] = false ∧ (coll 1).peers = [2] ∧
     decides (.collective 0 1) s 1 0 0x140C = true) ∧
    (let c3 : Coll := { coll 1 with group := [1, 2, 3] }
     let f3 := frame 3 1 7 0 0 0 0 c3.startBytes
     let a := frame 0 1 7 0 0 0 0 (toBytes 4 0xFFFE0005)
     let ca : Coll := { coll 2 with exchanging := true, group := [1, 2, 3], count := 192, needs := [(0, 2), (1, 4)] }
     let d := frame 0 0 7 0 512 0 0 []
     let cd : Coll := { coll 1 with moving := true, exchanging := true }
     let p := frame 3 3 7 0 0 0 0 (noticeBytes 150000 2 false)
     frE2eOk f3 = true ∧ frE2eOk a = true ∧ frE2eOk d = true ∧ frE2eOk p = true ∧
     (colled [f3] c3).openColl 0 f3 = some ({ ring := 0, seq := 1, words := desc 5 1 0, wing := 0, order := 0, stage := .running }, c3, 1) ∧
     c3.peers = [2, 3] ∧ toBytes 24 f3.payload.toNat = c3.startBytes ∧ (ca.take 1 (frSeq a) 0 (ca.anchorsFrom 1)).any (fun c => !c.anchored) = true ∧
     (cd.take 1 (frSeq d) (cd.anchorsFrom 1) (cd.dataFrom 1)).isSome = true ∧ cd.isUnit 512 = true ∧ cd.owner (cd.shardOf 512) ≠ cd.rank ∧
     cd.unitLen 512 = 512 ∧ (cd.dst + 512) % 512 = 0 ∧ Memory.wf (colled [d] cd).bonded = true ∧
     answers (.startFrame 0 f3) (colled [f3] c3) (fun t => (t.fab 0).colls == [{ c3 with started := [2] }] && (t.fab 0).inbox.isEmpty) = true ∧
     answers (.collAnchor 0 a) (colled [a] ca) (fun t => (t.fab 0).colls.map (fun c => (c.needs, c.seen)) == [([(0, 5), (1, 4), (2, 0)], [(1, [0])])]) = true ∧
     answers (.paceNotice 0 p) (colled [p] (coll 1)) (fun t => t.west.power.following && t.west.power.followOp == 0) = true ∧
     answers (.paceNoticeRepeat 0) (colled [] { coll 1 with noticed := true }) (fun t => (t.port 0).replay.length == 1) = true) := by
  refine ⟨starting_reads true, ?_, ?_⟩ <;> decide +kernel

/-! ### Power, cooling and flow -/

theorem witness_PowerIsMeasuredAndHeld :
    (let volts (v : Nat) (w : Nat → Nat) : State := { (live.onWing 0 (fun x => { x with paceValid := true, power := { x.power with vCommon := v } })) with
       power := { samples := List.replicate 99 (w 0), count := 99 } }
     let hot : State := { volts 700 (fun _ => 0) with clusters := [(3, { railUp := true, tmax := 95 }), (4, { railUp := true, tmax := 93, throttle := 9 }),
       (5, { railUp := true, tmax := 92, throttle := 9, coolTicks := 9 })] }
     (({} : Sideband).serve 4999).plinthReady = false ∧ (({} : Sideband).serve 5000).plinthReady = true ∧
     live.powered = true ∧ State.reset.powered = false ∧ 460 ≤ ((volts 700 (fun _ => 0)).wing 0).power.vCommon ∧
     (volts 700 (fun _ => 60000000)).peak 0 < (volts 700 (fun _ => 60000000)).wing1ms 0 ∧ 460 < hot.domainMv 3 ∧
     answers (.powerSample 200 300 [(7, 5, 6)]) (volts 700 (fun _ => 60000)) (fun t => t.power.vin == 200 && t.power.count == 100 &&
       t.power.samples.head? == some 60000 && t.power.ms == [60000] && t.power.energy == 60000 && (t.cluster 7).powerW == 5) = true ∧
     answers (.controlPeriod 0) (volts 462 (fun _ => 60000000)) (fun t => t.west.power.vCommon == 460 && t.west.power.limit == 2) = true ∧
     answers (.controlPeriod 0) (volts 705 (fun _ => 0)) (fun t => t.west.power.vCommon == 700 && t.west.power.limit == 5) = true ∧
     answers .throttleTick hot (fun t => (t.cluster 3).throttle == 5 && (t.cluster 4).throttle == 9 && (t.cluster 5).throttle == 4) = true ∧
     answers .currentLimit (volts 700 (fun _ => 0)) (fun t => t.west.power.vCommon == 680 && t.west.power.limit == 6 && t.east.power.vCommon == 0) = true ∧
     answers .currentLimit (volts 470 (fun _ => 0)) (fun t => t.west.power.vCommon == 460) = true ∧
     answers .throttleTick State.reset (fun t => t == State.reset) = true) := by decide +kernel

theorem witness_SensorsAndSuppliesProtect :
    (let cool := List.replicate 16 (60 : Int)
     let warm := 104 :: List.replicate 15 (90 : Int)
     let off := 105 :: List.replicate 15 (90 : Int)
     let trip := 115 :: List.replicate 15 (100 : Int)
     let s := running.onCluster 3 (fun x => { x with tmax := 1 })
     let gone := live.onCluster 3 (fun x => { x with regionOff := true, coolReads := 1000 })
     let waits : State := { live with pins := { live.pins with flowOk := false }, west := { liveWing with phase := 11 } }
     s.powered = true ∧ (s.cluster 3).invalid = 0 ∧ judge 0 cool = 0 ∧ judge 0 warm = 0 ∧ judge 0 off = 0 ∧ judge 0 trip = 0 ∧
     (gone.cluster 3).regionOff = true ∧ waits.pins.flowOk = false ∧ (waits.wing 0).phase = 11 ∧ s.stepRuns 0 = true ∧
     (s.runningArray (s.lead 0)).isSome = true ∧
     s.flights.all (fun f => s.flights.all (fun g => f.ring != g.ring || f.wing == g.wing)) = true ∧
     answers (.sensorRead [(3, warm)]) s (fun t => (t.cluster 3).tmax == 104 && !(t.cluster 3).regionOff && t.flights.length == 1) = true ∧
     answers (.sensorRead [(3, off)]) s (fun t => (t.cluster 3).regionOff && t.power.lastFault == 0xA001 && t.power.errCluster == 3 &&
       t.flights.isEmpty && !t.power.tripped) = true ∧
     answers (.sensorRead [(3, trip)]) s (fun t => t.power.tripped && t.pins.thermTrip && !t.railOn 0 && t.west.phase == 0) = true ∧
     answers (.regionRestore 3) gone (fun t => t.railOn 3 && (t.cluster 3).throttle == 100) = true ∧
     answers .flowLost s (fun t => !t.pins.flowOk && t.power.flowStop && !t.railOn 7 && t.flights.isEmpty && t.power.lastFault == 0xB001) = true ∧
     answers .flowRestore { live with power := { live.power with flowStop := true } } (fun t => !t.power.flowStop && t.railOn 7) = true ∧
     answers .flowWaitTimeout waits (fun t => t.west.phase == 10 && t.west.failCode == 0xB002 && t.power.lastFault == 0xB002) = true ∧
     answers .inputRange s (fun t => t.power.inputFault && t.power.lastFault == 0x9001 && t.flights.isEmpty && !t.railOn 0) = true ∧
     answers .inputOvercurrent s (fun t => t.power.lastFault == 0x9002 && t.flights.isEmpty) = true ∧
     answers .inputRestore { live with power := { live.power with inputFault := true } } (fun t => t.railOn 0) = true ∧
     answers (.railFault 3) s (fun t => !t.railOn 3 && t.railOn 4 && t.power.lastFault == 0x9003 && t.flights.isEmpty &&
       t.west.bTests.any (fun u => u.1 == .vdomain 3)) = true) := by decide +kernel

/-! ### Pins, bring-up, re-form and tests -/

theorem witness_PinsControlTheModule :
    (let dead : State := { State.reset with pins := { housekeeping := false } }
     let held : State := { State.reset with pins := { pwrOk := true, coldRst := true } }
     let waits : State := { live with west := { liveWing with phase := 11 } }
     let gone (t : State) : Bool := t.flights.isEmpty && t.bonded.isEmpty && t.west.phase == 0 && t.west.cores.isEmpty && !t.link.up
     dead.pins.housekeeping = false ∧ live.pins.pwrOk = true ∧ held.pins.coldRst = true ∧ held.pins.pwrOk = true ∧ held.pins.housekeeping = true ∧
     (waits.wing 0).phase = 11 ∧ (waits.wing 0).warmPhase = 0 ∧ (waits.wing 0).reform = none ∧
     answers .coldRstAssert (at0 { mem := { on := 0xFF } }) (fun t => gone t && t.pins.coldRst) = true ∧
     answers .coldRstDeassert held (fun t => t.west.phase == 1 && t.east.phase == 1 && !t.sb.plinthReady && !t.pins.coldRst) = true ∧
     answers .pwrOkDeassert running (fun t => gone t && !t.pins.pwrOk && t.pins.housekeeping) = true ∧
     answers .pwrOkAssert State.reset (fun t => t.pins.pwrOk && t.west.phase == 0) = true ∧
     answers .housekeepingSupplyFail running (fun t => gone t && !t.pins.housekeeping) = true ∧
     answers .housekeepingUp dead (fun t => t.pins.housekeeping) = true ∧
     answers .flowOkAssert waits (fun t => t.west.phase == 5 && t.east.phase == 7) = true) := by decide +kernel

/-- live with the west wing as given. -/
def west (f : WingState → WingState) : State := live.onWing 0 f

theorem witness_BringUpRunsItsPhases :
    (let cold (p : BitVec 4) : State := { west (fun x => { x with phase := p }) with capstoned := false }
     let warm (p : Nat) : State := west (fun x => { x with phase := 8, warmPhase := p })
     let due : State := west (fun x => { x with reformDue := some 0x3011 })
     let ref (p : Nat) : State := west (fun x => { x with phase := 9, reform := some { phase := p } })
     let dark : State := { cold 5 with pins := { live.pins with flowOk := false } }
     let cap : State := { west (fun x => { x with phase := 9, capDue := true, reform := none, epoch := 2 }) with split := true }
     ((cold 3).wing 0).phase = 3 ∧ ((cold 6).wing 0).phase = 6 ∧ ((cold 6).wing 0).capDue = false ∧ ((cold 2).wing 0).paceValid = false ∧ ((warm 2).wing ((warm 2).lead 0)).warmPhase = 2 ∧
     live.capstoned = true ∧ (due.wing (due.lead 0)).reformDue = some 0x3011 ∧ (due.wing 1).drain = none ∧
     ((ref 2).wing ((ref 2).lead 0)).reform = some { phase := 2 } ∧ cap.capReady (cap.lead 0) = true ∧
     answers (.coldPhase 0 2000 [] []) (cold 3) (fun t => t.west.phase == 4 && Map.get 0 t.west.times 3 == 0x3FF) = true ∧
     answers (.coldPhase 0 7 [] []) (cold 2) (fun t => t.west.phase == 2) = true ∧
     answers (.coldPhase 0 7 [] []) dark (fun t => t.west.phase == 11) = true ∧
     answers (.portPhaseEnd 0) (cold 4) (fun t => t.west.phase == 5) = true ∧
     answers .warmRstAssert running (fun t => t.west.phase == 8 && t.west.warmPhase == 1 && t.west.lastKind == 2 && t.flights.isEmpty &&
       t.east.phase == 8) = true ∧
     answers (.warmPhase 0 []) (warm 2) (fun t => t.west.warmPhase == 3 && t.west.level && (t.core 7).mem.on == 0) = true ∧
     answers (.warmPhase 0 []) (warm 5) (fun t => t.west.capDue) = true ∧
     answers (.reformStart 0) due (fun t => t.west.phase == 9 && t.west.reform.any (fun r => r.phase == 1 && r.cause == 0x3011)) = true ∧
     answers (.reformPhase 0 [] []) (ref 2) (fun t => t.west.reform.any (fun r => r.phase == 3)) = true ∧
     answers (.capstone 0 20000) cap (fun t => t.west.phase == 7 && t.west.elapsed == 0x3FFF && (t.core 5).flow.epoch == 2 && !t.west.level &&
       t.west.coupled) = true) := by decide +kernel

theorem witness_TestsFallDue :
    (let ends : State := { west (fun x => { x with boundaryDue := true, haltPending := true }) with health := { autoTest := false } }
     let day : State := { live with power := { count := 24 * 3600 * 100000 } }
     let win : State := west (fun x => { x with window := some ⟨0, 1, true, false, false, false, 0, 5, false, false, false, false⟩ })
     (ends.wing (ends.lead 0)).boundaryDue = true ∧ (ends.runningArray (ends.lead 0)).isNone = true ∧
     (day.core 0).health.lastTest + 3600 * 24 ≤ day.power.count / 100000 ∧ wireUnit (.lane 5) = true ∧ (unitKey (.lane 5)).2 < 2 ^ 24 ∧
     (win.wing (win.lead 0)).window.isSome = true ∧
     answers (.stepBoundary 0 []) ends (fun t => !t.west.boundaryDue && t.west.halted && t.west.boundaries == 1) = true ∧
     answers (.testDue 0) day (fun t => (t.core 0).health.testDue && !(t.core 1).health.testDue) = true ∧
     answers (.testDue 0) live (fun t => t == live) = true ∧
     answers (.wireGroupFailure (.lane 5) 3) live (fun t => t.health.spall.any (fun e => e.kind == 4 && e.loc == 5 && e.detail == 3)) = true ∧
     answers (.testBudgetExpiry 0) win (fun t => t.west.window.any (fun v => v.expired)) = true) := by decide +kernel

theorem witness_OverdueTestIsRecorded :
    (let s (n : Nat) : State := { at0 { health := { testDue := true } } with power := { count := n } }
     let late := s ((2 * 24 * 3600 + 1) * 100000)
     ((late.core 0).health.testDue = true) ∧ (late.wing (wingOf 0)).overdue = false ∧
     (late.core 0).health.lastTest + 2 * (3600 * 24) < late.power.count / 100000 ∧
     answers (.testOverdue 0) late (fun t => t.west.overdue && t.west.attn && t.pins.attn && t.health.lastEvent == 0x3023 &&
       t.health.written == 1) = true ∧
     answers (.testOverdue 0) (s (2 * 24 * 3600 * 100000)) (fun t => t == s (2 * 24 * 3600 * 100000)) = true) := by decide +kernel

/-! ### Security -/

/-- The header of a bundle of version 1 with SVN 5 and ID 9, without a body. -/
def bundleHeader : BitVec 1024 := BitVec.ofNat 1024 (1 + 1 * 16 + 5 * 2 ^ 16 + 9 * 2 ^ 32)
/-- The bundle; its key and its signature as given. -/
def bundle (key : BitVec 256) (sig : List Byte) : SignedImage :=
  { header := bundleHeader, signature := sig, publicKey := key, zeroPad := true, bodyDigest := 0, bodyBytes := 0 }

theorem test_bundle_fields : bits bundleHeader 3 0 = 1 ∧ bits bundleHeader 7 4 = 1 ∧ bits bundleHeader 11 8 = 0 ∧ bits bundleHeader 13 12 = 0 ∧
    bits bundleHeader 15 14 = 0 ∧ bits bundleHeader 23 16 = 5 ∧ bits bundleHeader 31 24 = 0 ∧ bits bundleHeader 63 48 = 0 ∧
    bits bundleHeader 95 64 = 0 ∧ bits bundleHeader 127 96 = 0 ∧ bits bundleHeader 383 128 = 0 ∧ bits bundleHeader 511 384 = 0 ∧
    bits bundleHeader 543 512 = 0 ∧ bits bundleHeader 1023 544 = 0 := by decide +kernel

/-- It passes the checks of R433 wherever its key is the vendor's and its signature verifies: both are opaque to the model. -/
theorem bundle_passes (key : BitVec 256) (sig : List Byte) (h : sig.length = 7856)
    (hk : Config.sha256 (toBytes 32 key.toNat) = Config.keyDigest 0)
    (hs : Config.verifySig key (toBytes 128 bundleHeader.toNat) sig = true) : checkImage .bundle 3 (bundle key sig) = none := by
  obtain ⟨h1, h2, h3, h4, h5, h6, h7, h8, h9, h10, h11, h12, h13, h14⟩ := test_bundle_fields
  simp only [checkImage, imgFieldsOk, imgSvn, bundle, ImageUse.kind, h, h1, h2, h3, h4, h5, h6, h7, h8, h9, h10, h11, h12, h13, h14, hk, hs]
  simp

theorem witness_SecurityOperationsRun :
    (let s : State := { live with sec := { State.reset.sec with floor := 3, slot0 := { state := 1, svn := 9 } } }
     let busy : State := { live with sec := { s.sec with running := some (.change 2 3 7) } }
     let lock : State := { west (fun x => { x with halted := true }) with sec := { s.sec with debugTrans := 1, running := some (.change 3 1 2) } }
     let bad : SignedImage := { bundle 0 [] with header := 2 }
     s.sec.running = none ∧ (s.sec.slot (!s.sec.active)).state ≠ 1 ∧ checkImage .bundle s.sec.floor bad = some 0xC004 ∧
     s.sec.floor < 7 ∧ 7 ≤ s.sec.firmware.svn.toNat ∧ lock.sec.unlocked = true ∧ busy.sec.running ≠ none ∧
     answers (.fwInstall bad) s (fun t => t.sec.fwState == 4 && t.sec.fwFault == 0xC004) = true ∧
     answers .armTrial s (fun t => t.sec.cmdState == 3 && t.sec.cmdFault == 0xC002 && t.sec.trialMark.isNone) = true ∧
     answers .armTrial { s with sec := { s.sec with slot1 := { state := 1 } } } (fun t => t.sec.cmdState == 2 && t.sec.trialMark == some true) = true ∧
     answers (.raiseFloor 7) s (fun t => t.sec.cmdState == 1 && t.sec.running == some (.change 2 3 7) && t.sec.floor == 3) = true ∧
     answers (.raiseFloor 3) s (fun t => t.sec.cmdState == 3 && t.sec.cmdFault == 0xC005) = true ∧
     answers (.raiseFloor 10) s (fun t => t.sec.cmdState == 3 && t.sec.cmdFault == 0xC005) = true ∧
     answers (.raiseFloor 7) busy (fun t => t.sec.cmdState == 5) = true ∧
     answers .debugLock { lock with sec := { lock.sec with running := none } } (fun t => t.sec.running == some (.change 3 1 2)) = true ∧
     answers (.attest true) s (fun t => t.sec.running == some (.attest true 0)) = true ∧
     answers .securityOperationDone busy (fun t => t.sec.floor == 7 && t.sec.running.isNone && t.sec.cmdState == 2 && t.sec.slot0.state == 1) = true ∧
     answers .securityOperationDone lock (fun t => t.sec.debugTrans == 2 && !t.west.halted) = true) := by decide +kernel

theorem witness_FusesNeverFall :
    (let s : State := { live with sec := { State.reset.sec with floor := 3, running := some (.change 2 3 7) }, pending := [.securityOperationDone] }
     (3 = s.sec.setting 2 ∧ 3 ≤ 7) ∧ (match step s with
       | .next t => t.sec.floor == 7 && t.sec.identGen == 0
       | _ => false) = true) := by decide +kernel

/-! ### Sideband, test access port and debug -/

theorem witness_SidebandRegistersAsTabled :
    (let s : State := { live with sb := { live.sb with offset := 0xF000, plinthReady := true, errOffset := 0x608, errKind := 1, refused := 3 } }
     s.pins.housekeeping = true ∧
     answers (.sbRead 8) s (fun t => t.sb.reply == toBytes 8 (1 + 2 ^ 8 + 2 ^ 10 + 2 ^ 11) && t.sb.offset == 0xF008) = true ∧
     answers (.sbRead 8) { s with sb := { s.sb with offset := 0xF008 } } (fun t => t.sb.reply == toBytes 8 (0x608 + 2 ^ 16 + 3 * 2 ^ 18)) = true ∧
     answers .sbErrClear s (fun t => t.sb.refused == 0 && t.sb.offset == 0xF000) = true) := by decide +kernel

theorem witness_SidebandTestPortAndDebugAct :
    (let due : State := { west (fun x => { x with attn := true }) with sb := { ibiDue := true } }
     let held : State := { live with pins := { live.pins with coldRst := true } }
     let un : State := { live with sec := { State.reset.sec with debugTrans := 1 } }
     let ran : State := { running with sec := un.sec }
     let halted : State := west (fun x => { x with halted := true })
     live.pins.housekeeping = true ∧ un.sec.unlocked = true ∧ (un.runningArray 0).isNone = true ∧ (ran.runningArray 0).isSome = true ∧
     due.sb.ibiDue = true ∧ due.sb.ibiRefused = false ∧ (halted.wing 0).halted = true ∧ held.pins.coldRst = true ∧
     answers (.entdaa 9) live (fun t => t.sb.dynAddr == some 9) = true ∧ answers (.setdasa 8) live (fun t => t.sb.dynAddr == some 8) = true ∧
     answers .rstdaa { live with sb := { dynAddr := some 3 } } (fun t => t.sb.dynAddr.isNone) = true ∧
     answers .getpid live (fun t => t.sb.ccc.length == 6) = true ∧
     answers (.sbSetOffset [0x10, 0x0C]) live (fun t => t.sb.offset == 0xC10) = true ∧
     answers (.sbSetOffset [0x11, 0x0C]) live (fun t => t.sb.offset == 0 && t.sb.errKind == 2 && t.sb.refused == 1) = true ∧
     answers (.sbWrite ([0x10, 0x0C, 7] ++ List.replicate 7 0)) live (fun t => t.sb.spallIndex == 7 && t.sb.offset == 0xC10) = true ∧
     answers (.sbWrite ([0x08, 0x06, 7] ++ List.replicate 7 0)) live (fun t => t.sb.errKind == 1 && t.sb.errOffset == 0x608) = true ∧
     answers (.attnIbi false) due (fun t => t.sb.ibi == 1 && t.sb.ibiRefused) = true ∧
     answers .extest held (fun t => t.tap.ir == .extest && t.tap.driven.isSome) = true ∧
     answers .extest live (fun t => t.tap.ir == .bypass && t.tap.driven.isNone) = true ∧
     answers .idcode live (fun t => t.tap.dr == 0x1176854B) = true ∧
     answers (.samplePreload [true]) live (fun t => t.tap.preload == [true] && t.tap.capture.length == 11) = true ∧
     answers (.debugHaltRequest 0) un (fun t => t.west.halted && !t.west.haltPending) = true ∧
     answers (.debugHaltRequest 0) ran (fun t => !t.west.halted && t.west.haltPending) = true ∧
     answers (.debugHaltEnter 0) { un with west := { un.west with haltPending := true } } (fun t => t.west.halted) = true ∧
     answers (.debugStep 0) halted (fun t => (t.core 0).pace.beat == 1 && (t.core 500).pace.beat == 1) = true ∧
     answers (.debugRelease 0) halted (fun t => !t.west.halted) = true) := by decide +kernel

/-! ### Further cases of the statements above -/

/-- A core whose slot 1 reads a block into the 512 bytes at 0, and of which nothing has come yet. -/
def waitsFor : Core := { dma := { slots := [(1, { desc := dRead })], busy := 2 } }

theorem witness_EngineCommandsWaitAndFault :
    (let s := at0 waitsFor
     let ext := at0 { dma := { slots := [(1, { desc := dExtIn })], busy := 2 } }
     let l := running.setCore 0 loaded
     let bad : TChk := .store ⟨.aBuf, 5⟩
     acts 0 (.loadA 0 cmd32 .ok) s = true ∧ (s.portLate 0 1 cmd32).map (fun l => (l.cause, l.ext)) = some (4, false) ∧
     (ext.portLate 0 1 cmd32).map (fun l => (l.cause, l.ext)) = some (4, true) ∧
     (at0 (holding 64 (someBytes 64))).portLate 0 1 cmd32 = none ∧
     (mmaFault loaded false 4 bad).isSome = true ∧ (mmaFault loaded false 4 .ok).isSome = false ∧
     answers (.loadA 0 cmd32 .ok) s (fun t => (t.core 0).pace.lateCount == 1 && (t.core 0).pace.shift == 1 &&
       (t.core 0).tensor == {} && (t.core 0).pace.wait == some { what := .engine (.loadA 0 cmd32 .ok), late := 1 }) = true ∧
     answers (.loadB 0 cmd32 .ok) ext (fun t => (t.core 0).pace.lateCount == 0 && (t.core 0).pace.extCount == 1) = true ∧
     answers (.mma 0 cmdI8 bad) l (fun t => t.flights.isEmpty && (t.core 0).tensor.tiles == loaded.tensor.tiles) = true) := by decide +kernel

/-- A WRITE of 64 bytes at bonded address 0. -/
def w64 : Desc := BitVec.ofNat 512 (0x10 + 63 * 2 ^ 112)
/-- It with its block issued, and rows of it read. -/
def outgoing (row : Nat) : DmaSlot :=
  let part : Option OutBlock := if row = 0 then none else some { addr := 0, data := [], tag := 0 }
  { desc := w64, released := [0], issued := 1, row := row, forming := part }

/-- A step runs, and core 0 is at a DMA turn with rows of a WRITE block still to read. -/
def turning (row : Nat) : State :=
  (stepping { run7 with began := true }).setCore 0 { holding 0 (someBytes 64) with
    pace := { beat := 2 }, dma := { slots := [(1, outgoing row)], busy := 2 } }

theorem witness_RowsTakeTurns :
    (let c := (turning 0).core 0
     c.now % 4 = 2 ∧ (turning 0).stepAt 0 = true ∧ (turning 0).sendDue 0 = none ∧ c.waiting = false ∧ c.dma.dueRow = none ∧
     (c.slot 0).rowsDue = false ∧ (c.slot 1).rowsDue = true ∧ (c.rowFault w64 {} 0).isNone = true ∧
     (((turning 3).core 0).slot 1).rowsDue = true ∧ (((turning 3).core 0).rowFault w64 {} 3).isNone = true) := by decide +kernel

theorem witness_StreamsIssueEveryKind :
    (let owed := at0 { dma := { slots := [(1, { desc := dRead, owed := [(dRead, 0)] })], busy := 2 } }
     let ext := at0 { dma := { slots := [(2, { desc := dExtIn })], busy := 4 } }
     let ready := at0 { dma := { slots := [(1, { desc := w64, released := [0] })], busy := 2 } }
     ((ext.core 0).slot 2).mayIssue false 0 = true ∧ ((ready.core 0).slot 1).ready 0 = true ∧
     answers (.dtile 0 1) owed (fun t => ((t.core 0).slot 1).owed == [] && ((t.core 0).slot 1).released == []) = true ∧
     answers (.blockIssue 0 2) ext (fun t => t.link.toComp.length == 8 && (t.core 0).dma.blocksRd == 1) = true ∧
     answers (.blockIssue 0 1) ready (fun t => ((t.core 0).slot 1).issued == 1 && (t.core 0).router.out == []) = true) := by decide +kernel

theorem witness_ArrivalsInSinkModeAndHalves :
    (let sink := at0 { arriving with flow := { arriving.flow with sink := true } }
     let r := running.setCore 0 { arriving with flow := { arriving.flow with recv := [(4, { bound := true, perFiring := 1, depth := 1 })] } }
     let un := running.setCore 0 {}
     let code (s : State) (n : BitVec 12) : Bool := answers (.controlToken 0 (tok 5)) s (fun t => t.flights.isEmpty &&
       (t.core 0).flow.errCode == n)
     code r 6 = true ∧ code un 0xB = true ∧
     answers (.streamBlock 0 4 []) (at0 arriving) (fun t => (((t.core 0).recvEp 4).entry 0).data) = false ∧
     answers (.streamBlock 0 5 (someBytes 32)) sink (fun t => (t.core 0).router.out == [.credit 0 0 false 1 0] &&
       ((t.core 0).recvEp 5).arrived == 4 && ((t.core 0).recvEp 5).level == 1) = true ∧
     answers (.streamBlock 0 4 []) (at0 { flow := { recv := [(4, { bound := true, governed := true, perFiring := 1, flits := 1, depth := 4 })] } })
       (fun t => ((t.core 0).recvEp 4).level == 1 && (((t.core 0).recvEp 4).entry 0).data) = true) := by decide +kernel

theorem witness_ChannelsKeepTheirSlots :
    (let s := (at0 asking).setCore (attachCore 0) { pace := { beat := 44 } }
     let hit (good : Bool) : State := s.onChan 0 (fun x => { x with cache := [(9, blockOf good)] })
     (hit true).mayAccept 0 0 1 9 = true ∧ (hit false).mayAccept 0 0 1 9 = true ∧
     (s.onChan 0 (fun x => { x with readSlot := some 11 })).mayAccept 0 0 1 9 = false ∧
     (s.onChan 0 (fun x => { x with dram := [11, 10, 9] })).mayAccept 0 0 1 9 = false ∧
     (s.onChan 0 (fun x => { x with dram := [11, 10, 7] })).mayAccept 0 0 1 9 = true ∧
     (s.onChan 0 (fun x => { x with writeSlot := some 11 })).mayWrite 0 true = false) ∧
    (∀ crc, ((at0 { router := { out := [.write 1 9 false 0 5 crc] } }).core 0).findWrite 1 = some (9, 0, 5, crc)) :=
  ⟨by decide +kernel, fun _ => rfl⟩

theorem witness_UnpairedHalvesAtLayerEnd :
    (let half : RecvEp := { bound := true, governed := true, perFiring := 1, depth := 4, firings := 1, skew := [(0, { token := some 5 })] }
     let s := (atBeat 108 (stepping { run7 with began := true, start := 8 })).setCore 0 { pace := { beat := 108 }, flow := { recv := [(4, half)] } }
     (s.flagsOf 0 0).away = true ∧ (s.flagsOf 0 0).unpaired = true ∧ (s.flagsOf 0 0).late = false ∧
     answers (.layerEndSample 0) s (fun t => t.flights.isEmpty && (t.core 0).health.lastEvent == 0x5009 && (t.core 0).flow.errEp == 4 &&
       (t.core 0).flow.errDir) = true) := by decide +kernel

/-- linked with one read and one write outstanding for a use. -/
def outstanding (use : CompUse) : State :=
  { linked with link := { linked.link with toComp := [.rdNc 0x5000 1 use, .wrNc 0x6000 [] use] } }
/-- The same for the EXT_IN stream of core 0's slot 2. -/
def fetching : State := (outstanding (.stream 0 2 0)).setCore 0 { dma := { slots := [(2, { desc := dExtIn })], busy := 4 } }

theorem witness_LinkAnswersDescriptorsAndStreams :
    (takeMsg (isRead 0x5000) (lineTaken 0x5000) (outstanding (.flight 0 1)).link.toComp).map (fun m => useOf m.1) = some (some (.flight 0 1)) ∧
    (takeMsg (isRead 0x5000) (lineTaken 0x5000) fetching.link.toComp).map (fun m => useOf m.1) = some (some (.stream 0 2 0)) ∧
    (takeMsg isWrNc (fun _ => []) fetching.link.toComp).map (fun m => useOf m.1) = some (some (.stream 0 2 0)) ∧
    (takeMsg isWrNc (fun _ => []) (outstanding (.flight 0 1)).link.toComp).map (fun m => useOf m.1) = some (some (.flight 0 1)) ∧
    (fetching.core 0).slotBusy 2 = true := by decide +kernel

theorem witness_LinkAnswersReachTheirStreams :
    answers (.data 0x5000 9) fetching (fun t => t.link.lines == [(0, 2, 0, 0, 9)] && t.link.toComp.length == 1) = true ∧
    answers .wrAck fetching (fun t => ((t.core 0).slot 2).done == 1 && t.link.toComp.length == 1) = true ∧
    answers (.companionErrorResponse false 0x5000) (outstanding (.flight 0 1)) (fun t => t.link.errCode == 0x805) = true ∧
    answers (.companionErrorResponse false 0x5000) { running with link := fetching.link } (fun t => t.flights.isEmpty &&
      t.link.errCode == 0x805) = true := by decide +kernel

theorem witness_FlitsAnswered :
    (let s : State := { live with link := { live.link with replay := [(4, 6), (5, 0)] } }
     let bad : State := { live with link := { live.link with replay := [(4, 7), (5, 0)] } }
     answers (.tirrikFlit 0 true (some (false, 4)) true) s (fun t => t.link.replay == [(5, 0), (0, 0)]) = true ∧
     answers (.tirrikFlit 0 true (some (true, 5)) true) s (fun t => t.link.replay == [(5, 1), (0, 1)] && t.link.resends == 2) = true ∧
     answers (.tirrikFlit 0 true (some (true, 4)) true) bad (fun t => !t.link.up && t.link.errCode == 0x807) = true ∧
     answers (.tirrikFlit 0 true none false) s (fun t => t.link.errCode == 0x804 && t.link.rxExpect == 1) = true ∧
     answers (.tirrikFlit 4095 true none true) s (fun t => !t.link.rxNak && t.link.rxExpect == 0) = true ∧
     answers (.tirrikFlit 9 true none true) s (fun t => t.link.rxNak && t.link.rxExpect == 0) = true ∧
     answers (.tirrikTrain 32 1) { (live.onWing 0 (fun x => { x with phase := 4 })) with link := { training := true } } (fun t =>
       (t.port 0).stat == .training && t.link.up) = true) := by decide +kernel

theorem witness_CommitsAndWindows :
    (let waiting := (queuedAs 6 0).onFlight 0 1 (fun f => { f with stage := .running })
     let copied := waiting.onFlight 0 1 (fun f => { f with ready := true })
     let window := (queuedAs 9 (1 * 2 ^ 128 + 5 * 2 ^ 208)).onFlight 0 1 (fun f => { f with stage := .running, ready := true })
     let opened : State := window.onWing 0 (fun x => { x with window := some ⟨0, 1, true, false, false, false, 0, 5, false, false, false, false⟩ })
     let pass : TestReport := { unit := .core 0, result := .pass }
     (waiting.flight 0 1).any (fun f => !waiting.commits f) = true ∧ (copied.flight 0 1).any (fun f => copied.commits f) = true ∧
     (opened.flight 0 1).any (fun f => opened.commits f && f.ready) = true ∧ failsTest pass.result = false ∧
     answers (.commitPoint 0 1) waiting (fun t => t == waiting) = true ∧
     answers (.commitPoint 0 1) opened (fun t => t.flights.isEmpty && t.west.window.isNone) = true ∧
     answers (.testWindow 0 1 [pass]) opened (fun t => t == opened) = true ∧
     answers (.testWindow 0 1 [pass]) (queuedAs 9 (2 * 2 ^ 128)) (fun t => t.west.window.any (fun v => v.full && !v.found)) = true) := by
  decide +kernel

/-- The west device runs a step, whose core 0 has a stream in slot 1. -/
def flowing (f : Frame) (x : DmaSlot) : State :=
  ({ device [f] with flights := running.flights }.onWing 0 (fun y => { y with run := some run7 })).setCore 0
    { dma := { slots := [(1, x)], busy := 2 } }

theorem witness_FlowFramesOfOtherFlows :
    (let g := frame 3 4 7 0 0 0 0 (toBytes 8 (3 + 2 * 2 ^ 32))
     let d := frame 1 0 7 5 512 0 0 []
     let twice := flowing g { desc := dOpt 5, granted := 2, grantSeen := [0] }
     let again := flowing d { desc := dOpt 4, baseSeq := 5, extSeen := [0] }
     let ended (s : State) : Bool := s.flights.isEmpty && (s.cring 0).waiting.any (fun r => r.fault == 0x1406)
     twice.flowOp 0 7 2 = some (0, 7) ∧ (twice.runningArray 0).isSome = true ∧ (twice.core 0).extSlot 1 5 g = true ∧
     (again.wing 0).extFlows.contains (2, 7) = true ∧ (flowing d { desc := dOpt 5 }).isDevice 0 1 = true ∧
     ((flowing d { desc := dOpt 5 }).core 0).extSlot 1 4 d = false ∧ ((device [d]).wing 0).extFlows.contains (2, 7) = false ∧
     answers (.grant 0 1 g) twice ended = true ∧
     answers (.grant 0 1 g) (flowing g { desc := dOpt 5, granted := 2, baseSeq := 3 }) (fun t => t.flights.length == 1 &&
       (t.fab 0).inbox.isEmpty && ((t.core 0).slot 1).granted == 2) = true ∧
     answers (.grant 0 1 g) (flowing g { desc := dOpt 4 }) (fun t => (t.fab 0).inbox.length == 1) = true ∧
     answers (.streamData 0 1 d) again ended = true ∧
     answers (.streamData 0 1 d) (flowing d { desc := dOpt 4, baseSeq := 6 }) (fun t => (t.fab 0).inbox.isEmpty && t.flights.length == 1) = true ∧
     answers (.streamData 0 1 d) (flowing d { desc := dOpt 5 }) (fun t => (t.fab 0).inbox.length == 1) = true ∧
     answers (.streamData 0 1 d) (device [d]) (fun t => (t.fab 0).inbox.isEmpty) = true ∧
     answers (.fabricTimeout 0 7) again (fun t => t.flights.isEmpty && (t.cring 0).waiting.any (fun r => r.fault == 0x1408)) = true) := by
  decide +kernel

theorem witness_MirrorFramesOfOtherPasses :
    (let line := frame 2 0 7 0 0 0 9 (toBytes 64 0)
     let count := frame 2 0 7 1 0 0 9 []
     let r := frame 2 1 7 0 0 0 0 (toBytes 8 4)
     let a := frame 3 2 7 0 0 0 0 []
     let n := frame 2 2 7 0 0 0 0 []
     let m : MirrorIn := { owner := 2, serial := 7 }
     let closed : State := (device [count]).onFab 0 (fun x => { x with mirrors := [{ m with closed := true }] })
     let done (s : State) : State := s.onWing 0 (fun x => { x with pass := x.pass.map (fun p => { p with ended := true }) })
     frE2eOk line = true ∧ frE2eOk count = true ∧ frLen8 line = 8 ∧ frLen8 count = 0 ∧ (mirror line 5).mirrorAddr line = some 0 ∧
     ((mirror count 5).fab 0).mirrorFor count = some m ∧ (closed.fab 0).mirrorFor count = none ∧
     ((done (mirrored r)).mirrored 0 r).any (fun e => e.2.ended && !e.2.returned && !bit e.1.words 258) = true ∧
     (device [r]).mirrored 0 r = none ∧ (colled [a] (coll 1)).flowOp 0 7 2 = some (0, 1) ∧
     answers (.bulkData 0 count) (mirror count 5) (fun t => (t.fab 0).mirrors.any (fun y => y.total == some 1)) = true ∧
     answers (.bulkData 0 count) closed (fun t => (t.fab 0).inbox.isEmpty && (t.fab 0).mirrors == [{ m with closed := true }]) = true ∧
     answers (.bulkReturn 0 r) (done (mirrored r)) (fun t => t.flights.all (fun f => f.ready) && t.west.pass.any (fun p => p.resultSent)) = true ∧
     answers (.bulkReturn 0 r) (device [r]) (fun t => (t.fab 0).inbox.isEmpty) = true ∧
     answers (.bulkRefusal 0 n) (device [n]) (fun t => (t.fab 0).inbox.isEmpty && t.mapFault == 0) = true ∧
     answers (.abandon 0 a) (device [a]) (fun t => (t.fab 0).inbox.isEmpty) = true ∧
     answers (.abandon 0 a) (colled [a] (coll 1)) (fun t => t.flights.isEmpty && (t.cring 0).waiting.any (fun r => r.fault == 0x140D)) = true ∧
     answers (.fabricTimeout 0 7) (done (mirrored r)) (fun t => t.flights.isEmpty && (t.cring 0).waiting.any (fun r => r.fault == 0x1408)) = true ∧
     answers (.fabricTimeout 0 9) (device []) (fun t => t == device []) = true) := by decide +kernel

theorem witness_CollectivesRefuseAndEnd :
    (let bad := frame 3 1 7 0 0 0 0 (toBytes 24 1)
     let st := frame 3 1 7 0 0 0 0 (coll 1).startBytes
     let p0 := frame 3 3 7 0 0 0 0 (noticeBytes 150000 2 true)
     let d := frame 0 0 7 0 512 0 0 []
     let cd : Coll := { coll 1 with moving := true, exchanging := true }
     let cast : Coll := { coll 3 with count := 512, root := 1 }
     let castStart := frame 3 1 7 0 0 0 0 cast.startBytes
     let cr : Coll := { coll 2 with exchanging := true, moving := true, group := [1, 2, 3], count := 192, needs := [(0, 2), (1, 4)] }
     frE2eOk bad = true ∧ frE2eOk p0 = true ∧ frE2eOk castStart = true ∧ groupBad 1 [1, 1] = true ∧ groupBad 1 [2, 3] = true ∧
     toBytes 24 bad.payload.toNat ≠ (coll 1).startBytes ∧ (coll 1).peers.contains 2 = true ∧ cast.op = 3 ∧ cast.rank ≠ cast.root ∧
     cast.moving = false ∧ cast.others.any (fun r => cast.dataFrom r != 0) = true ∧ cr.reduces = true ∧ cr.others = [1, 2] ∧
     (colled [d] cd).openColl 0 d ≠ none ∧ (device [d]).openColl 0 d = none ∧ cd.isUnit 513 = false ∧
     answers (.startFrame 0 bad) (colled [bad] (coll 1)) (fun t => t.flights.isEmpty && (t.cring 0).waiting.any (fun r => r.fault == 0x1409)) = true ∧
     answers (.startFrame 0 st) (device [st]) (fun t => (t.fab 0).inbox.length == 1) = true ∧
     answers (.startFrame 0 st) ((device [st]).onFab 0 (fun x => { x with ended := [7] })) (fun t => (t.fab 0).inbox.isEmpty) = true ∧
     answers (.startFrame 0 castStart) (colled [castStart] cast) (fun t => (t.fab 0).colls.any (fun c => c.exchanging && c.moving)) = true ∧
     answers (.collData 0 d) (device [d]) (fun t => (t.fab 0).inbox.isEmpty) = true ∧
     answers (.collData 0 d) (colled [d] (coll 1)) (fun t => (t.fab 0).inbox.length == 1) = true ∧
     answers (.collData 0 d) (colled [d] { cd with seen := [(1, [0])] }) (fun t => t.flights.isEmpty &&
       (t.cring 0).waiting.any (fun r => r.fault == 0x1406)) = true ∧
     answers (.paceNotice 0 p0) (colled [p0] (coll 1)) (fun t => !t.west.power.following && (t.fab 0).inbox.isEmpty) = true ∧
     answers (.paceNotice 0 p0) (colled [p0] { coll 1 with follow := false }) (fun t => (t.fab 0).inbox.isEmpty) = true ∧
     answers (.paceNoticeRepeat 0) ((colled [] { coll 1 with noticed := true }).onFab 0 (fun x => { x with route := [] })) (fun t =>
       t.flights.isEmpty && (t.cring 0).waiting.any (fun r => r.fault == 0x1407)) = true) := by decide +kernel

theorem witness_PowerFormsAndBounds :
    (let cool := List.replicate 16 (60 : Int)
     let broken := 200 :: List.replicate 15 (60 : Int)
     let few := List.replicate 3 (60 : Int) ++ List.replicate 13 (-30)
     let on : State := { running with clusters := (running.onCluster 3 (fun x => { x with tmax := 1 })).clusters }
     let off (n : Nat) : State := live.onCluster 3 (fun x => { x with regionOff := true, coolReads := 999, offReads := n })
     let hot := 106 :: List.replicate 15 (90 : Int)
     let begun : State := { live with capstoned := false, west := { phase := 5 }, east := { phase := 3 } }
     let same (i : Instr) (s : State) : Bool := answers i s (fun t => decide (t = s))
     on.powered = true ∧ begun.powered = true ∧ judge 0 broken = 1 ∧ validReadings (judge 0 few) few = [60, 60, 60] ∧
     answers (.sensorRead [(3, broken), (4, cool)]) on (fun t => (t.cluster 3).invalid == 1 && (t.cluster 3).tmax == 60 &&
       (t.cluster 4).tmax == 60 && t.power.lastFault == 0xA002 && t.west.attn && t.pins.attn && t.flights.length == 1) = true ∧
     answers (.sensorRead [(3, few)]) on (fun t => (t.cluster 3).tmax == 95) = true ∧
     answers (.sensorRead [(3, hot)]) (off 498) (fun t => (t.cluster 3).offReads == 499 && !t.power.tripped) = true ∧
     answers (.sensorRead [(3, hot)]) (off 499) (fun t => t.power.tripped && t.pins.thermTrip) = true ∧
     same (.regionRestore 3) (off 0) = true ∧ same (.regionRestore 4) live = true ∧
     answers .flowLost begun (fun t => t.west.phase == 11 && t.east.phase == 3 && !t.power.flowStop) = true ∧
     same .flowRestore live = true ∧ same .flowWaitTimeout live = true ∧ same .inputRestore live = true ∧
     same (.railFault 3) State.reset = true ∧ same (.powerSample 1 1 []) State.reset = true ∧ same (.controlPeriod 0) live = true ∧
     same .currentLimit State.reset = true ∧ same (.sensorRead [(3, hot)]) State.reset = true) := by decide +kernel

theorem witness_BringUpPhaseByPhase :
    (let cold (p : BitVec 4) : State := { west (fun x => { x with phase := p }) with capstoned := false }
     let warm (p : Nat) (flow : Bool) : State := { west (fun x => { x with phase := 8, warmPhase := p }) with pins := { live.pins with flowOk := flow } }
     let first : State := { cold 1 with east := { liveWing with phase := 1, fwVerified := some [0] } }
     let bound : State := cold 4
     let idle : State := { cold 4 with ports := (List.range 80).map (fun p => (p, { bound := false })) }
     let asked : State := west (fun x => { x with reform := some { phase := 0, byDesc := true, asked := true, byRing := 2, bySeq := 9 } })
     let ref (p : Nat) (flow : Bool) : State := { west (fun x => { x with phase := 9, reform := some { phase := p } }) with
       pins := { live.pins with flowOk := flow } }
     let cracked : State := { live with health := { spall := [{ kind := 4, loc := 5, state := 2 }] } }
     let same (i : Instr) (s : State) : Bool := answers i s (fun t => decide (t = s))
     (first.wing 1).fwVerified = some [0] ∧ cracked.seamFailed = true ∧ asked.drainedWings [0, 1] = true ∧
     answers (.coldPhase 0 9 [0] []) (cold 1) (fun t => t.west.phase == 1 && t.west.fwVerified == some [0]) = true ∧
     answers (.coldPhase 0 9 [0] []) first (fun t => t.west.phase == 2 && t.east.phase == 2) = true ∧
     answers (.coldPhase 0 9 [] []) idle (fun t => t.west.phase == 5) = true ∧ same (.coldPhase 0 9 [] []) bound = true ∧
     same (.coldPhase 0 9 [] []) live = true ∧ same (.portPhaseEnd 0) live = true ∧
     same (.warmPhase 0 []) live = true ∧ answers (.warmPhase 0 []) (warm 1 true) (fun t => t.west.warmPhase == 2) = true ∧
     answers (.warmPhase 0 []) (warm 3 true) (fun t => t.west.warmPhase == 4 && t.west.phase == 8) = true ∧
     answers (.warmPhase 0 []) (warm 3 false) (fun t => t.west.warmPhase == 4 && t.west.phase == 11) = true ∧
     answers (.warmPhase 0 []) (warm 4 false) (fun t => t.west.phase == 11) = true ∧
     answers (.reformStart 0) asked (fun t => t.west.phase == 9 && t.west.lastKind == 5 && t.west.drainCause == 3 &&
       t.west.reform.any (fun r => r.phase == 1)) = true ∧
     same (.reformStart 0) live = true ∧ same (.reformPhase 0 [] []) live = true ∧
     answers (.reformPhase 0 [] []) (ref 1 true) (fun t => t.west.reform.any (fun r => r.phase == 2) && t.west.level) = true ∧
     answers (.reformPhase 0 [] []) (ref 4 false) (fun t => t.west.phase == 11 && t.west.reform.any (fun r => r.phase == 4)) = true ∧
     answers (.reformPhase 0 [] []) (ref 6 true) (fun t => t.west.capDue && t.west.epoch == 1 && !t.split) = true ∧
     same (.capstone 0 1) live = true ∧ answers (.capstone 0 1) cracked (fun t => t.split) = true) := by decide +kernel

theorem witness_BoundariesAndWireGroups :
    (let u : TestUnit := .wire 2 768
     let broken (k : BitVec 4) (l : BitVec 24) : State := { running with health := { running.health with
       spall := [{ kind := k, loc := l, spared := true, detail := 3 }] } }
     let due : State := west (fun x => { x with bTests := [(.core 5, 0x3001)] })
     let same (i : Instr) (s : State) : Bool := answers i s (fun t => decide (t = s))
     wireUnit u = true ∧ seamUnit (unitKey u).1 (unitKey u).2 = false ∧ seamUnit 4 5 = true ∧
     answers (.stepBoundary 0 [⟨.core 5, .pass, false⟩]) due (fun t => t.west.bTests.isEmpty && (t.core 5).health.lastTest == 0 &&
       t.health.spall.any (fun e => e.kind == 0 && e.loc == 5 && e.transients == 1)) = true ∧
     same (.stepBoundary 0 []) live = true ∧ same (.wireGroupFailure (.core 5) 1) live = true ∧
     same (.wireGroupFailure (.lane 5) 3) (broken 4 5) = true ∧
     answers (.wireGroupFailure (.lane 5) 2) (broken 4 5) (fun t => t.flights.isEmpty && t.west.reformDue == some 0x1004) = true ∧
     answers (.wireGroupFailure u 2) (broken 5 0x200300) (fun t => (t.cluster 3).geomLost && t.west.phase == 10 &&
       t.west.failCode == 0x3021 && t.west.attn) = true ∧
     answers (.testOverdue 0) (west (fun x => { x with overdue := true })) (fun t => t.health.written == 0) = true) := by decide +kernel

theorem witness_SecurityAndDebugForms :
    (let fresh : State := { live with sec := { State.reset.sec with floor := 3 } }
     let run (o : SecOp) : State := { fresh with sec := { fresh.sec with running := some o } }
     let bad : SignedImage := { bundle 0 [] with header := 2 }
     let dead : State := { live with pins := { live.pins with housekeeping := false } }
     let due : State := { west (fun x => { x with attn := true }) with sb := { ibiRefused := true }, pins := { live.pins with attn := true } }
     let same (i : Instr) (s : State) : Bool := answers i s (fun t => decide (t = s))
     fresh.sec.unlocked = false ∧ fresh.sec.tokenOk 3 0 (some bad) = false ∧ dead.pins.housekeeping = false ∧
     same .securityOperationDone fresh = true ∧
     answers .securityOperationDone (run (.fwInstall 2 9 0 1)) (fun t => t.sec.slot1.state == 2 && t.sec.fwState == 3 && t.sec.running.isNone) = true ∧
     answers .securityOperationDone (run (.packInstall 9 0)) (fun t => t.pack.state == 3 && t.pack.pendingId == 9) = true ∧
     answers .debugLock fresh (fun t => t.sec.cmdState == 3 && t.sec.cmdFault == 0xC005) = true ∧
     answers (.advanceIdentity bad) fresh (fun t => t.sec.cmdState == 3 && t.sec.cmdFault == 0xC002) = true ∧
     answers (.debugUnlock bad) fresh (fun t => t.sec.cmdState == 3 && t.sec.cmdFault == 0xC002) = true ∧
     answers (.packInstall bad) fresh (fun t => t.pack.state == 4 && t.pack.fault == 0xC004) = true ∧
     same (.packInstall bad) (run (.packInstall 9 0)) = true ∧
     same (.entdaa 9) dead = true ∧ same (.sbRead 8) dead = true ∧ same .bypass dead = true ∧ same .trstN dead = true ∧
     answers (.ibiRetry true) due (fun t => !t.sb.ibiRefused && !t.sb.ibiDue && t.sb.ibi == 1) = true ∧
     same (.ibiRetry true) live = true ∧ same (.attnIbi true) live = true ∧ same (.debugHaltRequest 0) live = true ∧
     same (.debugHaltEnter 0) live = true ∧ same (.debugStep 0) live = true ∧
     answers (.sbWrite [1, 2, 3]) live (fun t => t.sb.errKind == 3 && t.sb.refused == 1) = true ∧
     answers (.sbWrite ([0x00, 0x0D, 0x68, 0x01, 0xFA, 0x20, 0x03] ++ List.replicate 3 0)) { live with sb := { plinthReady := true } }
       (fun t => t.power.cap == 360 && t.power.slope == 250 && t.power.westShare == 50) = true ∧
     answers (.sbRead 4) live (fun t => t.sb.reply == [0, 0, 0, 0] && t.sb.errKind == 3) = true) := by decide +kernel

/-! ### The replay of a load (R232, R235, R262) -/

/-- A schedule of core (13, 18), ten hops from the attach core of channel 0, with one layer. -/
def oneCore (beats : Nat) (binds : List BindRec) (descs : List Desc) (cmds : List (Nat × CmdWord)) : StepSched :=
  ⟨[⟨beats, 64⟩], [], [], binds, [⟨mkCore 13 18, 0, 0, descs⟩], [], cmds.map (fun c => ⟨mkCore 13 18, 0, c.1, c.2⟩)⟩
/-- A descriptor of one run of n bytes of the tensor engine's BF16 at 0x1000, of a kind and an endpoint. -/
def oneRun (kind ep n : Nat) : Desc :=
  BitVec.ofNat 512 (1 + kind * 2 ^ 4 + 2 ^ 8 + ep * 2 ^ 20 + 2 ^ 32 + (n - 1) * 2 ^ 112 + 0x1000 * 2 ^ 320)
/-- A DMA command word. -/
def dmaWord (op slot desc : Nat) : CmdWord := .dma (BitVec.ofNat 64 (op + 2 ^ 4 + slot * 2 ^ 8 + desc * 2 ^ 11))

/-- R235: a READ that starts at beat 15 is filled 216 beats and a wait of one beat later, so its last flit comes at beat 231. -/
theorem test_replay_fill :
    (let x := oneCore 233 [] [oneRun 0 0 512] [(0, dmaWord 1 0 0), (0, dmaWord 2 0 0)]
     let img : Image := ⟨0, [], [], .step, 0, 0, [], [], [], [], []⟩
     (layerReads false img x 0).map (fun r => (r.ask.issue, r.beat, r.first false + 15)) = [(15, 36, 231)]) := by decide +kernel
/-- R235: a WRITE block's acknowledgement reaches its core 64 + 4h beats after its first read turn. -/
theorem test_replay_drain :
    (let c : CoreReplay := ⟨[], [], [], [], [(18, ⟨0, 0, 0, 0, 18⟩), (22, ⟨0, 0, 0, 1, 18⟩), (26, ⟨0, 0, 0, 2, 18⟩), (30, ⟨0, 0, 0, 3, 18⟩)], []⟩
     c.ackBeat false 200 ⟨mkCore 13 18, 0, false, {}, 0, 0, false, false, 18⟩ 0 + 20 = 18 + 64 + 40) := by decide +kernel
/-- R232: firings at beats 50 and 48 need the turn at beat 46 both, and at beats 50 and 51 the turns at 46 and 50. -/
theorem test_replay_sends :
    (let bind (ep : Nat) : BindRec := ⟨mkCore 13 18, 0, false, BitVec.ofNat 256 (1 + ep * 2 ^ 8 + 2 ^ 16 + 2 ^ 21 + 2 ^ 26)⟩
     let fire (ep : Nat) : CmdWord := .steer (BitVec.ofNat 64 (6 + ep * 2 ^ 13))
     let x (b : Nat) : StepSched := oneCore 240 [bind 0, bind 1] [oneRun 2 0 32, oneRun 2 1 32]
       [(0, dmaWord 1 0 0), (16, dmaWord 1 1 1), (50, fire 0), (b, fire 1)]
     sendTurns (x 48) (mkCore 13 18) 0 = [46, 46] ∧ sendsOk (sendRows (x 48) (mkCore 13 18) 0) = false ∧
     sendTurns (x 51) (mkCore 13 18) 0 = [46, 50] ∧ sendsOk (sendRows (x 51) (mkCore 13 18) 0) = true) := by decide +kernel
/-- R262: a block of four rows placed from beat 32 has its rows read in the turns at beats 7, 23, 39 and 55; from beat 31 it has not. -/
theorem test_replay_bus : rowsBy 56 [(56, 384, 128), (48, 256, 128), (40, 128, 128), (32, 0, 128)] =
    some [(55, 384, 128), (39, 256, 128), (23, 128, 128), (7, 0, 128)] ∧
    rowsBy 55 [(55, 384, 128), (47, 256, 128), (39, 128, 128), (31, 0, 128)] = none := by decide +kernel

end Sys2Proof.Tests
end

section
/-! PROOFS. The loads of the tensor engine through the memory port: what each writes, and the wait for late data (R63, R104,
R109 to R111). -/

namespace Sys2Proof.Machine

/-! ### Folds over a sparse map -/

/-- A value whose key no entry of a list names stays when the entries are applied to a map one by one. -/
theorem Map.get_foldl_upd_of_notMem {α β : Type} (d : α) (f : β → α → α) (b : Nat) (es : List (Nat × β)) (m : List (Nat × α))
    (h : b ∉ es.map Prod.fst) : Map.get d (es.foldl (fun m e => Map.upd d m e.1 (f e.2)) m) b = Map.get d m b := by
  induction es generalizing m with
  | nil => rfl
  | cons e es ih =>
    simp only [List.map_cons, List.mem_cons, not_or] at h
    rw [List.foldl_cons, ih _ h.2, Map.get_upd, if_neg h.1]

/-- Where the keys of a list differ, each entry acts on the value that the map held before. -/
theorem Map.get_foldl_upd_of_mem {α β : Type} (d : α) (f : β → α → α) (b : Nat) (x : β) (es : List (Nat × β)) (m : List (Nat × α))
    (hd : (es.map Prod.fst).Nodup) (h : (b, x) ∈ es) :
    Map.get d (es.foldl (fun m e => Map.upd d m e.1 (f e.2)) m) b = f x (Map.get d m b) := by
  induction es generalizing m with
  | nil => cases h
  | cons e es ih =>
    rw [List.map_cons, List.nodup_cons] at hd
    obtain ⟨hout, hnd⟩ := hd
    rw [List.foldl_cons]
    rcases List.mem_cons.1 h with rfl | hm
    · rw [Map.get_foldl_upd_of_notMem _ _ _ _ _ hout, Map.get_upd, if_pos rfl]
    · have hne : b ≠ e.1 := fun he => hout (he ▸ List.mem_map_of_mem (f := Prod.fst) hm)
      rw [ih _ hnd hm, Map.get_upd, if_neg hne]

/-! ### Panels (R104, R110) -/

/-- A buffer half takes the bytes that both reads answer. -/
theorem loadHalf_of_reads {c : Core} {cmd : TCmd} {n units : Nat} {d sc : List Byte} (hd : c.readMem cmd.addr.toNat n = .ok d)
    (hs : c.readMem cmd.scaleAddr.toNat (if isExactFmt cmd.fmt.toNat then units * cmdKBlocks cmd else 0) = .ok sc) :
    loadHalf c cmd n units = .ok ⟨BitVec.ofNat 16384 (ofBytes d), BitVec.ofNat 1024 (ofBytes sc)⟩ := by
  simp only [loadHalf, hd, hs]

theorem teLoadA_of_loadHalf {c : Core} {cmd : TCmd} {n : Nat} {h : OpHalf} (hn : loadABytes c cmd = .ok n)
    (hh : loadHalf c cmd n (16 * cmdTr cmd) = .ok h) :
    teLoadA c cmd .ok = ({ c with tensor := { c.tensor with a := Map.set c.tensor.a (cmdHalf cmd) h } }, none) := by
  simp only [teLoadA, storeChk, hn, hh]

theorem teLoadB_of_loadHalf {c : Core} {cmd : TCmd} {h : OpHalf}
    (hh : loadHalf c cmd (elemBytes cmd.fmt.toNat (cmd.kc.toNat * (16 * cmdTc cmd))) (16 * cmdTc cmd) = .ok h) :
    teLoadB c cmd .ok = ({ c with tensor := { c.tensor with b := Map.set c.tensor.b (cmdHalf cmd) h } }, none) := by
  simp only [teLoadB, storeChk, hh]

/-! ### Anchors (R5, R111) -/

/-- The maxima that the i-th selected tile takes from the bytes read. -/
def Tile.takeMaxima (bs : List Byte) (i : Nat) (x : Tile) : Tile :=
  { x with rowMax := maximaAt bs (64 * i), colMax := maximaAt bs (64 * i + 32) }

/-- The tiles after the selected ones have taken their maxima. -/
def anchoredTiles (c : Core) (cmd : TCmd) (bs : List Byte) : List (Nat × Tile) :=
  (cmdSel cmd).zipIdx.foldl (fun m e => Map.upd {} m e.1 (Tile.takeMaxima bs e.2)) c.tensor.tiles

theorem teLoadAnchor_of_read {c : Core} {cmd : TCmd} {bs : List Byte}
    (h : c.readMem cmd.addr.toNat (64 * (cmdSel cmd).length) = .ok bs) :
    teLoadAnchor c cmd .ok = ({ c with tensor := { c.tensor with tiles := anchoredTiles c cmd bs } }, none) := by
  simp only [teLoadAnchor, storeChk, h]
  rfl

theorem cmdSel_nodup (cmd : TCmd) : (cmdSel cmd).Nodup := List.nodup_range.filter _

theorem get_anchoredTiles_of_notMem (c : Core) (cmd : TCmd) (bs : List Byte) {n : Nat} (h : n ∉ cmdSel cmd) :
    Map.get {} (anchoredTiles c cmd bs) n = c.tile n := by
  refine Map.get_foldl_upd_of_notMem _ _ _ _ _ ?_
  rwa [List.zipIdx_map_fst]

theorem get_anchoredTiles_of_getElem? (c : Core) (cmd : TCmd) (bs : List Byte) {i n : Nat} (h : (cmdSel cmd)[i]? = some n) :
    Map.get {} (anchoredTiles c cmd bs) n = (c.tile n).takeMaxima bs i := by
  refine Map.get_foldl_upd_of_mem _ _ _ _ _ _ ?_ (List.mk_mem_zipIdx_iff_getElem?.2 h)
  rw [List.zipIdx_map_fst]
  exact cmdSel_nodup cmd

theorem ofBytes_sliceBytes_two (bs : List Byte) (i : Nat) :
    ofBytes (sliceBytes bs i 2) = (bs.getD i 0).toNat + 256 * (bs.getD (i + 1) 0).toNat := by
  simp [sliceBytes, ofBytes, List.range_succ]

theorem length_maximaAt (bs : List Byte) (i : Nat) : (maximaAt bs i).length = 16 := by simp [maximaAt]

/-- Each maximum is a 16-bit number with its lower byte first (R5). -/
theorem toNat_maximaAt (bs : List Byte) (i : Nat) {j : Nat} (hj : j < 16) :
    ((maximaAt bs i).getD j 0).toNat = (bs.getD (i + 2 * j) 0).toNat + 256 * (bs.getD (i + 2 * j + 1) 0).toNat := by
  have hget : (maximaAt bs i).getD j 0 = BitVec.ofNat 16 (ofBytes (sliceBytes bs (i + 2 * j) 2)) := by
    simp [maximaAt, List.getD_eq_getElem?_getD, List.getElem?_range hj]
  rw [hget, BitVec.toNat_ofNat, ofBytes_sliceBytes_two]
  exact Nat.mod_eq_of_lt (by omega)

/-! ### The wait of a memory-port command (R63, R109) -/

/-- A memory-port command runs at its core by its word in the schedule. -/
theorem exec_port {i : Instr} {k : Nat} {p : PortCmd} (hk : Claim.scheduledAt i = some k) (hp : portOf i = some p) (s : State) :
    exec i s = s.portAt k (Claim.asScheduled i) i := by
  cases i with
  | loadA _ _ _ | loadB _ _ _ | loadAnchor _ _ _ | merge _ _ _ => cases hk; rfl
  | _ => cases hp

/-- One late beat changes nothing of a core but its pace registers, and leaves the wait to be set. -/
theorem Core.late_pace (c : Core) (cause : BitVec 3) (sender : Option LatePath) :
    c.late cause sender = { c with pace := (c.late cause sender).pace } ∧
    (c.late cause sender).pace.lateCount = (satAdd c.pace.lateCount c.pace.lateSat 1).1 := by
  unfold Core.late
  dsimp only
  split <;> exact ⟨rfl, rfl⟩

/-- The beat of a wait changes the pace registers alone: the wait with one late beat more, or one external beat. -/
theorem Core.waitOn_pace (c : Core) (w : Wait) (cause : BitVec 3) (sender : Option LatePath) :
    c.waitOn w cause sender = { c with pace := (c.waitOn w cause sender).pace } ∧
    (c.waitOn w cause sender).pace.wait = some { w with late := if w.ext then w.late else w.late + 1 } ∧
    (w.ext = false → (c.waitOn w cause sender).pace.lateCount = (satAdd c.pace.lateCount c.pace.lateSat 1).1) ∧
    (w.ext = true → (c.waitOn w cause sender).pace.extCount = (satAdd c.pace.extCount c.pace.extSat 1).1) := by
  obtain ⟨hcore, hcount⟩ := c.late_pace cause sender
  unfold Core.waitOn
  cases hx : w.ext with
  | true => exact ⟨rfl, rfl, nofun, fun _ => rfl⟩
  | false =>
    refine ⟨?_, rfl, fun _ => hcount, nofun⟩
    rw [if_neg Bool.false_ne_true, hcore]

end Sys2Proof.Machine

namespace Sys2Proof.Claim

open Sys2Proof.Machine

/-- A memory-port command that acts on data that is there changes its core as its operation says. -/
theorem answers_port {i : Instr} {k : Nat} {p : PortCmd} {s : State} {c : Core} {P : State → Prop} (hk : scheduledAt i = some k)
    (hp : portOf i = some p) (h : Acts k s i) (hl : s.portLate k p.op p.cmd = none) (hr : p.run (s.core k) = (c, none))
    (hP : P (s.setCore k c)) : Answers i s P := by
  refine ⟨_, ?_, hP⟩
  rw [exec_port hk hp, State.portAt_acting _ _ _ _ _ h.1 hp h.2, State.portStart_now _ _ _ _ hl, hr, State.coreStep_ok]

/-- A memory-port command that acts on late data starts to wait. -/
theorem answers_port_late {i : Instr} {k : Nat} {p : PortCmd} {l : Lateness} {s : State} {P : State → Prop}
    (hk : scheduledAt i = some k) (hp : portOf i = some p) (h : Acts k s i) (hl : s.portLate k p.op p.cmd = some l)
    (hP : P (s.onCore k (fun c => c.waitOn { what := .engine i, ext := l.ext } l.cause l.sender))) : Answers i s P := by
  refine ⟨_, ?_, hP⟩
  rw [exec_port hk hp, State.portAt_acting _ _ _ _ _ h.1 hp h.2]
  unfold State.portStart
  rw [hl]

theorem loadA_replaces_half (k : Nat) (s : State) (cmd : TCmd) (n : Nat) (d sc : List Byte) (h : Acts k s (.loadA k cmd .ok))
    (hl : s.portLate k 1 cmd = none) (hn : loadABytes (s.core k) cmd = .ok n) (hd : (s.core k).readMem cmd.addr.toNat n = .ok d)
    (hs : (s.core k).readMem cmd.scaleAddr.toNat (if isExactFmt cmd.fmt.toNat then 16 * cmdTr cmd * cmdKBlocks cmd else 0) = .ok sc) :
    Answers (.loadA k cmd .ok) s (fun t =>
      OneCore k s t { s.core k with tensor := { (s.core k).tensor with a := (t.core k).tensor.a } } ∧
      SetsKey {} (s.core k).tensor.a (t.core k).tensor.a (cmdHalf cmd)
        { data := BitVec.ofNat 16384 (ofBytes d), scale := BitVec.ofNat 1024 (ofBytes sc) }) := by
  refine answers_port rfl rfl h hl (teLoadA_of_loadHalf hn (loadHalf_of_reads hd hs)) ?_
  rw [State.core_setCore_same]
  exact ⟨oneCore_setCore _ _ _, setsKey_set _ _ _ _⟩

theorem loadB_replaces_half (k : Nat) (s : State) (cmd : TCmd) (d sc : List Byte) (h : Acts k s (.loadB k cmd .ok))
    (hl : s.portLate k 2 cmd = none)
    (hd : (s.core k).readMem cmd.addr.toNat (elemBytes cmd.fmt.toNat (cmd.kc.toNat * (16 * cmdTc cmd))) = .ok d)
    (hs : (s.core k).readMem cmd.scaleAddr.toNat (if isExactFmt cmd.fmt.toNat then 16 * cmdTc cmd * cmdKBlocks cmd else 0) = .ok sc) :
    Answers (.loadB k cmd .ok) s (fun t =>
      OneCore k s t { s.core k with tensor := { (s.core k).tensor with b := (t.core k).tensor.b } } ∧
      SetsKey {} (s.core k).tensor.b (t.core k).tensor.b (cmdHalf cmd)
        { data := BitVec.ofNat 16384 (ofBytes d), scale := BitVec.ofNat 1024 (ofBytes sc) }) := by
  refine answers_port rfl rfl h hl (teLoadB_of_loadHalf (loadHalf_of_reads hd hs)) ?_
  rw [State.core_setCore_same]
  exact ⟨oneCore_setCore _ _ _, setsKey_set _ _ _ _⟩

theorem loadAnchor_sets_maxima (k : Nat) (s : State) (cmd : TCmd) (bs : List Byte) (h : Acts k s (.loadAnchor k cmd .ok))
    (hl : s.portLate k 3 cmd = none) (hr : (s.core k).readMem cmd.addr.toNat (64 * (cmdSel cmd).length) = .ok bs) :
    Answers (.loadAnchor k cmd .ok) s (fun t =>
      OneCore k s t { s.core k with tensor := { (s.core k).tensor with tiles := (t.core k).tensor.tiles } } ∧
      (∀ n, n ∉ cmdSel cmd → (t.core k).tile n = (s.core k).tile n) ∧
      ∀ i n, (cmdSel cmd)[i]? = some n → (t.core k).tile n = ((s.core k).tile n).takeMaxima bs i) := by
  refine answers_port rfl rfl h hl (teLoadAnchor_of_read hr) ?_
  rw [State.core_setCore_same]
  exact ⟨oneCore_setCore _ _ _, fun _ hn => get_anchoredTiles_of_notMem _ _ _ hn, fun _ _ hi => get_anchoredTiles_of_getElem? _ _ _ hi⟩

theorem port_waits_for_late_data (k : Nat) (s : State) (i : Instr) (p : PortCmd) (l : Lateness) (hk : scheduledAt i = some k)
    (hp : portOf i = some p) (h : Acts k s i) (hl : s.portLate k p.op p.cmd = some l) :
    Answers i s (fun t =>
      OneCore k s t { s.core k with pace := (t.core k).pace } ∧
      (t.core k).pace.wait = some { what := .engine i, ext := l.ext, late := if l.ext then 0 else 1 } ∧
      (l.ext = false → (t.core k).pace.lateCount = (satAdd (s.core k).pace.lateCount (s.core k).pace.lateSat 1).1) ∧
      (l.ext = true → (t.core k).pace.extCount = (satAdd (s.core k).pace.extCount (s.core k).pace.extSat 1).1)) := by
  obtain ⟨hcore, hwait, hlate, hext⟩ :=
    (s.core k).waitOn_pace { what := .engine i, ext := l.ext } l.cause l.sender
  refine answers_port_late hk hp h hl ?_
  rw [State.core_onCore_same]
  exact ⟨oneCore_of hcore, hwait, hlate, hext⟩

end Sys2Proof.Claim

namespace Sys2Proof.Proofs

open Sys2Proof.Machine Sys2Proof.Claim

/-- Settles O6: each load runs through the memory port, replaces one key of one map of its core, or waits. -/
theorem loadsReplaceTheirTargets : Obligations.LoadsReplaceTheirTargets := by
  unfold Obligations.LoadsReplaceTheirTargets
  refine ⟨loadA_replaces_half, loadB_replaces_half, fun k s cmd bs h hl hr => ?_, port_waits_for_late_data⟩
  obtain ⟨t, he, hcore, hout, hin⟩ := loadAnchor_sets_maxima k s cmd bs h hl hr
  refine ⟨t, he, hcore, hout, fun i n hi => ⟨maximaAt bs (64 * i), maximaAt bs (64 * i + 32), length_maximaAt _ _,
    length_maximaAt _ _, hin i n hi, fun j hj => ⟨toNat_maximaAt bs _ hj, toNat_maximaAt bs _ hj⟩⟩⟩

end Sys2Proof.Proofs
end

section
/-! The Tirrik link: the flits and their answers, the training of the link, and its going down (R332, R333, R336, R337, R368). -/

namespace Sys2Proof.Machine

/-! ### Descriptors decided (R356) -/

/-- Deciding descriptors leaves the Tirrik link as it is, and brings no descriptor into flight. -/
def State.Decides (s t : State) : Prop := t.link = s.link ∧ ∀ f ∈ t.flights, f ∈ s.flights

theorem State.Decides.refl (s : State) : State.Decides s s := ⟨rfl, fun _ h => h⟩
theorem State.Decides.trans {s t u : State} (h : State.Decides s t) (k : State.Decides t u) : State.Decides s u :=
  ⟨k.1.trans h.1, fun f hf => h.2 f (k.2 f hf)⟩
theorem State.decides_foldl {α : Type} (f : State → α → State) (hf : ∀ t a, State.Decides t (f t a)) (xs : List α) :
    ∀ s, State.Decides s (xs.foldl f s) := by
  induction xs with
  | nil => intro s; exact .refl s
  | cons a xs ih => intro s; exact (hf s a).trans (ih _)

theorem State.decides_onWing (s : State) (w : Nat) (f : WingState → WingState) : State.Decides s (s.onWing w f) :=
  ⟨by simp, by simp⟩
theorem State.Ended.decides {s t : State} (h : State.Ended s t) : State.Decides s t :=
  ⟨by have hl := congrArg State.link h; exact hl, by rw [h.flights]; exact fun _ hf => hf⟩
theorem State.Settled.decides {s t : State} (h : State.Settled s t) : State.Decides s t :=
  ⟨by have hl := congrArg State.link h.1; exact hl, h.2.1⟩

theorem State.decides_endFlight (s : State) (f : Flight) (disp : Nat) (code : Code) (kind loc : Nat) :
    State.Decides s (s.endFlight f disp code kind loc) :=
  (s.ended_dropWork f).decides.trans ((s.dropWork f).settleFlight_spec _ disp code kind loc).1.decides

/-- A descriptor that has ended is in flight no longer. -/
theorem State.notMem_flights_endFlight (s : State) (f : Flight) (disp : Nat) (code : Code) (kind loc : Nat) :
    f ∉ (s.endFlight f disp code kind loc).flights := by
  intro hf
  have hnamed := (s.dropWork f).settleFlight_gone { f with status := 0 } disp code kind loc f hf
  simp [Flight.named] at hnamed

theorem State.decides_endRunning (s : State) (w disp : Nat) (code : Code) (kind loc : Nat) (cause : Option (BitVec 2)) :
    State.Decides s (s.endRunning w disp code kind loc cause) := by
  unfold State.endRunning
  dsimp only
  split
  · exact .refl s
  · have hend := s.decides_endFlight ‹Flight› disp code kind loc
    split
    · split
      · exact hend.trans (State.decides_onWing _ _ _)
      · exact hend
    · exact hend

theorem State.decides_followUnit (s : State) (w : Nat) (code : Code) (u : TestUnit) : State.Decides s (s.followUnit w code u) := by
  unfold State.followUnit
  dsimp only
  split
  · exact s.decides_onWing _ _
  · exact s.decides_onWing _ _
  · exact .refl s

/-- Ending the descriptors of a list, one by one, leaves none of them in flight. -/
theorem State.endFlights_spec (code : Code) (fs : List Flight) : ∀ s : State,
    State.Decides s (fs.foldl (fun s f => s.endFlight f 4 code 0 0) s) ∧
    ∀ x ∈ (fs.foldl (fun s f => s.endFlight f 4 code 0 0) s).flights, x ∉ fs := by
  induction fs with
  | nil => intro s; exact ⟨.refl s, by simp⟩
  | cons f fs ih =>
    intro s
    obtain ⟨hrest, hgone⟩ := ih (s.endFlight f 4 code 0 0)
    refine ⟨(s.decides_endFlight f 4 code 0 0).trans hrest, fun x hx => ?_⟩
    rw [List.mem_cons, not_or]
    refine ⟨fun he => ?_, hgone x hx⟩
    exact s.notMem_flights_endFlight f 4 code 0 0 (he ▸ hrest.2 x hx)

theorem State.decides_discardAll (s : State) (p : Flight → Bool) (code : Code) : State.Decides s (s.discardAll p code) :=
  (State.endFlights_spec code _ s).1

theorem State.flights_discardAll_true (s : State) (code : Code) : (s.discardAll (fun _ => true) code).flights = [] := by
  obtain ⟨⟨-, hsub⟩, hgone⟩ := State.endFlights_spec code (s.flights.filter (fun _ => true)) s
  refine List.eq_nil_iff_forall_not_mem.2 fun x hx => hgone x hx ?_
  exact List.mem_filter.2 ⟨hsub x hx, rfl⟩

/-! ### The link goes down (R332, R337) -/

/-- The link after it has gone down. -/
def Link.lost (l : Link) : Link :=
  { l with up := false, width := 0, version := 0, errCode := 0x807, replay := [], rxNak := false, cache := [], toComp := [], lines := [] }

/-- A link that goes down has LINK:0x807 recorded and nothing to send, and no descriptor stays in flight. -/
theorem State.linkDown_spec (s : State) (first : Nat) (h : s.link.up = true) :
    (s.linkDown first).link = s.link.lost ∧ (s.linkDown first).flights = [] := by
  unfold State.linkDown
  rw [if_pos h]
  dsimp only
  generalize hs1 : ({ s with link := _, cq := _ } : State) = s1
  have hl : s1.link = s.link.lost := by rw [← hs1]; rfl
  generalize hs2 : List.foldl _ s1 [0, 1] = s2
  have h2 : State.Decides s1 s2 := by
    rw [← hs2]
    refine State.decides_foldl _ (fun t v => ?_) _ _
    split
    · exact t.decides_endRunning _ _ _ _ _ _
    · exact .refl t
  have h3 := s2.decides_discardAll (fun _ => true) (linkCode 0x807)
  generalize hs4 : List.foldl _ (s2.discardAll (fun _ => true) (linkCode 0x807)) [0, 1] = s4
  have h4 : State.Decides (s2.discardAll (fun _ => true) (linkCode 0x807)) s4 := by
    rw [← hs4]
    refine State.decides_foldl _ (fun t v => ?_) _ _
    split
    · exact t.decides_followUnit _ _ _
    · exact .refl t
  refine ⟨(h2.trans (h3.trans h4)).1.trans hl, List.eq_nil_iff_forall_not_mem.2 fun x hx => ?_⟩
  have hx := h4.2 x hx
  rw [State.flights_discardAll_true] at hx
  cases hx

theorem State.linkDown_of_down (s : State) (first : Nat) (h : s.link.up = false) : s.linkDown first = s := by
  unfold State.linkDown
  rw [h, if_neg Bool.false_ne_true]

/-! ### Flits sent and answered (R332) -/

theorem Link.answer_replay (l : Link) :
    l.answer.replay = if l.replay.length < 512 then l.replay ++ [(l.txNext, 0)] else l.replay := by
  unfold Link.answer
  split <;> rfl

/-- The answer to a flit changes nothing but the replay buffer and the next number. -/
theorem Link.answer_frame (l : Link) : l.answer = { l with replay := l.answer.replay, txNext := l.answer.txNext } := by
  unfold Link.answer
  split <;> rfl

@[simp] theorem Link.answer_up (l : Link) : l.answer.up = l.up := by rw [l.answer_frame]
@[simp] theorem Link.answer_rxExpect (l : Link) : l.answer.rxExpect = l.rxExpect := by rw [l.answer_frame]
@[simp] theorem Link.answer_rxNak (l : Link) : l.answer.rxNak = l.rxNak := by rw [l.answer_frame]
@[simp] theorem Link.answer_badFlits (l : Link) : l.answer.badFlits = l.badFlits := by rw [l.answer_frame]
@[simp] theorem Link.answer_resends (l : Link) : l.answer.resends = l.resends := by rw [l.answer_frame]
@[simp] theorem Link.answer_resendSat (l : Link) : l.answer.resendSat = l.resendSat := by rw [l.answer_frame]
@[simp] theorem Link.answer_errCode (l : Link) : l.answer.errCode = l.errCode := by rw [l.answer_frame]

/-- The flits that stay unanswered after an acknowledgement up to flit k. -/
def unanswered (sent : List (BitVec 12 × Nat)) (k : BitVec 12) : List (BitVec 12 × Nat) :=
  match sent with
  | [] => []
  | e :: _ => if (k - e.1).toNat < sent.length then sent.drop ((k - e.1).toNat + 1) else sent

/-- An acknowledgement changes the replay buffer alone. -/
theorem Link.ackTo_eq (l : Link) (k : BitVec 12) : l.ackTo k = { l with replay := unanswered l.replay k } := by
  obtain ⟨r, hr⟩ : ∃ r, r = l.replay := ⟨_, rfl⟩
  unfold Link.ackTo unanswered flitDist
  rw [← hr]
  cases r with
  | nil => simp only; rw [hr]
  | cons e es =>
    simp only
    split
    · rfl
    · rw [hr]

/-- Flits with attempts left are sent once more. -/
theorem State.resendFlits_of_lt (s : State) (h : ∀ e ∈ s.link.replay, e.2 < 7) :
    s.resendFlits = { s with link := { s.link with
      replay := s.link.replay.map (fun e => (e.1, e.2 + 1)),
      resends := (satAdd s.link.resends s.link.resendSat s.link.replay.length).1,
      resendSat := (satAdd s.link.resends s.link.resendSat s.link.replay.length).2 } } := by
  unfold State.resendFlits
  dsimp only
  rw [if_neg]
  simp only [List.any_map, List.any_eq_true, Function.comp_apply, Nat.ble_eq, not_exists, not_and]
  exact fun e he => by have := h e he; omega

/-- The eighth failed attempt of a flit takes the link down. -/
theorem State.resendFlits_of_ge (s : State) (hu : s.link.up = true) (h : ∃ e ∈ s.link.replay, 7 ≤ e.2) :
    s.resendFlits.link = s.link.lost := by
  unfold State.resendFlits
  dsimp only
  rw [if_pos]
  · exact (State.linkDown_spec { s with link := { s.link with replay := s.link.replay.map (fun e => (e.1, e.2 + 1)) } } _ hu).1
  · obtain ⟨e, he, h7⟩ := h
    simp only [List.any_map, List.any_eq_true, Function.comp_apply, Nat.ble_eq]
    exact ⟨e, he, by omega⟩

/-! ### Flits that arrive (R332, R336) -/

/-- The state after a flit in order has been taken, before the acknowledgement that it carries is. -/
def State.tookFlit (s : State) (q : BitVec 12) (wf : Bool) : State :=
  { s with link := { ({ s.link with rxExpect := q + 1, rxNak := false } : Link).answer with
      errCode := if wf then s.link.errCode else 0x804#12 } }

theorem exec_flit_down (s : State) (q : BitVec 12) (crcOk wf : Bool) (ack : Option (Bool × BitVec 12)) (h : s.link.up = false) :
    exec (.tirrikFlit q crcOk ack wf) s = .next s := by
  change execTirrikFlit q crcOk ack wf s = _
  unfold execTirrikFlit
  rw [h, if_neg Bool.false_ne_true]

theorem exec_flit_badCrc (s : State) (q : BitVec 12) (wf : Bool) (ack : Option (Bool × BitVec 12)) (h : s.link.up = true) :
    exec (.tirrikFlit q false ack wf) s = .next { s with link := ({ s.link with
      badFlits := (satAdd s.link.badFlits s.link.badSat 1).1, badSat := (satAdd s.link.badFlits s.link.badSat 1).2, rxNak := true } :
      Link).answer } := by
  change execTirrikFlit q false ack wf s = _
  unfold execTirrikFlit
  rw [if_pos h]
  rfl

/-- A flit out of order is answered; a gap asks for a re-send. -/
theorem exec_flit_outOfOrder (s : State) (q : BitVec 12) (wf : Bool) (ack : Option (Bool × BitVec 12)) (h : s.link.up = true)
    (hq : q ≠ s.link.rxExpect) :
    exec (.tirrikFlit q true ack wf) s = .next { s with link := ({ s.link with
      rxNak := s.link.rxNak || decide (512 < (s.link.rxExpect - q).toNat) } : Link).answer } := by
  change execTirrikFlit q true ack wf s = _
  unfold execTirrikFlit flitDist
  rw [if_pos h, if_neg (by decide), if_pos hq]
  by_cases hd : (s.link.rxExpect - q).toNat ≤ 512
  · rw [if_pos hd, decide_eq_false (by omega), Bool.or_false]
  · rw [if_neg hd, decide_eq_true (by omega), Bool.or_true]

theorem exec_flit_inOrder (s : State) (q : BitVec 12) (wf : Bool) (ack : Option (Bool × BitVec 12)) (h : s.link.up = true)
    (hq : q = s.link.rxExpect) :
    exec (.tirrikFlit q true ack wf) s =
      .next (ack.elim (s.tookFlit q wf) (fun a => (s.tookFlit q wf).takeAnswer a.1 a.2)) := by
  have htook : (let s1 : State := { s with link := ({ s.link with rxExpect := q + 1, rxNak := false } : Link).answer }
      if wf then s1 else s1.linkEvent 0x804) = s.tookFlit q wf := by
    cases wf with
    | true =>
      unfold State.tookFlit
      rw [if_pos rfl, ← Link.answer_errCode { s.link with rxExpect := q + 1, rxNak := false }]
      rfl
    | false => rfl
  change execTirrikFlit q true ack wf s = _
  unfold execTirrikFlit
  rw [if_pos h, if_neg (by decide), if_neg fun hne => hne hq]
  dsimp only at htook ⊢
  rw [htook]
  cases ack <;> rfl

theorem State.tookFlit_replay (s : State) (q : BitVec 12) (wf : Bool) : (s.tookFlit q wf).link.replay = s.link.answer.replay := by
  unfold State.tookFlit
  simp only [Link.answer_replay]

/-- The flit's acknowledgement drops the flits up to the one it names. -/
theorem State.takeAnswer_ack (s : State) (k : BitVec 12) :
    s.takeAnswer false k = { s with link := { s.link with replay := unanswered s.link.replay k } } := by
  unfold State.takeAnswer
  rw [if_neg Bool.false_ne_true, Link.ackTo_eq]

/-- The flit's re-send request drops the flits before the one it names and sends the others again. -/
theorem State.takeAnswer_nak (s : State) (k : BitVec 12) :
    s.takeAnswer true k = ({ s with link := { s.link with replay := unanswered s.link.replay (k - 1) } } : State).resendFlits := by
  unfold State.takeAnswer
  rw [if_pos rfl, Link.ackTo_eq]

/-! ### Training (R12, R13, R333, R368) -/

/-- Reading doorbell lines asks the companion and changes nothing else. -/
def State.Asks (s t : State) : Prop := t = { s with link := { s.link with toComp := t.link.toComp } }

theorem State.Asks.refl (s : State) : State.Asks s s := rfl
theorem State.Asks.trans {s t u : State} (h : State.Asks s t) (k : State.Asks t u) : State.Asks s u := by
  unfold State.Asks at *
  rw [h] at k
  exact k
theorem State.asks_foldl {α : Type} (f : State → α → State) (hf : ∀ t a, State.Asks t (f t a)) (xs : List α) :
    ∀ s, State.Asks s (xs.foldl f s) := by
  induction xs with
  | nil => intro s; exact .refl s
  | cons a xs ih => intro s; exact (hf s a).trans (ih _)
theorem State.asks_readShared (s : State) (a : Nat) (u : CompUse) : State.Asks s (s.readShared a u) := by
  unfold State.readShared
  split <;> rfl
theorem State.asks_readDoorbells (s : State) (w : Nat) : State.Asks s (s.readDoorbells w) := by
  unfold State.readDoorbells
  refine State.Asks.trans (State.asks_foldl _ (fun t i => ?_) _ _) (State.asks_foldl _ (fun t i => ?_) _ _)
  · split
    · exact t.asks_readShared _ _
    · exact .refl t
  · split
    · exact t.asks_readShared _ _
    · exact .refl t

/-- The link as it comes up. -/
def Link.raised (l : Link) (width version : Nat) : Link :=
  { l with up := true, width := BitVec.ofNat 6 width, version := BitVec.ofNat 8 version, rxExpect := 0, rxNak := false, txNext := 0,
           replay := [], cache := [], toComp := [], lines := [] }

/-- The link comes up, and the doorbell lines are asked for. -/
theorem State.asks_linkUp (s : State) (width version : Nat) :
    State.Asks { s with link := s.link.raised width version } (s.linkUp width version) := by
  unfold State.linkUp
  refine State.asks_foldl _ (fun t v => ?_) _ _
  split
  · exact t.asks_readDoorbells _
  · exact .refl t

/-- The wing of a port's gateway is one of the two. -/
theorem wingOfGateway_lt (l : Nat) : wingOfGateway l < 2 := by
  unfold wingOfGateway
  repeat' split
  all_goals decide
theorem portWing_lt (p : Nat) (x : Port) : portWing p x < 2 := by
  unfold portWing
  repeat' split
  · exact wingOfGateway_lt _
  all_goals decide

/-- A port that starts to train. -/
def Port.started (x : Port) : Port := { x with stat := .training, phase := 1 }
/-- A port of a wing that is down starts to train. -/
def Port.startAt (p w : Nat) (x : Port) : Port := if x.stat = .down ∧ portWing p x = w then x.started else x

theorem Port.startAt_of_ne {p w : Nat} {x : Port} (h : portWing p x ≠ w) : x.startAt p w = x := if_neg fun e => h e.2

/-- The ports start one by one, each on its own. -/
theorem State.port_foldl_start (w j : Nat) (ps : List Nat) (hd : ps.Nodup) : ∀ s : State,
    (ps.foldl (fun (t : State) p =>
      if (t.port p).stat == .down && portWing p (t.port p) == w then t.onPort p Port.started else t) s).port j =
    if j ∈ ps then (s.port j).startAt j w else s.port j := by
  induction ps with
  | nil => intro s; rfl
  | cons p ps ih =>
    intro s
    rw [List.nodup_cons] at hd
    obtain ⟨hout, hnd⟩ := hd
    have hstep : (if (s.port p).stat == .down && portWing p (s.port p) == w then s.onPort p Port.started else s).port j =
        if j = p then (s.port j).startAt j w else s.port j := by
      by_cases hj : j = p
      · subst hj
        simp only [Port.startAt, Bool.and_eq_true, beq_iff_eq, if_true]
        split
        · exact Map.get_set_same _ _ _ _
        · rfl
      · rw [if_neg hj]
        split
        · exact Map.get_set_ne _ _ _ _ _ hj
        · rfl
    rw [List.foldl_cons, ih hnd, hstep]
    by_cases hj : j = p
    · subst hj
      simp [hout]
    · simp [hj]

theorem State.port_startPorts (s : State) (w : Nat) {p : Nat} (hp : p < 80) :
    (s.startPorts w).port p = (s.port p).startAt p w :=
  (State.port_foldl_start w p (List.range 80) List.nodup_range s).trans (if_pos (List.mem_range.2 hp))

theorem State.startPorts_frame (s : State) (w : Nat) : ({ s.startPorts w with ports := s.ports } : State) = s := by
  unfold State.startPorts
  induction List.range 80 generalizing s with
  | nil => rfl
  | cons p ps ih =>
    rw [List.foldl_cons]
    split
    · have h := ih (s.onPort p (fun x => { x with stat := .training, phase := 1 }))
      exact congrArg (fun t : State => { t with ports := s.ports }) h
    · exact ih s

/-- The ports of one wing start to train where the wing is in cold phase 4. -/
def State.startWing (s : State) (v : Nat) : State := if (s.wing v).phase = 4 then s.startPorts v else s

theorem State.startWing_frame (s : State) (v : Nat) : ({ s.startWing v with ports := s.ports } : State) = s := by
  unfold State.startWing
  split
  · exact s.startPorts_frame v
  · rfl
theorem State.wing_startWing (s : State) (v w : Nat) : (s.startWing v).wing w = s.wing w := by
  have h := congrArg (fun t : State => t.wing w) (s.startWing_frame v)
  exact h
/-- Of its own wing a port that is down starts to train. -/
theorem State.port_startWing_own (s : State) {v p : Nat} (hp : p < 80) (hw : portWing p (s.port p) = v) : (s.startWing v).port p =
    if (s.port p).stat = .down ∧ (s.wing v).phase = 4 then (s.port p).started else s.port p := by
  unfold State.startWing
  by_cases h4 : (s.wing v).phase = 4
  · rw [if_pos h4, s.port_startPorts v hp]
    simp only [Port.startAt, hw, h4]
  · rw [if_neg h4, if_neg fun e => h4 e.2]
/-- A port of another wing stays. -/
theorem State.port_startWing_other (s : State) {v p : Nat} (hp : p < 80) (hw : portWing p (s.port p) ≠ v) :
    (s.startWing v).port p = s.port p := by
  unfold State.startWing
  split
  · rw [s.port_startPorts v hp, Port.startAt_of_ne hw]
  · rfl

theorem State.portsAfterLink_frame (s : State) : ({ s.portsAfterLink with ports := s.ports } : State) = s := by
  have h := (s.startWing 0).startWing_frame 1
  exact (congrArg (fun t : State => { t with ports := s.ports }) h).trans (s.startWing_frame 0)

/-- Exactly the ports that are down, of the wings in cold phase 4, start to train. -/
theorem State.port_portsAfterLink (s : State) {p : Nat} (hp : p < 80) : s.portsAfterLink.port p =
    if (s.port p).stat = .down ∧ (s.wing (portWing p (s.port p))).phase = 4 then (s.port p).started else s.port p := by
  change ((s.startWing 0).startWing 1).port p = _
  obtain hw | hw : portWing p (s.port p) = 0 ∨ portWing p (s.port p) = 1 := by have := portWing_lt p (s.port p); omega
  · have hfirst := s.port_startWing_own hp hw
    rw [State.port_startWing_other _ hp, hfirst, hw]
    have hkept : portWing p ((s.startWing 0).port p) = portWing p (s.port p) := by rw [hfirst]; split <;> rfl
    omega
  · have hfirst : (s.startWing 0).port p = s.port p := s.port_startWing_other hp (by omega)
    rw [State.port_startWing_own _ hp (by rw [hfirst]; exact hw), hfirst, State.wing_startWing, hw]

/-! ### The commands of the link as they are claimed -/

/-- A flit in order has been taken: r is what stays unanswered. -/
def State.FlitTaken (s t : State) (q : BitVec 12) (wf : Bool) (r : List (BitVec 12 × Nat)) : Prop :=
  ({ t with link := s.link } : State) = s ∧ t.link.rxExpect = q + 1 ∧ t.link.rxNak = false ∧
  t.link.errCode = (if wf then s.link.errCode else 0x804#12) ∧ t.link.replay = r

theorem State.flitTaken_tookFlit (s : State) (q : BitVec 12) (wf : Bool) :
    s.FlitTaken (s.tookFlit q wf) q wf s.link.answer.replay :=
  ⟨rfl, Link.answer_rxExpect _, Link.answer_rxNak _, rfl, s.tookFlit_replay q wf⟩

/-- What the flit's acknowledgement changes does not undo its taking. -/
theorem State.FlitTaken.withReplay {s t : State} {q : BitVec 12} {wf : Bool} {r : List (BitVec 12 × Nat)} (h : s.FlitTaken t q wf r)
    (r' : List (BitVec 12 × Nat)) (n : BitVec 31) (b : Bool) :
    s.FlitTaken { t with link := { t.link with replay := r', resends := n, resendSat := b } } q wf r' := by
  obtain ⟨hframe, hseq, hnak, herr, -⟩ := h
  exact ⟨hframe, hseq, hnak, herr, rfl⟩

end Sys2Proof.Machine

namespace Sys2Proof.Claim

open Sys2Proof.Machine

theorem flit_inOrder_taken (s : State) (q : BitVec 12) (wf : Bool) (h : s.link.up = true) (hq : q = s.link.rxExpect) :
    Answers (.tirrikFlit q true none wf) s (fun t => s.FlitTaken t q wf s.link.answer.replay) :=
  ⟨_, exec_flit_inOrder s q wf none h hq, s.flitTaken_tookFlit q wf⟩

theorem flit_acknowledges (s : State) (q k : BitVec 12) (wf : Bool) (h : s.link.up = true) (hq : q = s.link.rxExpect) :
    Answers (.tirrikFlit q true (some (false, k)) wf) s (fun t =>
      s.FlitTaken t q wf (unanswered s.link.answer.replay k) ∧ t.link.resends = s.link.resends) := by
  refine ⟨_, exec_flit_inOrder s q wf _ h hq, ?_⟩
  rw [Option.elim_some, State.takeAnswer_ack, State.tookFlit_replay]
  exact ⟨(s.flitTaken_tookFlit q wf).withReplay _ _ _, Link.answer_resends _⟩

theorem flit_requests_resend (s : State) (q k : BitVec 12) (wf : Bool) (h : s.link.up = true) (hq : q = s.link.rxExpect)
    (hlt : ∀ e ∈ unanswered s.link.answer.replay (k - 1), e.2 < 7) :
    Answers (.tirrikFlit q true (some (true, k)) wf) s (fun t =>
      s.FlitTaken t q wf ((unanswered s.link.answer.replay (k - 1)).map (fun e => (e.1, e.2 + 1))) ∧
      t.link.resends = (satAdd s.link.resends s.link.resendSat (unanswered s.link.answer.replay (k - 1)).length).1) := by
  refine ⟨_, exec_flit_inOrder s q wf _ h hq, ?_⟩
  have hres : (s.tookFlit q wf).link.resends = s.link.resends := Link.answer_resends _
  have hsat : (s.tookFlit q wf).link.resendSat = s.link.resendSat := Link.answer_resendSat _
  rw [Option.elim_some, State.takeAnswer_nak, State.tookFlit_replay, State.resendFlits_of_lt _ hlt]
  refine ⟨(s.flitTaken_tookFlit q wf).withReplay _ _ _, ?_⟩
  dsimp only
  rw [hres, hsat]

theorem flit_resend_loses_link (s : State) (q k : BitVec 12) (wf : Bool) (h : s.link.up = true) (hq : q = s.link.rxExpect)
    (hge : ∃ e ∈ unanswered s.link.answer.replay (k - 1), 7 ≤ e.2) :
    Answers (.tirrikFlit q true (some (true, k)) wf) s (fun t =>
      t.link.up = false ∧ t.link.errCode = 0x807#12 ∧ t.link.replay = [] ∧ t.link.resends = s.link.resends) := by
  refine ⟨_, exec_flit_inOrder s q wf _ h hq, ?_⟩
  have hup : (s.tookFlit q wf).link.up = true := (Link.answer_up _).trans h
  rw [Option.elim_some, State.takeAnswer_nak, State.tookFlit_replay]
  dsimp only
  rw [State.resendFlits_of_ge { s.tookFlit q wf with link := { (s.tookFlit q wf).link with
    replay := unanswered s.link.answer.replay (k - 1) } } hup hge]
  exact ⟨rfl, rfl, rfl, Link.answer_resends _⟩

theorem flit_badCrc_asks_resend (s : State) (q : BitVec 12) (wf : Bool) (ack : Option (Bool × BitVec 12)) (h : s.link.up = true) :
    Answers (.tirrikFlit q false ack wf) s (fun t => ({ t with link := s.link } : State) = s ∧
      t.link.rxExpect = s.link.rxExpect ∧ t.link.rxNak = true ∧
      t.link.badFlits = (satAdd s.link.badFlits s.link.badSat 1).1 ∧ t.link.replay = s.link.answer.replay) := by
  refine ⟨_, exec_flit_badCrc s q wf ack h, rfl, Link.answer_rxExpect _, Link.answer_rxNak _, Link.answer_badFlits _, ?_⟩
  simp only [Link.answer_replay]

theorem flit_outOfOrder_answered (s : State) (q : BitVec 12) (wf : Bool) (ack : Option (Bool × BitVec 12)) (h : s.link.up = true)
    (hq : q ≠ s.link.rxExpect) :
    Answers (.tirrikFlit q true ack wf) s (fun t => ({ t with link := s.link } : State) = s ∧
      t.link.rxExpect = s.link.rxExpect ∧ t.link.rxNak = (s.link.rxNak || decide (512 < (s.link.rxExpect - q).toNat)) ∧
      t.link.badFlits = s.link.badFlits ∧ t.link.replay = s.link.answer.replay) := by
  refine ⟨_, exec_flit_outOfOrder s q wf ack h hq, rfl, Link.answer_rxExpect _, Link.answer_rxNak _, Link.answer_badFlits _, ?_⟩
  simp only [Link.answer_replay]

/-! ### No answer in time (R332) -/

theorem resendTimeout_idle (s : State) (h : s.link.up = false ∨ s.link.replay = []) : exec .tirrikResendTimeout s = .next s := by
  change execTirrikResendTimeout s = _
  unfold execTirrikResendTimeout
  rw [if_neg]
  rcases h with h | h <;> simp [h]

theorem exec_resendTimeout (s : State) (hu : s.link.up = true) (hr : s.link.replay ≠ []) :
    exec .tirrikResendTimeout s = .next s.resendFlits := by
  change execTirrikResendTimeout s = _
  unfold execTirrikResendTimeout
  rw [if_pos]
  simp [hu, hr]

theorem resendTimeout_resends (s : State) (hu : s.link.up = true) (hr : s.link.replay ≠ []) (hlt : ∀ e ∈ s.link.replay, e.2 < 7) :
    Answers .tirrikResendTimeout s (fun t =>
      ({ t with link := s.link } : State) = s ∧ t.link.replay = s.link.replay.map (fun e => (e.1, e.2 + 1)) ∧
      t.link.resends = (satAdd s.link.resends s.link.resendSat s.link.replay.length).1 ∧ t.link.up = true) := by
  refine ⟨_, exec_resendTimeout s hu hr, ?_⟩
  rw [State.resendFlits_of_lt s hlt]
  exact ⟨rfl, rfl, rfl, hu⟩

theorem resendTimeout_loses_link (s : State) (hu : s.link.up = true) (hge : ∃ e ∈ s.link.replay, 7 ≤ e.2) :
    Answers .tirrikResendTimeout s (fun t =>
      t.link.up = false ∧ t.link.errCode = 0x807#12 ∧ t.link.replay = [] ∧ t.link.resends = s.link.resends) := by
  obtain ⟨e, he, -⟩ := id hge
  refine ⟨_, exec_resendTimeout s hu (List.ne_nil_of_mem he), ?_⟩
  dsimp only
  rw [State.resendFlits_of_ge s hu hge]
  exact ⟨rfl, rfl, rfl, rfl⟩

/-! ### The link trains, retries and is lost (R13, R333, R337, R368) -/

theorem train_idle (s : State) (lanes : Nat) (v : BitVec 8) (h : s.link.up = true ∨ s.link.training = false) :
    exec (.tirrikTrain lanes v) s = .next s := by
  change execTirrikTrain lanes v s = _
  unfold execTirrikTrain
  rw [if_neg]
  rcases h with h | h <;> simp [h]

/-- The link after a training attempt has ended, before the ports follow. -/
def trained (s : State) (lanes : Nat) (v : BitVec 8) : State :=
  let s1 : State := { s with link := { s.link with training := false } }
  if lanes < 16 then s1.linkEvent 0x802
  else if v = 0 then s1.linkEvent 0x803
  else s1.linkUp (if lanes < 32 then 16 else 32) 1

theorem exec_train (s : State) (lanes : Nat) (v : BitVec 8) (hu : s.link.up = false) (ht : s.link.training = true) :
    exec (.tirrikTrain lanes v) s = .next (trained s lanes v).portsAfterLink := by
  change execTirrikTrain lanes v s = _
  unfold execTirrikTrain
  rw [if_pos]
  · rfl
  · simp [hu, ht]

theorem trained_frame (s : State) (lanes : Nat) (v : BitVec 8) : ({ trained s lanes v with link := s.link } : State) = s := by
  unfold trained
  dsimp only
  split
  · rfl
  · split
    · rfl
    · rw [State.asks_linkUp]

/-- A training attempt with 16 lanes or more and a version in common brings the link up (R12, R13). -/
theorem trained_up (s : State) (lanes : Nat) (v : BitVec 8) (hl : 16 ≤ lanes) (hv : v ≠ 0) :
    (trained s lanes v).link.up = true ∧ (trained s lanes v).link.training = false ∧ (trained s lanes v).link.version = 1 ∧
    (trained s lanes v).link.width = (if lanes < 32 then 16 else 32) ∧ (trained s lanes v).link.rxExpect = 0 ∧
    (trained s lanes v).link.txNext = 0 ∧ (trained s lanes v).link.replay = [] := by
  unfold trained
  dsimp only
  rw [if_neg (by omega), if_neg hv, State.asks_linkUp]
  refine ⟨rfl, rfl, rfl, ?_, rfl, rfl, rfl⟩
  change BitVec.ofNat 6 (if lanes < 32 then 16 else 32) = _
  split <;> rfl

theorem train_ends (s : State) (lanes : Nat) (v : BitVec 8) (hu : s.link.up = false) (ht : s.link.training = true) :
    Answers (.tirrikTrain lanes v) s (fun t =>
      ({ t with link := s.link, ports := s.ports } : State) = s ∧
      (∀ p, p < 80 → t.port p =
        if (s.port p).stat = .down ∧ (s.wing (portWing p (s.port p))).phase = 4 then { s.port p with stat := .training, phase := 1 }
        else s.port p) ∧
      (lanes < 16 → t.link = { s.link with training := false, errCode := 0x802#12 }) ∧
      (16 ≤ lanes → v = 0 → t.link = { s.link with training := false, errCode := 0x803#12 }) ∧
      (16 ≤ lanes → v ≠ 0 → t.link.up = true ∧ t.link.training = false ∧ t.link.version = 1 ∧
        t.link.width = (if lanes < 32 then 16 else 32) ∧ t.link.rxExpect = 0 ∧ t.link.txNext = 0 ∧ t.link.replay = [])) := by
  refine ⟨_, exec_train s lanes v hu ht, ?_⟩
  have hframe := trained_frame s lanes v
  have hports : (trained s lanes v).ports = s.ports := by have h := congrArg State.ports hframe; exact h
  have hport : ∀ p, (trained s lanes v).port p = s.port p := fun p => by unfold State.port; rw [hports]
  have hwing : ∀ w, (trained s lanes v).wing w = s.wing w := fun w => by
    have h := congrArg (fun t : State => t.wing w) hframe
    exact h
  have hafter := (trained s lanes v).portsAfterLink_frame
  have hlink : (trained s lanes v).portsAfterLink.link = (trained s lanes v).link := by
    have h := congrArg State.link hafter
    exact h
  rw [hports] at hafter
  dsimp only
  rw [hlink]
  refine ⟨?_, fun p hp => ?_, fun hl => ?_, fun hl hv => ?_, trained_up s lanes v⟩
  · have h := congrArg (fun t : State => { t with link := s.link }) hafter
    exact h.trans hframe
  · rw [State.port_portsAfterLink _ hp, hport, hwing]
    rfl
  · unfold trained
    rw [if_pos hl]
    rfl
  · unfold trained
    rw [if_neg (by omega), if_pos hv]
    rfl

theorem trainRetry_up (s : State) (h : s.link.up = true) : exec .tirrikTrainRetry s = .next s := by
  change execTirrikTrainRetry s = _
  unfold execTirrikTrainRetry
  rw [if_neg (by simp [h])]

theorem trainRetry_trains (s : State) (hu : s.link.up = false) (h : 4 ≤ s.west.phase.toNat ∨ 4 ≤ s.east.phase.toNat) :
    exec .tirrikTrainRetry s = .next { s with link := { s.link with training := true } } := by
  change execTirrikTrainRetry s = _
  unfold execTirrikTrainRetry
  rw [if_pos (by simpa [hu] using h)]

theorem trainRetry_early (s : State) (hw : s.west.phase.toNat < 4) (he : s.east.phase.toNat < 4) :
    exec .tirrikTrainRetry s = .next s := by
  change execTirrikTrainRetry s = _
  unfold execTirrikTrainRetry
  rw [if_neg]
  simp only [Bool.and_eq_true, Bool.or_eq_true, Nat.ble_eq, not_and, not_or]
  exact fun _ => ⟨by omega, by omega⟩

theorem laneLoss_idle (s : State) (lanes : Nat) (h : 16 ≤ lanes ∨ s.link.up = false) :
    exec (.tirrikLaneLoss lanes) s = .next s := by
  change execTirrikLaneLoss lanes s = _
  unfold execTirrikLaneLoss
  rcases h with h | h
  · rw [if_neg (by omega)]
  · rw [State.linkDown_of_down _ _ h, ite_self]

theorem laneLoss_takes_link_down (s : State) (lanes : Nat) (hu : s.link.up = true) (h : lanes < 16) :
    Answers (.tirrikLaneLoss lanes) s (fun t =>
      t.link.up = false ∧ t.link.width = 0 ∧ t.link.version = 0 ∧ t.link.errCode = 0x807#12 ∧ t.link.replay = [] ∧ t.link.cache = [] ∧
      t.link.toComp = [] ∧ t.flights = []) := by
  obtain ⟨hlink, hflights⟩ := s.linkDown_spec 0x807 hu
  refine ⟨s.linkDown 0x807, ?_, ?_⟩
  · change execTirrikLaneLoss lanes s = _
    unfold execTirrikLaneLoss
    rw [if_pos h]
  · dsimp only
    rw [hlink]
    exact ⟨rfl, rfl, rfl, rfl, rfl, rfl, rfl, hflights⟩

end Sys2Proof.Claim

namespace Sys2Proof.Proofs

open Sys2Proof.Machine Sys2Proof.Claim

/-- Settles O36, event by event: a flit by its CRC, its number and the answer that it carries, then the timeout, the training of
the link, its retry and the loss of lanes. -/
theorem flitsAndTraining : Obligations.FlitsAndTraining := by
  unfold Obligations.FlitsAndTraining
  refine ⟨fun s q crcOk wf ack => ?_,
    fun s => ⟨resendTimeout_idle s, resendTimeout_resends s, resendTimeout_loses_link s⟩,
    fun s lanes v => ⟨train_idle s lanes v, train_ends s lanes v⟩,
    fun s => ⟨trainRetry_up s, trainRetry_trains s, trainRetry_early s⟩,
    fun s lanes => ⟨laneLoss_idle s lanes, laneLoss_takes_link_down s lanes⟩⟩
  intro l sent upTo only i
  have hsent : sent = l.answer.replay := l.answer_replay.symm
  have hupTo : ∀ k, upTo k = unanswered l.answer.replay k := fun k => by rw [← hsent]; rfl
  refine ⟨exec_flit_down s q crcOk wf ack, ?_, ?_, ?_⟩
  · rintro hu rfl
    rw [hsent]
    exact flit_badCrc_asks_resend s q wf ack hu
  · rintro hu rfl hq
    rw [hsent]
    exact flit_outOfOrder_answered s q wf ack hu hq
  · rintro hu rfl hq good
    refine ⟨?_, ?_, ?_⟩
    · rintro rfl
      rw [hsent]
      exact flit_inOrder_taken s q wf hu hq
    · rintro k rfl
      rw [hupTo]
      exact flit_acknowledges s q k wf hu hq
    · rintro k rfl
      rw [hupTo]
      exact ⟨flit_requests_resend s q k wf hu hq, flit_resend_loses_link s q k wf hu hq⟩

end Sys2Proof.Proofs
end

section
/-! PROOFS. The geometry registers (R41, R43): a set-up read of a register of the plinth block. -/

namespace Sys2Proof.Machine

/-- A set-up read of an aligned register of the plinth block is answered with the register, and changes nothing else (R359, R361). -/
theorem exec_setupRd_plinth (s : State) (a : BitVec 64) (hu : s.link.up = true) (ha : a.toNat < 0x100000) (h8 : a.toNat % 8 = 0) :
    exec (.setupRd a 8) s = .next { s with link := { s.link with
      toComp := s.link.toComp ++ [.setupResp 0 (BitVec.ofNat 512 (s.readPlinth s.ownIndexes a.toNat))] } } := by
  have hread : s.setupRead a.toNat = .ok (s.readPlinth s.ownIndexes a.toNat) := by
    unfold State.setupRead setupBlock
    rw [if_pos ha]
  change execSetupRd a 8 s = _
  unfold execSetupRd State.access
  rw [if_pos hu, if_pos (by omega), if_pos ⟨rfl, h8⟩, hread]
  rfl

/-- The first 256 bytes of the plinth block hold no register but the geometry ones. -/
theorem State.readPlinth_geometry (s : State) (ix : Indexes) (off : Nat) (h : off < 0x100) :
    s.readPlinth ix off = s.readPlinth1 off := by
  unfold State.readPlinth
  iterate 8 rw [if_neg (by omega)]

end Sys2Proof.Machine

namespace Sys2Proof.Proofs

open Sys2Proof.Machine Sys2Proof.Claim

/-- Settles O37: each geometry register is one of the plinth block, whose read does not depend on the state. -/
theorem geometryReadsAsTabled : Obligations.GeometryReadsAsTabled := by
  unfold Obligations.GeometryReadsAsTabled
  intro s hu answers
  have reads (off d : Nat) (h : off < 0x100) (h8 : off % 8 = 0) (hd : s.readPlinth1 off = d) : answers off d := by
    have hoff : (BitVec.ofNat 64 off).toNat = off := Nat.mod_eq_of_lt (by omega)
    change exec _ s = _
    rw [exec_setupRd_plinth s _ hu (by omega) (by omega), hoff, s.readPlinth_geometry _ off h, hd]
  exact ⟨reads _ _ (by decide) rfl rfl, reads _ _ (by decide) rfl rfl, reads _ _ (by decide) rfl rfl⟩

end Sys2Proof.Proofs
end

section
/-! PROOFS. A command that names a unit which does not exist, and answers a next state all the same (R22; log 7). -/

namespace Sys2Proof.Proofs

open Sys2Proof.Machine Sys2Proof.Claim

/-- A late beat whose first late arrival is said to come from core 832, which no module has: columns end at 831 (R22). -/
def strayBeat : Instr := .beat 0 { late := some 1, lateFrom := some (832, false) }

theorem strayBeat_not_wf : strayBeat.wf = false := by decide

/-- After reset coupling is not released (R50), so the stray beat does not begin, and answers the reset state. -/
theorem exec_strayBeat_reset : exec strayBeat State.reset = .next State.reset := by
  change execBeat 0 _ State.reset = _
  unfold execBeat
  rw [atCore_valid _ (by decide), if_neg (by decide)]

/-- Refutes O2: a BEAT that names a late sender which is no core is not well formed, and yet answers a next state. -/
theorem not_commandsAnswerAndKeepQueue : ¬ Obligations.CommandsAnswerAndKeepQueue := by
  unfold Obligations.CommandsAnswerAndKeepQueue
  rintro ⟨hanswers, -⟩
  have hrefused := (hanswers strayBeat State.reset).2 strayBeat_not_wf
  rw [exec_strayBeat_reset] at hrefused
  cases hrefused

end Sys2Proof.Proofs
end

section
/-! PROOFS. What the end of a step leaves of the wings and of the descriptors in flight (R168, R209, R356). -/

namespace Sys2Proof.Machine

/-! ### Wings -/

/-- The end of a step changes of a wing its cores, its fabric state and its record of what ran and what is to follow; where the
step was not its own, what runs on it stays. -/
def WingState.Closed (own : Prop) (x y : WingState) : Prop :=
  y = { x with base := y.base, cores := y.cores, lastCommitted := y.lastCommitted, power := y.power, boundaryRun := y.boundaryRun,
               fab := y.fab, loading := y.loading, window := y.window, level := y.level, drain := y.drain, run := y.run, pass := y.pass } ∧
  (own ∨ (y.run = x.run ∧ y.pass = x.pass))

theorem WingState.Closed.refl (own : Prop) (x : WingState) : WingState.Closed own x x := ⟨rfl, .inr ⟨rfl, rfl⟩⟩
theorem WingState.Closed.trans {own : Prop} {x y z : WingState} (h : WingState.Closed own x y) (k : WingState.Closed own y z) :
    WingState.Closed own x z := by
  obtain ⟨hxy, hrun⟩ := h
  obtain ⟨hyz, krun⟩ := k
  refine ⟨?_, ?_⟩
  · rw [hyz, hxy]
  · rcases hrun with ho | ⟨hr, hp⟩
    · exact .inl ho
    · exact krun.imp_right fun ⟨kr, kp⟩ => ⟨kr.trans hr, kp.trans hp⟩
/-- What a change makes of a wing whose step it does not end, it may make of any wing. -/
theorem WingState.Closed.of_other {own : Prop} {x y : WingState} (h : WingState.Closed False x y) : WingState.Closed own x y :=
  ⟨h.1, .inr (h.2.resolve_left id)⟩

/-- Between two states every wing is closed as the end of a step on wing w leaves it. -/
def State.Closes (w : Nat) (s t : State) : Prop := ∀ v, WingState.Closed (v = 0 ↔ w = 0) (s.wing v) (t.wing v)

theorem State.Closes.refl (w : Nat) (s : State) : State.Closes w s s := fun _ => .refl _ _
theorem State.Closes.trans {w : Nat} {s t u : State} (h : State.Closes w s t) (k : State.Closes w t u) : State.Closes w s u :=
  fun v => (h v).trans (k v)
theorem State.closes_foldl {α : Type} (w : Nat) (f : State → α → State) (hf : ∀ t a, State.Closes w t (f t a)) (xs : List α) :
    ∀ s, State.Closes w s (xs.foldl f s) := by
  induction xs with
  | nil => intro s; exact .refl w s
  | cons a xs ih => intro s; exact (hf s a).trans (ih _)

theorem State.closes_onWing (w v : Nat) (s : State) (f : WingState → WingState) (hf : ∀ x, WingState.Closed False x (f x)) :
    State.Closes w s (s.onWing v f) := by
  intro u
  rw [State.wing_onWing]
  split
  · exact (hf _).of_other
  · exact .refl _ _
theorem State.closes_onWing_own (w : Nat) (s : State) (f : WingState → WingState) (hf : ∀ x, WingState.Closed True x (f x)) :
    State.Closes w s (s.onWing w f) := by
  intro u
  rw [State.wing_onWing]
  split
  · exact ⟨(hf _).1, .inl ‹_›⟩
  · exact .refl _ _
theorem State.closes_onWings (w v : Nat) (s : State) (f : WingState → WingState) (hf : ∀ x, WingState.Closed False x (f x)) :
    State.Closes w s (s.onWings v f) :=
  State.closes_foldl w _ (fun t u => State.closes_onWing w u t f hf) _ s
theorem State.closes_onCore (w : Nat) (s : State) (k : Nat) (f : Core → Core) : State.Closes w s (s.onCore k f) :=
  State.closes_onWing w _ s _ fun _ => ⟨rfl, .inr ⟨rfl, rfl⟩⟩
theorem State.closes_mapCores (w v : Nat) (s : State) (f : Core → Core) : State.Closes w s (s.mapCores v f) :=
  State.closes_onWings w v s _ fun _ => ⟨rfl, .inr ⟨rfl, rfl⟩⟩
theorem State.Sent.closes {s t : State} (h : State.Sent s t) (w : Nat) : State.Closes w s t := by
  intro v
  rw [h.wing v]
  exact ⟨rfl, .inr ⟨rfl, rfl⟩⟩
theorem State.Settled.closes {s t : State} (h : State.Settled s t) (w : Nat) : State.Closes w s t := by
  intro v
  rw [h.wing v]
  exact .refl _ _
theorem State.closes_flushDeferred (w : Nat) (s : State) : State.Closes w s s.flushDeferred := by
  intro v
  obtain ⟨b, hb⟩ := s.wing_flushDeferred v
  rw [hb]
  exact ⟨rfl, .inr ⟨rfl, rfl⟩⟩

theorem WingState.closed_keepPeak (x : WingState) : WingState.Closed False x x.keepPeak := by
  unfold WingState.keepPeak
  split
  · split
    · exact .refl _ _
    · exact ⟨rfl, .inr ⟨rfl, rfl⟩⟩
  · exact .refl _ _
theorem WingState.closed_askDrain (x : WingState) (d : DrainRun) : WingState.Closed False x (x.askDrain d) := by
  unfold WingState.askDrain
  split
  · exact .refl _ _
  · exact ⟨rfl, .inr ⟨rfl, rfl⟩⟩

theorem WingState.closed_noRun (x : WingState) :
    WingState.Closed True x { x with run := none, pass := none, boundaryRun := true } := ⟨rfl, .inl trivial⟩

theorem State.closes_closeStep (s : State) (w : Nat) (b : Bool) : State.Closes (s.lead w) s (s.closeStep w b) := by
  unfold State.closeStep
  dsimp only
  split
  · have hcores := State.closes_mapCores (s.lead w) w s (fun c => c.afterStep b)
    have hcommitted := State.closes_onWings (s.lead w) w (s.mapCores w fun c => c.afterStep b)
      (fun x => { x with lastCommitted := b }) fun _ => ⟨rfl, .inr ⟨rfl, rfl⟩⟩
    refine hcores.trans (hcommitted.trans (State.Closes.trans (State.closes_onWing_own _ _ _ fun x => ?_)
      (State.closes_flushDeferred _ _)))
    exact x.closed_keepPeak.of_other.trans x.keepPeak.closed_noRun
  · exact .refl _ s
theorem State.closes_undoLoad (w : Nat) (s : State) (f : Flight) : State.Closes w s (s.undoLoad f) := by
  unfold State.undoLoad
  exact (State.closes_foldl w _ (fun t (e : Nat × Nat) => State.closes_onCore w t _ _) _ s).trans
    (State.closes_onWing _ _ _ _ fun _ => ⟨rfl, .inr ⟨rfl, rfl⟩⟩)
theorem State.closes_dropColl (w : Nat) (s : State) (f : Flight) : State.Closes w s (s.dropColl f) := by
  unfold State.dropColl
  split
  · exact ((State.abandonFlows_sent _ _ _).trans (State.sent_onFab _ _ _)).closes w
  · exact .refl w s
/-- The work of a descriptor dropped closes its wing's step alone. -/
theorem State.closes_dropWork (s : State) (f : Flight) : State.Closes (s.lead f.wing) s (s.dropWork f) := by
  have hsent := s.abandonStep_sent f.wing
  have hclose := (s.abandonStep f.wing).closes_closeStep f.wing false
  rw [hsent.ended.lead] at hclose
  unfold State.dropWork
  dsimp only
  split
  · exact State.closes_dropColl _ s f
  · split
    · refine ((hsent.closes _).trans hclose).trans (State.Closes.trans ?_ (State.closes_onWing _ _ _ _ fun _ => ⟨rfl, .inr ⟨rfl, rfl⟩⟩))
      split
      · exact State.closes_undoLoad _ _ f
      · exact .refl _ _
    · exact .refl _ s
theorem State.closes_endFlight (s : State) (f : Flight) (disp : Nat) (code : Code) (kind loc : Nat) :
    State.Closes (s.lead f.wing) s (s.endFlight f disp code kind loc) :=
  (s.closes_dropWork f).trans (((s.dropWork f).settleFlight_spec _ disp code kind loc).1.closes _)

/-! ### Descriptors in flight -/

/-- What the end of a step on wing w does outside the wings: some descriptors leave, each of a ring that has one of wing w; records
join the completion rings; and the health registers stay. -/
structure State.Leaves (w : Nat) (s t : State) : Prop where
  split : t.split = s.split
  sq : t.sq = s.sq
  health : t.health = s.health
  waiting : ∀ j, ∃ rs, (t.cring j).waiting = (s.cring j).waiting ++ rs
  flights : ∃ stays : Flight → Bool, t.flights = s.flights.filter stays ∧
    ∀ f ∈ s.flights, stays f = false → ∃ g ∈ s.flights, g.wing = w ∧ g.ring = f.ring

/-- A change that keeps the descriptors in flight and the rings. -/
theorem State.Leaves.of_same {s t : State} (w : Nat) (hsplit : t.split = s.split) (hsq : t.sq = s.sq) (hhealth : t.health = s.health)
    (hcring : ∀ j, t.cring j = s.cring j) (hflights : t.flights = s.flights) : State.Leaves w s t :=
  ⟨hsplit, hsq, hhealth, fun j => ⟨[], by rw [hcring, List.append_nil]⟩, fun _ => true,
    hflights.trans (List.filter_eq_self.2 fun _ _ => rfl).symm, fun _ _ h => Bool.noConfusion h⟩
theorem State.Leaves.refl (w : Nat) (s : State) : State.Leaves w s s := .of_same w rfl rfl rfl (fun _ => rfl) rfl
theorem State.Leaves.mem {w : Nat} {s t : State} (h : State.Leaves w s t) {f : Flight} (hf : f ∈ t.flights) : f ∈ s.flights := by
  obtain ⟨stays, hstays, -⟩ := h.flights
  rw [hstays] at hf
  exact (List.mem_filter.1 hf).1
theorem State.Leaves.trans {w : Nat} {s t u : State} (h : State.Leaves w s t) (k : State.Leaves w t u) : State.Leaves w s u := by
  refine ⟨k.split.trans h.split, k.sq.trans h.sq, k.health.trans h.health, fun j => ?_, ?_⟩
  · obtain ⟨a, ha⟩ := h.waiting j
    obtain ⟨b, hb⟩ := k.waiting j
    exact ⟨a ++ b, by rw [hb, ha, List.append_assoc]⟩
  · obtain ⟨p, hp, hgone⟩ := h.flights
    obtain ⟨q, hq, kgone⟩ := k.flights
    refine ⟨fun f => p f && q f, ?_, fun f hf hpq => ?_⟩
    · rw [hq, hp, List.filter_filter]
      exact List.filter_congr fun f _ => Bool.and_comm _ _
    · cases hpf : p f with
      | false => exact hgone f hf hpf
      | true =>
        have hqf : q f = false := by simpa [hpf] using hpq
        obtain ⟨g, hg, hw⟩ := kgone f (by rw [hp]; exact List.mem_filter.2 ⟨hf, hpf⟩) hqf
        exact ⟨g, h.mem hg, hw⟩
theorem State.leaves_onWing (w v : Nat) (s : State) (f : WingState → WingState) : State.Leaves w s (s.onWing v f) :=
  .of_same w (State.onWing_split ..) (State.onWing_sq ..) (State.onWing_health ..)
    (fun j => by unfold State.cring; rw [State.onWing_cq]) (State.onWing_flights ..)
theorem State.Ended.leaves {s t : State} (h : State.Ended s t) (w : Nat) : State.Leaves w s t :=
  .of_same w h.split h.sq (by have hh := congrArg State.health h; exact hh) h.cring h.flights
/-- The outcome of a descriptor whose ring has one of wing w takes those of its name out of flight. -/
theorem State.Leaves.settleFlight {w : Nat} {r s : State} (h : State.Leaves w r s) (f : Flight) (disp : Nat) (code : Code)
    (kind loc : Nat) (hf : ∃ g ∈ r.flights, g.wing = w ∧ g.ring = f.ring) : State.Leaves w r (s.settleFlight f disp code kind loc) := by
  obtain ⟨⟨-, -, hrings⟩, hflights, -⟩ := s.settleFlight_spec f disp code kind loc
  obtain ⟨stays, hstays, hgone⟩ := h.flights
  refine ⟨h.split, h.sq, h.health, fun j => ?_, fun x => stays x && !x.named f.ring f.seq, ?_, fun x hx hleft => ?_⟩
  · obtain ⟨a, ha⟩ := h.waiting j
    obtain ⟨b, hb⟩ := hrings j
    exact ⟨a ++ b, by rw [hb, ha, List.append_assoc]⟩
  · rw [hflights, hstays, List.filter_filter]
    exact List.filter_congr fun x _ => Bool.and_comm _ _
  · cases hsx : stays x with
    | false => exact hgone x hx hsx
    | true =>
      have hnamed : x.ring = f.ring ∧ x.seq = f.seq := by simpa [hsx, Flight.named] using hleft
      rw [hnamed.1]
      exact hf
theorem State.leaves_endFlight (s : State) (f : Flight) (disp : Nat) (code : Code) (kind loc : Nat) (hf : f ∈ s.flights) :
    State.Leaves f.wing s (s.endFlight f disp code kind loc) :=
  ((s.ended_dropWork f).leaves f.wing).settleFlight _ _ _ _ _ ⟨f, hf, rfl, rfl⟩
/-- A discard of descriptors of wing w. -/
theorem State.leaves_discard (w : Nat) (s : State) (p : Flight → Bool) (code : Code) (hp : ∀ f, p f = true → f.wing = w) :
    State.Leaves w s (s.discard p code) := by
  have outcomes (fs : List Flight) : (∀ f ∈ fs, f ∈ s.flights ∧ f.wing = w) → ∀ t : State, State.Leaves w s t →
      State.Leaves w s (fs.foldl (fun t f => t.settleFlight { f with status := 0 } 4 code 0 0) t) := by
    induction fs with
    | nil => exact fun _ _ h => h
    | cons f fs ih =>
      intro hfs t h
      obtain ⟨hf, hw⟩ := hfs f List.mem_cons_self
      exact ih (fun g hg => hfs g (List.mem_cons_of_mem _ hg)) _ (h.settleFlight _ _ _ _ _ ⟨f, hf, hw, rfl⟩)
  exact outcomes _ (fun f hf => ⟨(List.mem_filter.1 hf).1, hp f (List.mem_filter.1 hf).2⟩) s (.refl w s)

/-! ### A fault on the array of a wing -/

theorem State.runningArray_some {s : State} {w : Nat} {f : Flight} (h : s.runningArray w = some f) :
    f ∈ s.flights ∧ f.cls = .array ∧ f.stage = .running ∧ f.wing = w := by
  have hp := List.find?_some h
  simp only [Bool.and_eq_true, beq_iff_eq] at hp
  obtain ⟨⟨hcls, hstage⟩, hw⟩ := hp
  exact ⟨List.mem_of_find?_eq_some h, hcls, hstage, hw⟩

theorem State.endRunning_on (s : State) (w disp : Nat) (code : Code) (kind loc : Nat) (cause : Option (BitVec 2)) :
    State.Closes (s.lead w) s (s.endRunning w disp code kind loc cause) ∧
    State.Leaves (s.lead w) s (s.endRunning w disp code kind loc cause) := by
  unfold State.endRunning
  dsimp only
  split
  · exact ⟨.refl _ s, .refl _ s⟩
  · next f hf =>
    obtain ⟨hmem, -, -, hw⟩ := State.runningArray_some hf
    have hclose := s.closes_endFlight f disp code kind loc
    rw [hw, State.lead_lead] at hclose
    have hleave := s.leaves_endFlight f disp code kind loc hmem
    rw [hw] at hleave
    split
    · split
      · exact ⟨hclose.trans (State.closes_onWing _ _ _ _ fun x => x.closed_askDrain _), hleave.trans (State.leaves_onWing _ _ _ _)⟩
      · exact ⟨hclose, hleave⟩
    · exact ⟨hclose, hleave⟩
theorem State.endArray_on (s : State) (w : Nat) (code : Code) (kind loc : Nat) (drains : Bool) :
    State.Closes (s.lead w) s (s.endArray w code kind loc drains) ∧ State.Leaves (s.lead w) s (s.endArray w code kind loc drains) := by
  unfold State.endArray
  dsimp only
  split
  · exact ⟨.refl _ s, .refl _ s⟩
  · obtain ⟨hclose, hleave⟩ := s.endRunning_on w 2 code kind loc (if drains then some 1 else none)
    refine ⟨hclose.trans ((State.discard_spec _ _ _).1.closes _), hleave.trans (State.leaves_discard _ _ _ _ fun f hf => ?_)⟩
    simp only [Bool.and_eq_true, beq_iff_eq] at hf
    exact hf.2
/-- The end of a step on a wing closes that wing's step alone, and takes only descriptors of that wing's rings out of flight. -/
theorem State.endStep_on (s : State) (w : Nat) (code : Code) (kind loc : Nat) (drains : Bool) :
    State.Closes (s.lead w) s (s.endStep w code kind loc drains) ∧ State.Leaves (s.lead w) s (s.endStep w code kind loc drains) := by
  unfold State.endStep
  split
  · exact s.endArray_on w code kind loc drains
  · exact ⟨.refl _ s, .refl _ s⟩

/-- The descriptor that runs on another wing goes on, where its ring serves that wing alone. -/
theorem State.Leaves.runningArray {w v : Nat} {s t : State} (h : State.Leaves w s t) {g : Flight} (hg : s.runningArray v = some g)
    (hv : v ≠ w) (hr : ∀ f ∈ s.flights, f.ring = g.ring → f.wing = g.wing) : t.runningArray v = some g := by
  obtain ⟨stays, hstays, hgone⟩ := h.flights
  obtain ⟨hmem, -, -, hw⟩ := State.runningArray_some hg
  have hstay : stays g = true := by
    cases hleft : stays g with
    | true => rfl
    | false =>
      obtain ⟨f, hf, hfw, hfr⟩ := hgone g hmem hleft
      exact absurd (hw.symm.trans ((hr f hf hfr).symm.trans hfw)) hv
  unfold State.runningArray at *
  rw [List.find?_eq_some_iff_append] at hg
  obtain ⟨hp, before, after, hsplit, hbefore⟩ := hg
  rw [hstays, hsplit, List.filter_append, List.filter_cons_of_pos hstay, List.find?_eq_some_iff_append]
  exact ⟨hp, _, _, rfl, fun f hf => hbefore f (List.mem_filter.1 hf).1⟩

end Sys2Proof.Machine

namespace Sys2Proof.Claim

open Sys2Proof.Machine

/-- A step that has ended stays so when the step of the other wing ends. -/
theorem StepEnds.later {w v : Nat} {s t u : State} {code : Code} {kind loc : Nat} (h : StepEnds w s t code kind loc)
    (hc : State.Closes v t u) (hl : State.Leaves v t u) (hv : ¬ (s.lead w = 0 ↔ v = 0)) : StepEnds w s u code kind loc := by
  intro g hrun hg
  obtain ⟨hgone, ⟨r, hr, hrec⟩, hnone, hpass⟩ := h g hrun hg
  obtain ⟨rs, hrs⟩ := hl.waiting (s.sring g.ring).cq.toNat
  obtain ⟨krun, kpass⟩ := (hc (s.lead w)).2.resolve_left hv
  exact ⟨fun f hf => hgone f (hl.mem hf), ⟨r, by rw [hrs]; exact List.mem_append_left _ hr, hrec⟩, krun.trans hnone, kpass.trans hpass⟩

/-- The step of a wing ends as it would have ended before the step of the other wing did. -/
theorem StepEnds.earlier {w v : Nat} {s t u : State} {code : Code} {kind loc : Nat} (h : StepEnds w t u code kind loc)
    (hc : State.Closes v s t) (hl : State.Leaves v s t) (hv : ¬ (s.lead w = 0 ↔ v = 0)) (hr : RingApart w s) :
    StepEnds w s u code kind loc := by
  intro g hrun hg
  have hlead : t.lead w = s.lead w := by unfold State.lead; rw [hl.split]
  have hsring : t.sring g.ring = s.sring g.ring := by unfold State.sring; rw [hl.sq]
  obtain ⟨krun, kpass⟩ := (hc (s.lead w)).2.resolve_left hv
  have hruns : t.stepRuns w = true := by
    unfold State.stepRuns at *
    rw [hlead, krun, kpass]
    exact hrun
  have hrunning : t.runningArray (t.lead w) = some g := by
    rw [hlead]
    exact hl.runningArray hg (fun e => hv (by rw [e])) (hr g hg)
  have hend := h g hruns hrunning
  rw [hlead, hsring] at hend
  exact hend

end Sys2Proof.Claim
end

section
/-! PROOFS. What verdicts, repairs and tests leave of the counts and halts of step boundaries (R382, R387 to R401, R476). -/

namespace Sys2Proof.Machine

/-! ### The boundary registers of a wing -/

/-- The count of step boundaries of a wing, with its debug halt in force and pending (R382, R476). -/
def WingState.boundaryRegs (x : WingState) : BitVec 32 × Bool × Bool := (x.boundaries, x.halted, x.haltPending)

/-- The boundary registers of wing l stay while it leads itself. Where split mode is formed, the east wing begins to lead itself
and takes the registers of the west one, so the rule speaks of a wing that led itself before. -/
def State.KeepsBoundary (l : Nat) (s t : State) : Prop :=
  s.lead l = l → t.lead l = l ∧ (t.wing l).boundaryRegs = (s.wing l).boundaryRegs

theorem State.KeepsBoundary.refl (l : Nat) (s : State) : State.KeepsBoundary l s s := fun h => ⟨h, rfl⟩
theorem State.KeepsBoundary.trans {l : Nat} {s t u : State} (h : State.KeepsBoundary l s t) (k : State.KeepsBoundary l t u) :
    State.KeepsBoundary l s u := fun hs => by
  obtain ⟨ht, hregs⟩ := h hs
  obtain ⟨hu, kregs⟩ := k ht
  exact ⟨hu, kregs.trans hregs⟩
theorem State.keepsBoundary_foldl {α : Type} (l : Nat) (f : State → α → State) (hf : ∀ t a, State.KeepsBoundary l t (f t a))
    (xs : List α) : ∀ s, State.KeepsBoundary l s (xs.foldl f s) := by
  induction xs with
  | nil => intro s; exact .refl l s
  | cons a xs ih => intro s; exact (hf s a).trans (ih _)

/-- A change outside the wings and the mode. -/
theorem State.KeepsBoundary.of_outside {s t : State} (l : Nat) (hs : t.split = s.split) (hw : t.west = s.west) (he : t.east = s.east) :
    State.KeepsBoundary l s t := fun h => by
  unfold State.lead State.wing at *
  rw [hs, hw, he]
  exact ⟨h, rfl⟩
theorem State.KeepsBoundary.ite {l : Nat} {s t u : State} (c : Prop) [Decidable c] (h : State.KeepsBoundary l s t)
    (k : State.KeepsBoundary l s u) : State.KeepsBoundary l s (if c then t else u) := by
  split
  · exact h
  · exact k
theorem State.keepsBoundary_onWing (l : Nat) (s : State) (w : Nat) (f : WingState → WingState)
    (hf : ∀ x, (f x).boundaryRegs = x.boundaryRegs) : State.KeepsBoundary l s (s.onWing w f) := fun h => by
  rw [State.lead_onWing, State.wing_onWing]
  refine ⟨h, ?_⟩
  split
  · exact hf _
  · rfl
theorem State.keepsBoundary_onCore (l : Nat) (s : State) (k : Nat) (f : Core → Core) : State.KeepsBoundary l s (s.onCore k f) :=
  s.keepsBoundary_onWing l _ _ fun _ => rfl
theorem State.keepsBoundary_logEntry (l : Nat) (s : State) (w : Nat) (code : Code) (kind loc verdict : Nat) (pack : Bool) (result : Code) :
    State.KeepsBoundary l s (s.logEntry w code kind loc verdict pack result) := .of_outside l rfl rfl rfl
theorem State.keepsBoundary_attend (l : Nat) (s : State) (w : Nat) : State.KeepsBoundary l s (s.attend w) :=
  (s.keepsBoundary_onWing l w (fun x => { x with attn := true }) fun _ => rfl).trans (.of_outside l rfl rfl rfl)
theorem State.keepsBoundary_putEntry (l : Nat) (s : State) (e : SpallEntry) : State.KeepsBoundary l s (s.putEntry e) :=
  .of_outside l rfl rfl rfl
theorem State.keepsBoundary_onUnit (l : Nat) (s : State) (u : TestUnit) (f : UnitHealth → UnitHealth) :
    State.KeepsBoundary l s (s.onUnit u f) := .of_outside l rfl rfl rfl
theorem State.keepsBoundary_showCore (l : Nat) (s : State) (u : TestUnit) : State.KeepsBoundary l s (s.showCore u) := by
  unfold State.showCore
  split
  · split
    · exact s.keepsBoundary_onCore l _ _
    · exact .refl l s
  · exact .refl l s
theorem WingState.Closed.boundaryRegs {own : Prop} {x y : WingState} (h : WingState.Closed own x y) :
    y.boundaryRegs = x.boundaryRegs := by
  rw [h.1]
  rfl
theorem State.keepsBoundary_endFlight (l : Nat) (s : State) (f : Flight) (disp : Nat) (code : Code) (kind loc : Nat) :
    State.KeepsBoundary l s (s.endFlight f disp code kind loc) := fun h => by
  have hsettled := ((s.dropWork f).settleFlight_spec { f with status := 0 } disp code kind loc).1
  refine ⟨?_, (s.closes_endFlight f disp code kind loc l).boundaryRegs⟩
  exact ((hsettled.lead l).trans ((s.ended_dropWork f).lead l)).trans h

/-! ### A wing that enters FAILED (R373, R398, R485) -/

theorem State.keepsBoundary_formSplit (l : Nat) (s : State) : State.KeepsBoundary l s s.formSplit := by
  unfold State.formSplit
  split
  · exact .refl l s
  · next hs =>
    have whole : s.lead l = l → l = 0 := fun h => by
      unfold State.lead at h
      rw [if_neg hs] at h
      exact h.symm
    split <;> (intro h; cases whole h; exact ⟨rfl, rfl⟩)
theorem State.keepsBoundary_discardAll (l : Nat) (s : State) (p : Flight → Bool) (code : Code) :
    State.KeepsBoundary l s (s.discardAll p code) :=
  State.keepsBoundary_foldl l _ (fun t f => t.keepsBoundary_endFlight l f 4 code 0 0) _ s
theorem State.keepsBoundary_settleFlight (l : Nat) (s : State) (f : Flight) (disp : Nat) (code : Code) (kind loc : Nat) :
    State.KeepsBoundary l s (s.settleFlight f disp code kind loc) := .of_outside l rfl rfl rfl

/-- A wing that enters FAILED ends the re-form that its descriptor asked for. -/
def State.failReform (s : State) (w : Nat) (code : Code) : State :=
  match (s.wing (s.lead w)).reform with
  | some r => if r.byDesc then
      match s.flight r.byRing r.bySeq with
      | some f => s.settleFlight { f with status := 0 } 2 code 0 0
      | none => s
    else s
  | none => s
/-- A wing is FAILED with a code, and nothing runs on it (R373). -/
def WingState.fail (x : WingState) (code : Code) : WingState :=
  { x with phase := 10, failCode := code, coupled := false, reform := none, drain := none, draining := false, window := none,
           reformDue := none, capDue := false, warmPhase := 0 }
/-- The other wing of a wafer of which one wing is FAILED re-forms alone (R485). -/
def WingState.leftAlone (x : WingState) (code : Code) : WingState :=
  { x with reformDue := if x.phase = 7 then some code else x.reformDue, coupled := false,
           reform := x.reform.map (fun r => { r with toSplit := true, byDesc := false }) }
/-- What a wing's entry into FAILED makes of itself and of the descriptors: those that it concerns end, and split mode is formed. -/
def State.failOne (s : State) (w : Nat) (code : Code) : State :=
  (((s.failReform w code).discardAll (fun f => !s.split || f.wing == w) (stepCode 5)).formSplit).onWing w (fun x => x.fail code)
/-- A firmware on trial does not survive a FAILED wing (R435). -/
def State.endTrial (s : State) : State :=
  if s.sec.onTrial then { s with sec := { s.sec with trialMark := none, onTrial := false, trialFailed := true } } else s

/-- The steps of a wing's entry into FAILED. -/
theorem State.failWing_eq (s : State) (w : Nat) (code : Code) (h : (s.wing w).phase ≠ 10) :
    s.failWing w code = ((if s.split then s.failOne w code
      else (s.failOne w code).onWing (1 - w) (fun x => x.leftAlone code)).endTrial).attend w := by
  unfold State.failWing
  rw [if_neg h]
  rfl

theorem State.keepsBoundary_failReform (l : Nat) (s : State) (w : Nat) (code : Code) : State.KeepsBoundary l s (s.failReform w code) := by
  unfold State.failReform
  split
  · split
    · split
      · exact s.keepsBoundary_settleFlight l _ _ _ _ _
      · exact .refl l s
    · exact .refl l s
  · exact .refl l s
theorem State.keepsBoundary_failOne (l : Nat) (s : State) (w : Nat) (code : Code) : State.KeepsBoundary l s (s.failOne w code) := by
  unfold State.failOne
  exact (((s.keepsBoundary_failReform l w code).trans (State.keepsBoundary_discardAll l _ _ _)).trans
    (State.keepsBoundary_formSplit l _)).trans (State.keepsBoundary_onWing l _ w _ fun _ => rfl)
theorem State.keepsBoundary_endTrial (l : Nat) (s : State) : State.KeepsBoundary l s s.endTrial := by
  unfold State.endTrial
  split
  · exact .of_outside l rfl rfl rfl
  · exact .refl l s
theorem State.keepsBoundary_failWing (l : Nat) (s : State) (w : Nat) (code : Code) : State.KeepsBoundary l s (s.failWing w code) := by
  by_cases h : (s.wing w).phase = 10
  · unfold State.failWing
    rw [if_pos h]
    exact .refl l s
  · rw [s.failWing_eq w code h]
    refine .trans ?_ ((State.keepsBoundary_endTrial l _).trans (State.keepsBoundary_attend l _ w))
    split
    · exact s.keepsBoundary_failOne l w code
    · exact (s.keepsBoundary_failOne l w code).trans (State.keepsBoundary_onWing l _ _ _ fun _ => rfl)

theorem State.Ended.clusters {s t : State} (h : State.Ended s t) : t.clusters = s.clusters := by
  have hc := congrArg State.clusters h
  exact hc
theorem State.clusters_discardAll (s : State) (p : Flight → Bool) (code : Code) : (s.discardAll p code).clusters = s.clusters := by
  unfold State.discardAll
  generalize s.flights.filter p = fs
  induction fs generalizing s with
  | nil => rfl
  | cons f fs ih =>
    rw [List.foldl_cons, ih]
    exact (s.ended_dropWork f).clusters
theorem State.clusters_failReform (s : State) (w : Nat) (code : Code) : (s.failReform w code).clusters = s.clusters := by
  unfold State.failReform
  repeat' split
  all_goals rfl
theorem State.clusters_formSplit (s : State) : s.formSplit.clusters = s.clusters := by
  unfold State.formSplit
  repeat' split
  all_goals rfl
theorem State.clusters_failOne (s : State) (w : Nat) (code : Code) : (s.failOne w code).clusters = s.clusters := by
  unfold State.failOne
  rw [State.onWing_clusters, State.clusters_formSplit, State.clusters_discardAll, State.clusters_failReform]
theorem State.wing_failOne_same (s : State) (w : Nat) (code : Code) :
    ((s.failOne w code).wing w).phase = 10 ∧ ((s.failOne w code).wing w).failCode = code := by
  unfold State.failOne
  rw [State.wing_onWing_same]
  exact ⟨rfl, rfl⟩
theorem State.endTrial_frame (s : State) (w : Nat) : s.endTrial.wing w = s.wing w ∧ s.endTrial.clusters = s.clusters := by
  unfold State.endTrial
  split <;> exact ⟨rfl, rfl⟩
theorem State.wing_attend_same (s : State) (w : Nat) : (s.attend w).wing w = { s.wing w with attn := true } :=
  State.wing_onWing_same s _ w
theorem State.clusters_attend (s : State) (w : Nat) : (s.attend w).clusters = s.clusters := by
  unfold State.attend
  simp

/-- A wing that was not FAILED enters FAILED with its code and ATTN, and the clusters stay. -/
theorem State.failWing_spec (s : State) (w : Nat) (code : Code) (h : (s.wing w).phase ≠ 10) :
    ((s.failWing w code).wing w).phase = 10 ∧ ((s.failWing w code).wing w).failCode = code ∧
    ((s.failWing w code).wing w).attn = true ∧ (s.failWing w code).clusters = s.clusters := by
  have hother : ¬ (w = 0 ↔ 1 - w = 0) := by omega
  obtain ⟨hphase, hcode⟩ := s.wing_failOne_same w code
  rw [s.failWing_eq w code h, State.wing_attend_same, State.clusters_attend, (State.endTrial_frame _ w).1, (State.endTrial_frame _ w).2]
  split
  · exact ⟨hphase, hcode, rfl, s.clusters_failOne w code⟩
  · rw [State.wing_onWing, if_neg hother, State.onWing_clusters]
    exact ⟨hphase, hcode, rfl, s.clusters_failOne w code⟩

/-! ### Verdicts (R29, R387 to R393) -/

theorem State.keepsBoundary_wireFail (l : Nat) (s : State) (u : TestUnit) (g : Nat) : State.KeepsBoundary l s (s.wireFail u g) := by
  unfold State.wireFail
  dsimp only
  split
  · exact s.keepsBoundary_putEntry l _
  · split
    · exact .refl l s
    · split
      · split
        · exact s.keepsBoundary_putEntry l _
        · exact (s.keepsBoundary_putEntry l _).trans (State.keepsBoundary_onWing l _ _ _ fun _ => rfl)
      · refine .trans ?_ (State.keepsBoundary_failWing l _ _ _)
        exact .of_outside l rfl rfl rfl
theorem State.keepsBoundary_wireOut (l : Nat) (s : State) (w : Nat) (u : TestUnit) (code result : Code) (g : Nat) (pack : Bool) :
    State.KeepsBoundary l s (s.wireOut w u code result g pack) := by
  unfold State.wireOut
  dsimp only
  split
  · exact .refl l s
  · refine .trans ?_ (State.keepsBoundary_wireFail l _ u g)
    exact (((s.keepsBoundary_logEntry l w code _ _ 3 pack result).trans (State.keepsBoundary_putEntry l _ _)).trans
      (State.keepsBoundary_onUnit l _ u _)).trans (State.keepsBoundary_onWing l _ _ _ fun _ => rfl)
theorem State.keepsBoundary_outOfUse (l : Nat) (s : State) (w : Nat) (u : TestUnit) (code result : Code) (res : TestResult) (pack : Bool) :
    State.KeepsBoundary l s (s.outOfUse w u code result res pack) := by
  have hlog (verdict : Nat) := s.keepsBoundary_logEntry l w code (unitKey u).1 (unitKey u).2 verdict pack result
  unfold State.outOfUse
  dsimp only
  split
  · have hattn := (hlog 4).trans (State.keepsBoundary_attend l _ w)
    split
    · exact hattn.trans (State.keepsBoundary_failWing l _ _ _)
    · exact hattn.trans (State.keepsBoundary_failWing l _ _ _)
    · exact hattn.trans (State.keepsBoundary_failWing l _ _ _)
    · exact hattn
  · split
    · exact s.keepsBoundary_wireOut l w u code result _ pack
    · refine .trans ?_ (State.keepsBoundary_onWing l _ _ _ fun _ => rfl)
      refine .trans ?_ ((State.keepsBoundary_onUnit l _ u _).trans (State.keepsBoundary_showCore l _ u))
      split
      · split
        · exact (hlog 3).trans (State.keepsBoundary_putEntry l _ _)
        · exact (hlog 3).trans (State.keepsBoundary_putEntry l _ _)
      · exact (hlog 3).trans (State.keepsBoundary_putEntry l _ _)
theorem State.keepsBoundary_observe (l : Nat) (s : State) (w : Nat) (u : TestUnit) (code result : Code) (pack : Bool) :
    State.KeepsBoundary l s (s.observe w u code result pack) := by
  have hlog := s.keepsBoundary_logEntry l w code (unitKey u).1 (unitKey u).2 2 pack result
  unfold State.observe
  dsimp only
  refine .trans ?_ ((State.keepsBoundary_onUnit l _ u _).trans (State.keepsBoundary_showCore l _ u))
  split
  · exact hlog
  · exact hlog.trans (State.keepsBoundary_putEntry l _ _)
theorem State.keepsBoundary_transient (l : Nat) (s : State) (w : Nat) (u : TestUnit) (code : Code) :
    State.KeepsBoundary l s (s.transient w u code) := by
  have hlog := s.keepsBoundary_logEntry l w code (unitKey u).1 (unitKey u).2 1 false 0
  unfold State.transient
  dsimp only
  refine .trans ?_ (State.keepsBoundary_onUnit l _ u _)
  split
  · exact hlog
  · exact hlog.trans (State.keepsBoundary_putEntry l _ _)
theorem State.keepsBoundary_verdict (l : Nat) (s : State) (w : Nat) (mode : TestMode) (code : Code) (u : TestUnit) (res : TestResult) :
    State.KeepsBoundary l s (s.verdict w mode code u res) := by
  have hout (result : Code) (pack : Bool) := s.keepsBoundary_outOfUse l w u code result res pack
  have hobserve (result : Code) (pack : Bool) := s.keepsBoundary_observe l w u code result pack
  unfold State.verdict
  cases mode with
  | pack =>
    dsimp only
    split
    · split
      · exact hout _ _
      · exact hobserve _ _
    · exact s.keepsBoundary_onUnit l u _
  | targeted =>
    dsimp only
    split
    · exact hout _ _
    · split
      · exact hout _ _
      · split
        · exact hobserve _ _
        · exact s.keepsBoundary_transient l w u code
  | observation | builtIn =>
    dsimp only
    split
    · exact hout _ _
    · exact .refl l s

/-! ### The tests of a boundary (R382 to R384, R389, R401) -/

theorem State.keepsBoundary_packRun (l : Nat) (s : State) (w : Nat) (rs : List TestReport) : State.KeepsBoundary l s (s.packRun w rs) := by
  unfold State.packRun
  dsimp only
  split
  · exact .refl l s
  · split
    · have hsuspect : State.KeepsBoundary l s { s with pack := { s.pack with suspect := true } } := .of_outside l rfl rfl rfl
      exact (hsuspect.trans (State.keepsBoundary_logEntry l _ w _ _ _ _ _ _)).trans (State.keepsBoundary_attend l _ w)
    · exact State.keepsBoundary_foldl l _ (fun t r => t.keepsBoundary_verdict l w _ _ _ _) rs s
theorem State.keepsBoundary_enterReports (l : Nat) (s : State) (w : Nat) (ws : List Nat) (mode : TestMode) (rs : List TestReport) :
    State.KeepsBoundary l s (s.enterReports w ws mode rs) := by
  unfold State.enterReports
  dsimp only
  refine .trans (State.keepsBoundary_foldl l _ (fun t r => ?_) _ s) (State.keepsBoundary_packRun l _ w _)
  split
  · exact t.keepsBoundary_verdict l w _ _ _ _
  · exact t.keepsBoundary_verdict l w _ _ _ _
theorem State.keepsBoundary_passOthers (l : Nat) (s : State) (w : Nat) (us : List (TestUnit × Code)) (rs : List TestReport) :
    State.KeepsBoundary l s (s.passOthers w us rs) :=
  State.keepsBoundary_foldl l _ (fun t _ => t.keepsBoundary_verdict l w _ _ _ _) _ s
theorem State.keepsBoundary_scanCores (l : Nat) (s : State) (us : List (TestUnit × Code)) : State.KeepsBoundary l s (s.scanCores us) := by
  refine State.keepsBoundary_foldl l _ (fun t u => ?_) us s
  split
  · split
    · exact t.keepsBoundary_onCore l _ _
    · exact .refl l t
  · exact .refl l t
theorem State.keepsBoundary_backFrom (l : Nat) (s t : State) : State.KeepsBoundary l t (s.backFrom t) := by
  have hclusters (cs : List (Nat × Cluster)) : State.KeepsBoundary l t { t with clusters := cs } := .of_outside l rfl rfl rfl
  unfold State.backFrom
  dsimp only
  refine (hclusters _).trans (State.keepsBoundary_foldl l _ (fun v w => ?_) [0, 1] _)
  split
  · exact v.keepsBoundary_onWing l w _ fun _ => rfl
  · exact .refl l v
theorem State.keepsBoundary_restoreDomains (l : Nat) (s : State) (us : List (TestUnit × Code)) :
    State.KeepsBoundary l s (s.restoreDomains us) := by
  unfold State.restoreDomains
  refine .trans (State.keepsBoundary_foldl l _ (fun t u => ?_) us s) (State.keepsBoundary_backFrom l s _)
  split
  · exact .of_outside l rfl rfl rfl
  · exact .refl l t
theorem State.keepsBoundary_observe1 (l : Nat) (s : State) (w : Nat) (rs : List TestReport) (u : TestUnit) (cause : Code) :
    State.KeepsBoundary l s (s.observe1 w rs u cause) := by
  unfold State.observe1
  split
  · exact s.keepsBoundary_outOfUse l w u cause _ _ false
  · dsimp only
    refine .trans ?_ (State.keepsBoundary_showCore l _ u)
    split
    · exact (s.keepsBoundary_onUnit l u _).trans (State.keepsBoundary_putEntry l _ _)
    · exact s.keepsBoundary_onUnit l u _
theorem State.keepsBoundary_observation (l : Nat) (s : State) (w : Nat) (rs : List TestReport) :
    State.KeepsBoundary l s (s.observation w rs) :=
  State.keepsBoundary_foldl l _ (fun t _ => t.keepsBoundary_observe1 l w rs _ _) _ s
theorem State.keepsBoundary_settleOverdue (l : Nat) (s : State) (w : Nat) : State.KeepsBoundary l s (s.settleOverdue w) :=
  s.keepsBoundary_onWing l w _ fun _ => rfl
theorem State.keepsBoundary_slice (l : Nat) (s : State) (w : Nat) (rs : List TestReport) : State.KeepsBoundary l s (s.slice w rs) := by
  unfold State.slice
  refine .ite _ ?_ (.refl l s)
  have htested := State.keepsBoundary_foldl l _ (fun t c => t.keepsBoundary_onCore l c (Core.testedAt s.seconds)) (s.sliceCores (s.wings w)) s
  have hentered := htested.trans (State.keepsBoundary_enterReports l _ w (s.wings w) .builtIn
    (rs.filter (s.aboutCores (s.sliceCores (s.wings w)))))
  exact (hentered.trans (State.keepsBoundary_onWing l _ w (fun x => { x with lastSlice := some s.seconds }) fun _ => rfl)).trans
    (State.keepsBoundary_foldl l _ (fun t v => t.keepsBoundary_settleOverdue l v) (s.wings w) _)
theorem State.slice_of_noAutoTest (s : State) (w : Nat) (rs : List TestReport) (h : s.health.autoTest = false) : s.slice w rs = s := by
  unfold State.slice
  simp [h]

/-- The tests that a boundary runs, before it counts (R382). -/
def State.boundaryTests (s : State) (l : Nat) (rs : List TestReport) : State :=
  let x := s.wing l
  let mine := rs.filter (fun r => x.bTests.any (fun t => t.1 == r.unit) && !r.pack)
  let s1 := (((s.restoreDomains x.bTests).scanCores x.bTests).enterReports l (s.wings l) .targeted mine).passOthers l x.bTests rs
  (if x.boundaryRun then s1.observation l rs else s1).slice l rs
/-- What a boundary makes of its wing once its tests are done; counts says whether an array outcome opened it (R382, R476). -/
def WingState.closeBoundary (y : WingState) (counts : Bool) : WingState :=
  { y with bTests := [], boundaryDue := false, boundaryRun := false,
           boundaries := if counts then BitVec.ofNat 32 (min (y.boundaries.toNat + 1) 0xFFFFFFFF) else y.boundaries,
           halted := y.halted || y.haltPending, haltPending := false }

theorem State.runBoundary_eq (s : State) (l : Nat) (rs : List TestReport) :
    s.runBoundary l rs = (s.boundaryTests l rs).onWing l (fun y => y.closeBoundary (s.wing l).boundaryDue) := rfl
theorem State.keepsBoundary_boundaryTests (l : Nat) (s : State) (rs : List TestReport) :
    State.KeepsBoundary l s (s.boundaryTests l rs) := by
  unfold State.boundaryTests
  dsimp only
  refine .trans ?_ (State.keepsBoundary_slice l _ l rs)
  have htargeted := (((s.keepsBoundary_restoreDomains l (s.wing l).bTests).trans
    (State.keepsBoundary_scanCores l _ (s.wing l).bTests)).trans (State.keepsBoundary_enterReports l _ l (s.wings l) .targeted
      (rs.filter (fun r => (s.wing l).bTests.any (fun t => t.1 == r.unit) && !r.pack)))).trans
    (State.keepsBoundary_passOthers l _ l (s.wing l).bTests rs)
  split
  · exact htargeted.trans (State.keepsBoundary_observation l _ l rs)
  · exact htargeted

/-- Where no rail has come back, a change of causes leaves the wings. -/
theorem State.backFrom_self (s : State) : ∃ cs, s.backFrom s = { s with clusters := cs } := by
  unfold State.backFrom
  simp

/-- A boundary with no test waiting and none reported, and no periodic tests, leaves everything but the clusters. -/
theorem State.boundaryTests_idle (s : State) (l : Nat) (ht : (s.wing l).bTests = []) (hr : (s.wing l).boundaryRun = false)
    (ha : s.health.autoTest = false) : ∃ cs, s.boundaryTests l [] = { s with clusters := cs } := by
  obtain ⟨cs, hcs⟩ := s.backFrom_self
  refine ⟨cs, ?_⟩
  have hpack (t : State) (w : Nat) : t.packRun w [] = t := by
    unfold State.packRun
    simp
  have hreports (t : State) (w : Nat) (ws : List Nat) (mode : TestMode) : t.enterReports w ws mode [] = t := hpack t w
  have hothers (t : State) (w : Nat) : t.passOthers w [] [] = t := rfl
  have hdomains : (s.restoreDomains []).scanCores [] = { s with clusters := cs } := hcs
  unfold State.boundaryTests
  dsimp only
  rw [ht, hr, hdomains, List.filter_nil, hreports, hothers, if_neg Bool.false_ne_true]
  exact State.slice_of_noAutoTest _ l [] ha

end Sys2Proof.Machine
end

section
/-! PROOFS. Step boundaries, periodic tests, the budget of a test window, and the failure of a wire group (R29, R30, R382, R399
to R404). -/

namespace Sys2Proof.Machine

/-! ### The spall map (R395) -/

theorem bits_low3 {n : Nat} (x : BitVec n) : bits x 2 0 = x.toNat % 8 := by simp [bits]
theorem mem_spallPut_self (e : SpallEntry) (m : List SpallEntry) : e ∈ spallPut e m := by
  induction m with
  | nil => exact List.mem_cons_self
  | cons x xs ih =>
    unfold spallPut
    split
    · exact List.mem_cons_self
    · split
      · exact List.mem_cons_self
      · exact List.mem_cons_of_mem _ ih
theorem unitKey_kind_lt (u : TestUnit) : (unitKey u).1 < 16 := by cases u <;> simp [unitKey]
/-- The entry of a unit stands at the unit's place in the map, where its LOCATION fits. -/
theorem Health0.spallNum_entry (h : Health0) (u : TestUnit) (hu : (unitKey u).2 < 2 ^ 24) : spallNum (h.entry u) = unitNum u := by
  unfold Health0.entry
  split
  · next e he => simpa using List.find?_some he
  · have hkind : (unitKey u).1 % 2 ^ 4 = (unitKey u).1 := Nat.mod_eq_of_lt (unitKey_kind_lt u)
    have hloc : (unitKey u).2 % 2 ^ 24 = (unitKey u).2 := Nat.mod_eq_of_lt hu
    unfold spallNum unitNum
    rw [BitVec.toNat_ofNat, BitVec.toNat_ofNat, hkind, hloc]

/-! ### A failed wire group (R29, R398, R399) -/

theorem State.wireFail_first (s : State) (u : TestUnit) (g : Nat) (h : (s.health.entry u).spared = false) :
    s.wireFail u g = s.putEntry { s.health.entry u with spared := true, detail := BitVec.ofNat 64 (g % 8) } := by
  unfold State.wireFail
  dsimp only
  rw [if_pos h]
theorem State.wireFail_known (s : State) (u : TestUnit) (g : Nat) (hs : (s.health.entry u).spared = true)
    (hk : (s.health.entry u).detail.toNat % 8 = g % 8 ∨ (s.health.entry u).state = 2) : s.wireFail u g = s := by
  unfold State.wireFail
  dsimp only
  rw [if_neg (by simp [hs]), bits_low3, if_pos hk]

/-- The state in which a wing of a wire unit lost beyond its spare enters FAILED: the map, the cluster and the log have it (R398). -/
def State.loseWire (s : State) (u : TestUnit) : State :=
  let e := s.health.entry u
  ((s.putEntry { e with state := 2, detail := e.detail ||| 8 }).onCluster (bits (BitVec.ofNat 24 (unitKey u).2) 19 8)
    (fun x => { x with geomLost := true })).logEntry (s.unitWing u) (coreCode 0x21) (unitKey u).1 (unitKey u).2 5 false (coreCode 0x21)
theorem State.wireFail_second (s : State) (u : TestUnit) (g : Nat) (hs : (s.health.entry u).spared = true)
    (hd : (s.health.entry u).detail.toNat % 8 ≠ g % 8) (hx : (s.health.entry u).state ≠ 2)
    (hseam : seamUnit (unitKey u).1 (unitKey u).2 = false) :
    s.wireFail u g = (s.loseWire u).failWing (s.unitWing u) (coreCode 0x21) := by
  unfold State.wireFail
  dsimp only
  rw [if_neg (by simp [hs]), bits_low3, if_neg (not_or.2 ⟨hd, hx⟩), hseam, if_neg Bool.false_ne_true]
  rfl
theorem State.loseWire_cluster (s : State) (u : TestUnit) :
    ((s.loseWire u).cluster (bits (BitVec.ofNat 24 (unitKey u).2) 19 8)).geomLost = true := by
  have hget := Map.get_upd ({} : Cluster) s.clusters (bits (BitVec.ofNat 24 (unitKey u).2) 19 8)
    (bits (BitVec.ofNat 24 (unitKey u).2) 19 8) (fun x => { x with geomLost := true })
  rw [if_pos rfl] at hget
  exact congrArg Cluster.geomLost hget

theorem exec_wireGroupFailure_noWire (s : State) (u : TestUnit) (g : BitVec 3) (h : wireUnit u = false) :
    exec (.wireGroupFailure u g) s = .next s := by
  change execWireGroupFailure u g s = _
  unfold execWireGroupFailure
  rw [h, if_neg Bool.false_ne_true]
/-- A wire group failure that is not a second one of a seam unit. -/
theorem exec_wireGroupFailure_wireFail (s : State) (u : TestUnit) (g : BitVec 3) (h : wireUnit u = true)
    (hs : (s.health.entry u).spared = false ∨ (s.health.entry u).detail.toNat % 8 = g.toNat ∨ (s.health.entry u).state = 2 ∨
      seamUnit (unitKey u).1 (unitKey u).2 = false) :
    exec (.wireGroupFailure u g) s = .next (s.wireFail u g.toNat) := by
  change execWireGroupFailure u g s = _
  unfold execWireGroupFailure
  dsimp only
  rw [if_pos h, if_neg]
  simp only [Bool.and_eq_true, bne_iff_ne, bits_low3]
  rintro ⟨⟨⟨hspared, hgroup⟩, hstate⟩, hseam⟩
  rcases hs with h | h | h | h
  · simp [h] at hspared
  · exact hgroup h
  · exact hstate h
  · simp [h] at hseam
theorem exec_wireGroupFailure_seam (s : State) (u : TestUnit) (g : BitVec 3) (h : wireUnit u = true)
    (hs : (s.health.entry u).spared = true) (hd : (s.health.entry u).detail.toNat % 8 ≠ g.toNat) (hx : (s.health.entry u).state ≠ 2)
    (hseam : seamUnit (unitKey u).1 (unitKey u).2 = true) : exec (.wireGroupFailure u g) s = .next (s.seamFail u) := by
  change execWireGroupFailure u g s = _
  unfold execWireGroupFailure
  dsimp only
  rw [if_pos h, if_pos]
  simpa [bits_low3, hs, hd, hseam] using hx

/-! ### A seam unit lost beyond its spare (R30, R399) -/

theorem State.health_followUnit (s : State) (w : Nat) (code : Code) (u : TestUnit) : (s.followUnit w code u).health = s.health := by
  unfold State.followUnit
  dsimp only
  split
  · simp
  · simp
  · rfl
theorem State.lead_zero (s : State) : s.lead 0 = 0 := by
  unfold State.lead
  split <;> rfl
theorem State.lead_of_split {s : State} (h : s.split = true) (w : Nat) : s.lead w = w := by
  unfold State.lead
  rw [if_pos h]
theorem State.lead_of_whole {s : State} (h : s.split = false) (w : Nat) : s.lead w = 0 := by
  unfold State.lead
  rw [h, if_neg Bool.false_ne_true]
theorem State.seamFail_eq (s : State) (u : TestUnit) : s.seamFail u =
    if s.split then ((s.followUnit 0 (linkCode 4) u).endStep 0 (linkCode 4) 0 0 true).endStep 1 (linkCode 4) 0 0 true
    else (s.followUnit 0 (linkCode 4) u).endStep 0 (linkCode 4) 0 0 true := by
  obtain ⟨-, -, hsplit, -, -⟩ := Claim.followUnit_other s 0 0 (linkCode 4) u
  have hended : ((s.followUnit 0 (linkCode 4) u).endStep 0 (linkCode 4) 0 0 true).split = s.split :=
    (State.endStep_on _ 0 _ 0 0 true).2.split.trans hsplit
  unfold State.seamFail
  rw [List.foldl_cons, List.foldl_cons, List.foldl_nil, if_pos (State.lead_zero _)]
  cases hs : s.split with
  | true => rw [if_pos (State.lead_of_split (hended.trans hs) 1), if_pos rfl]
  | false =>
    rw [if_neg, if_neg Bool.false_ne_true]
    rw [State.lead_of_whole (hended.trans hs)]
    decide
theorem State.health_seamFail (s : State) (u : TestUnit) : (s.seamFail u).health = s.health := by
  have hfollow := s.health_followUnit 0 (linkCode 4) u
  have hwest := (State.endStep_on (s.followUnit 0 (linkCode 4) u) 0 (linkCode 4) 0 0 true).2.health.trans hfollow
  rw [s.seamFail_eq]
  split
  · exact (State.endStep_on _ 1 _ 0 0 true).2.health.trans hwest
  · exact hwest

end Sys2Proof.Machine

namespace Sys2Proof.Claim

open Sys2Proof.Machine

theorem StepEnds.of_followUnit {w v : Nat} {s t : State} {c code : Code} {u : TestUnit} {kind loc : Nat}
    (h : StepEnds w (s.followUnit v c u) t code kind loc) : StepEnds w s t code kind loc := by
  obtain ⟨hflights, hsq, hsplit, -, -⟩ := followUnit_other s v 0 c u
  refine h.of_eq hflights hsq hsplit ?_
  obtain ⟨-, -, -, hrun, hpass⟩ := followUnit_other s v (s.lead w) c u
  unfold State.stepRuns State.lead at *
  rw [hsplit, hrun, hpass]
/-- What ends the step of a wing that leads ends the step of a wing that it leads. -/
theorem StepEnds.of_lead {w : Nat} {s t : State} {code : Code} {kind loc : Nat} (h : StepEnds (s.lead w) s t code kind loc) :
    StepEnds w s t code kind loc := by
  unfold StepEnds State.stepRuns at *
  rw [State.lead_lead] at h
  exact h
theorem ringApart_followUnit {w v : Nat} {s : State} {c : Code} {u : TestUnit} (h : RingApart w s) :
    RingApart w (s.followUnit v c u) := by
  obtain ⟨hflights, -, hsplit, -, -⟩ := followUnit_other s v 0 c u
  unfold RingApart State.runningArray State.lead at *
  rw [hflights, hsplit]
  exact h

/-- A seam unit lost beyond its spare ends the running step of each wing (R30, R399). -/
theorem seamFail_ends (s : State) (u : TestUnit) (w : Nat) (hw : w < 2) (h : RingApart w s) :
    StepEnds w s (s.seamFail u) 0x1004#16 0 0 := by
  obtain ⟨-, -, hsplit, -, -⟩ := followUnit_other s 0 0 (linkCode 4) u
  refine StepEnds.of_followUnit (v := 0) (c := linkCode 4) (u := u) ?_
  have happart : RingApart w (s.followUnit 0 (linkCode 4) u) := ringApart_followUnit h
  rw [s.seamFail_eq]
  generalize s.followUnit 0 (linkCode 4) u = s0 at hsplit happart ⊢
  have hwest := endStep_ends s0 0 (linkCode 4) 0 0 true
  cases hs : s.split with
  | false =>
    rw [if_neg Bool.false_ne_true]
    exact StepEnds.of_lead (by rw [State.lead_of_whole (hsplit.trans hs)]; exact hwest)
  | true =>
    rw [if_pos rfl]
    have hs0 := hsplit.trans hs
    obtain ⟨hcloseW, hleaveW⟩ := s0.endStep_on 0 (linkCode 4) 0 0 true
    obtain ⟨hcloseE, hleaveE⟩ := (s0.endStep 0 (linkCode 4) 0 0 true).endStep_on 1 (linkCode 4) 0 0 true
    rw [State.lead_of_split hs0] at hcloseW hleaveW
    rw [State.lead_of_split (hleaveW.split.trans hs0)] at hcloseE hleaveE
    obtain rfl | rfl : w = 0 ∨ w = 1 := by omega
    · exact hwest.later hcloseE hleaveE (by rw [State.lead_of_split hs0]; decide)
    · exact (endStep_ends _ 1 (linkCode 4) 0 0 true).earlier hcloseW hleaveW (by rw [State.lead_of_split hs0]; decide) happart

theorem wireGroup_first (s : State) (u : TestUnit) (g : BitVec 3) (hu : wireUnit u = true) (hs : (s.health.entry u).spared = false)
    (hl : (unitKey u).2 < 2 ^ 24) : Answers (.wireGroupFailure u g) s (fun t => ({ t with health := s.health } : State) = s ∧
      ∃ x ∈ t.health.spall, spallNum x = unitNum u ∧ x.detail.toNat % 8 = g.toNat ∧ x.state = (s.health.entry u).state ∧
        x.spared = true) := by
  refine ⟨_, exec_wireGroupFailure_wireFail s u g hu (.inl hs), ?_⟩
  dsimp only
  rw [s.wireFail_first u _ hs]
  refine ⟨rfl, _, mem_spallPut_self _ _, s.health.spallNum_entry u hl, ?_, rfl, rfl⟩
  rw [BitVec.toNat_ofNat]
  omega
theorem wireGroup_known (s : State) (u : TestUnit) (g : BitVec 3) (hu : wireUnit u = true) (hs : (s.health.entry u).spared = true)
    (hk : (s.health.entry u).detail.toNat % 8 = g.toNat ∨ (s.health.entry u).state = 2) :
    exec (.wireGroupFailure u g) s = .next s := by
  rw [exec_wireGroupFailure_wireFail s u g hu (.inr (hk.imp_right .inl)), s.wireFail_known u _ hs]
  rwa [Nat.mod_eq_of_lt g.isLt]
theorem wireGroup_seam (s : State) (u : TestUnit) (g : BitVec 3) (hu : wireUnit u = true) (hs : (s.health.entry u).spared = true)
    (hd : (s.health.entry u).detail.toNat % 8 ≠ g.toNat) (hx : (s.health.entry u).state ≠ 2)
    (hseam : seamUnit (unitKey u).1 (unitKey u).2 = true) :
    Answers (.wireGroupFailure u g) s (fun t => t.health.spall = s.health.spall ∧
      ∀ w, w < 2 → RingApart w s → StepEnds w s t 0x1004#16 0 0) :=
  ⟨_, exec_wireGroupFailure_seam s u g hu hs hd hx hseam, by rw [s.health_seamFail], fun w hw h => seamFail_ends s u w hw h⟩
theorem wireGroup_inside (s : State) (u : TestUnit) (g : BitVec 3) (hu : wireUnit u = true) (hs : (s.health.entry u).spared = true)
    (hd : (s.health.entry u).detail.toNat % 8 ≠ g.toNat) (hx : (s.health.entry u).state ≠ 2)
    (hseam : seamUnit (unitKey u).1 (unitKey u).2 = false) (hp : (s.wing (s.unitWing u)).phase ≠ 10) :
    Answers (.wireGroupFailure u g) s (fun t =>
      (t.cluster (bits (BitVec.ofNat 24 (unitKey u).2) 19 8)).geomLost = true ∧ (t.wing (s.unitWing u)).phase = 10 ∧
      (t.wing (s.unitWing u)).failCode = 0x3021#16 ∧ (t.wing (s.unitWing u)).attn = true) := by
  obtain ⟨hphase, hcode, hattn, hclusters⟩ := (s.loseWire u).failWing_spec (s.unitWing u) (coreCode 0x21) hp
  refine ⟨_, exec_wireGroupFailure_wireFail s u g hu (.inr (.inr (.inr hseam))), ?_⟩
  dsimp only
  rw [s.wireFail_second u _ hs (by rwa [Nat.mod_eq_of_lt g.isLt]) hx hseam]
  refine ⟨?_, hphase, hcode, hattn⟩
  unfold State.cluster
  rw [hclusters]
  exact s.loseWire_cluster u

/-! ### Step boundaries (R382, R476) -/

theorem stepBoundary_idle (w : Nat) (rs : List TestReport) (s : State) (hw : w < 2)
    (h : ((s.wing (s.lead w)).boundaryDue = false ∧ (s.wing (s.lead w)).bTests = []) ∨ (s.wing (s.lead w)).phase ≠ 7 ∨
      (s.wing (s.lead w)).reformDue.isSome = true ∨ (s.wing (s.lead w)).drain.isSome = true ∨
      (s.runningArray (s.lead w)).isSome = true) : exec (.stepBoundary w rs) s = .next s := by
  change execStepBoundary w rs s = _
  unfold execStepBoundary
  dsimp only
  rw [atWing_lt _ hw, if_neg]
  simp only [Bool.and_eq_true, Bool.or_eq_true, Bool.not_eq_true', List.isEmpty_eq_false_iff, beq_iff_eq, Option.isNone_iff_eq_none]
  rintro ⟨⟨⟨⟨hdue, hphase⟩, hreform⟩, hdrain⟩, hrunning⟩
  rcases h with ⟨hb, ht⟩ | h | h | h | h
  · simp [hb, ht] at hdue
  · exact h hphase
  · simp [hreform] at h
  · simp [hdrain] at h
  · simp [hrunning] at h

theorem exec_stepBoundary (w : Nat) (rs : List TestReport) (s : State) (hw : w < 2)
    (hd : (s.wing (s.lead w)).boundaryDue = true ∨ (s.wing (s.lead w)).bTests ≠ []) (hp : (s.wing (s.lead w)).phase = 7)
    (hf : (s.wing (s.lead w)).reformDue = none) (hn : (s.wing (s.lead w)).drain = none)
    (hr : (s.runningArray (s.lead w)).isNone = true) :
    exec (.stepBoundary w rs) s = .next (s.runBoundary (s.lead w) rs) := by
  change execStepBoundary w rs s = _
  unfold execStepBoundary
  dsimp only
  rw [atWing_lt _ hw, if_pos]
  simp [hp, hf, hn, hr, hd]

/-- What a boundary leaves on its wing. -/
theorem runBoundary_wing (s : State) (l : Nat) (rs : List TestReport) (hl : s.lead l = l) :
    ((s.runBoundary l rs).wing l).boundaryDue = false ∧ ((s.runBoundary l rs).wing l).bTests = [] ∧
    ((s.runBoundary l rs).wing l).boundaryRun = false ∧
    ((s.runBoundary l rs).wing l).boundaries.toNat = (if (s.wing l).boundaryDue
      then min ((s.wing l).boundaries.toNat + 1) 0xFFFFFFFF else (s.wing l).boundaries.toNat) ∧
    ((s.runBoundary l rs).wing l).halted = ((s.wing l).halted || (s.wing l).haltPending) ∧
    ((s.runBoundary l rs).wing l).haltPending = false := by
  have hregs := (s.keepsBoundary_boundaryTests l rs hl).2
  simp only [WingState.boundaryRegs, Prod.mk.injEq] at hregs
  obtain ⟨hboundaries, hhalted, hpending⟩ := hregs
  rw [s.runBoundary_eq, State.wing_onWing_same]
  refine ⟨rfl, rfl, rfl, ?_, ?_, rfl⟩
  · unfold WingState.closeBoundary
    dsimp only
    rw [hboundaries]
    split
    · exact (BitVec.toNat_ofNat ..).trans (Nat.mod_eq_of_lt (by omega))
    · rfl
  · unfold WingState.closeBoundary
    dsimp only
    rw [hhalted, hpending]
/-- A boundary without tests changes its wing and what the clusters hold of their rails alone. -/
theorem runBoundary_frame (s : State) (l : Nat) (ht : (s.wing l).bTests = []) (hr : (s.wing l).boundaryRun = false)
    (ha : s.health.autoTest = false) :
    (s.runBoundary l []).health = s.health ∧ (s.runBoundary l []).bonded = s.bonded ∧ (s.runBoundary l []).flights = s.flights ∧
    ∀ k, (s.runBoundary l []).core k = s.core k := by
  obtain ⟨cs, hcs⟩ := s.boundaryTests_idle l ht hr ha
  rw [s.runBoundary_eq, hcs]
  refine ⟨by simp, by simp, by simp, fun k => ?_⟩
  rw [State.core_onWing _ l k (fun y => y.closeBoundary (s.wing l).boundaryDue) (fun _ => rfl) fun _ => rfl]
  rfl

theorem stepBoundary_runs (w : Nat) (rs : List TestReport) (s : State) (hw : w < 2)
    (hd : (s.wing (s.lead w)).boundaryDue = true ∨ (s.wing (s.lead w)).bTests ≠ []) (hp : (s.wing (s.lead w)).phase = 7)
    (hf : (s.wing (s.lead w)).reformDue = none) (hn : (s.wing (s.lead w)).drain = none)
    (hr : (s.runningArray (s.lead w)).isNone = true) :
    Answers (.stepBoundary w rs) s (fun t => (t.wing (s.lead w)).boundaryDue = false ∧ (t.wing (s.lead w)).bTests = [] ∧
      (t.wing (s.lead w)).boundaryRun = false ∧
      (t.wing (s.lead w)).boundaries.toNat = (if (s.wing (s.lead w)).boundaryDue
        then min ((s.wing (s.lead w)).boundaries.toNat + 1) 0xFFFFFFFF else (s.wing (s.lead w)).boundaries.toNat) ∧
      (t.wing (s.lead w)).halted = ((s.wing (s.lead w)).halted || (s.wing (s.lead w)).haltPending) ∧
      (t.wing (s.lead w)).haltPending = false ∧
      ((s.wing (s.lead w)).bTests = [] → (s.wing (s.lead w)).boundaryRun = false → s.health.autoTest = false → rs = [] →
        t.health = s.health ∧ t.bonded = s.bonded ∧ t.flights = s.flights ∧ ∀ k, t.core k = s.core k)) := by
  obtain ⟨hdue, htests, hrun, hcount, hhalted, hpending⟩ := runBoundary_wing s (s.lead w) rs (s.lead_lead w)
  refine ⟨_, exec_stepBoundary w rs s hw hd hp hf hn hr, hdue, htests, hrun, hcount, hhalted, hpending, ?_⟩
  rintro ht hb ha rfl
  exact runBoundary_frame s _ ht hb ha

/-! ### Tests due (R400) and the budget of a test window (R404) -/

theorem testDue_sets (k : Nat) (s : State) (hk : validCore k = true)
    (h : (s.core k).health.lastTest + s.periodSeconds ≤ s.seconds) :
    Answers (.testDue k) s (fun t => OneCore k s t { s.core k with health := { (s.core k).health with testDue := true } }) := by
  refine ⟨_, ?_, oneCore_setCore s k _⟩
  change execTestDue k s = _
  unfold execTestDue
  rw [atCore_valid _ hk, if_pos (Nat.ble_eq_true_of_le h)]
  rfl
theorem testDue_idle (k : Nat) (s : State) (hk : validCore k = true)
    (h : s.seconds < (s.core k).health.lastTest + s.periodSeconds) : exec (.testDue k) s = .next s := by
  change execTestDue k s = _
  unfold execTestDue
  rw [atCore_valid _ hk, if_neg]
  rw [Nat.ble_eq]
  omega
theorem testBudgetExpiry_expires (w : Nat) (s : State) (v : WindowRun) (hw : w < 2) (hv : (s.wing (s.lead w)).window = some v)
    (hb : v.budgetMs ≠ 0) :
    Answers (.testBudgetExpiry w) s (fun t => (t.wing (s.lead w)).window = some { v with expired := true } ∧
      (∀ k, t.core k = s.core k) ∧ t.bonded = s.bonded) := by
  refine ⟨_, ?_, ?_, fun k => State.core_onWing s (s.lead w) k (fun x => { x with
    window := x.window.map (fun v => { v with expired := v.expired || v.budgetMs != 0 }) }) (fun _ => rfl) (fun _ => rfl), by simp⟩
  · change execTestBudgetExpiry w s = _
    unfold execTestBudgetExpiry
    rw [atWing_lt _ hw]
  · simp [hv, hb]

end Sys2Proof.Claim

namespace Sys2Proof.Proofs

open Sys2Proof.Machine Sys2Proof.Claim

/-- Settles O55, event by event: the boundary, a core's test, a failed wire group by what its unit has left, and a window's budget. -/
theorem testsFallDue : Obligations.TestsFallDue := by
  unfold Obligations.TestsFallDue
  refine ⟨fun w rs s hw => ⟨stepBoundary_idle w rs s hw, stepBoundary_runs w rs s hw⟩,
    fun k s hk => ⟨testDue_sets k s hk, testDue_idle k s hk⟩,
    fun u g s => ⟨exec_wireGroupFailure_noWire s u g, wireGroup_first s u g, fun hu hs => ⟨wireGroup_known s u g hu hs, fun hd hx => ?_⟩⟩,
    testBudgetExpiry_expires⟩
  exact ⟨wireGroup_seam s u g hu hs hd hx, wireGroup_inside s u g hu hs hd hx⟩

end Sys2Proof.Proofs
end

section
/-! The exact accumulator of one lane: what V and C hold together after an addition, a merge and a product (R76, R79, R82, R85). -/

namespace Sys2Proof.Machine

open Claim (laneSum)

/-! ### V and C as one integer (R76, R82) -/

/-- The window widths that leave V when an integer is added to it (R82). -/
def Lane.carryOut (l : Lane) (t : Int) : Int := (l.v.toInt + t - (BitVec.ofInt 96 (l.v.toInt + t)).toInt) / 2 ^ 96

theorem toInt_ofInt_add_carryOut (l : Lane) (t : Int) :
    (BitVec.ofInt 96 (l.v.toInt + t)).toInt + l.carryOut t * 2 ^ 96 = l.v.toInt + t := by
  unfold Lane.carryOut
  rw [BitVec.toInt_ofInt, Int.bmod_def]
  omega

/-- A lane is what its sum, its anchor and its status say. -/
theorem Lane.eq_of_laneSum {l r : Lane} (hsum : laneSum l = laneSum r) (he : l.e = r.e) (hst : l.st = r.st) : l = r := by
  unfold laneSum at hsum
  have hl := l.v.two_mul_toInt_lt
  have hl' := l.v.le_two_mul_toInt
  have hr := r.v.two_mul_toInt_lt
  have hr' := r.v.le_two_mul_toInt
  have hv : l.v = r.v := BitVec.eq_of_toInt_eq (by omega)
  have hc : l.c = r.c := BitVec.eq_of_toInt_eq (by omega)
  cases l
  cases r
  simp_all

theorem Lane.setCarry_of_lt (l : Lane) {c : Int} (h : c.natAbs < 2147483647) : l.setCarry c = { l with c := BitVec.ofInt 32 c } := by
  unfold Lane.setCarry carryMax
  rw [if_neg (by omega), if_neg (by omega)]

/-- An addition that meets no limit of the carry count. -/
theorem Lane.addInt_of_lt (l : Lane) (t : Int) (h : l.c.toInt.natAbs < 2147483647) (h' : (l.c.toInt + l.carryOut t).natAbs < 2147483647) :
    l.addInt t = { l with v := BitVec.ofInt 96 (l.v.toInt + t), c := BitVec.ofInt 32 (l.c.toInt + l.carryOut t) } := by
  unfold Lane.addInt carryMax
  dsimp only
  rw [if_neg (by omega)]
  exact Lane.setCarry_of_lt _ h'

theorem toInt_ofInt_carry {c : Int} (h : c.natAbs < 2147483647) : (BitVec.ofInt 32 c).toInt = c := by
  rw [BitVec.toInt_ofInt, Int.bmod_def]
  omega

/-- An addition that meets no limit of the carry count is exact. -/
theorem laneSum_addInt (l : Lane) (t : Int) (h : l.c.toInt.natAbs < 2147483647) (h' : (l.c.toInt + l.carryOut t).natAbs < 2147483647) :
    laneSum (l.addInt t) = laneSum l + t := by
  have hexact := toInt_ofInt_add_carryOut l t
  rw [l.addInt_of_lt t h h']
  unfold laneSum
  dsimp only
  rw [toInt_ofInt_carry h']
  omega

theorem carryOut_natAbs_le (l : Lane) (x : BitVec 96) : (l.carryOut x.toInt).natAbs ≤ 1 := by
  have hexact := toInt_ofInt_add_carryOut l x.toInt
  have hv := l.v.two_mul_toInt_lt
  have hv' := l.v.le_two_mul_toInt
  have hx := x.two_mul_toInt_lt
  have hx' := x.le_two_mul_toInt
  have hn := (BitVec.ofInt 96 (l.v.toInt + x.toInt)).two_mul_toInt_lt
  have hn' := (BitVec.ofInt 96 (l.v.toInt + x.toInt)).le_two_mul_toInt
  omega

/-- A sum far from the range of the carry count stays exact. -/
theorem laneSum_addInt_of_natAbs (l : Lane) (t : Int) (h : (laneSum l).natAbs + t.natAbs < 2 ^ 126) :
    laneSum (l.addInt t) = laneSum l + t := by
  have hexact := toInt_ofInt_add_carryOut l t
  have hv := l.v.two_mul_toInt_lt
  have hv' := l.v.le_two_mul_toInt
  have hn := (BitVec.ofInt 96 (l.v.toInt + t)).two_mul_toInt_lt
  have hn' := (BitVec.ofInt 96 (l.v.toInt + t)).le_two_mul_toInt
  refine laneSum_addInt l t ?_ ?_ <;> (unfold laneSum at h; omega)

/-! ### What an addition leaves of a lane -/

theorem Lane.setCarry_frame (l : Lane) (c : Int) :
    (l.setCarry c).e = l.e ∧ ∀ n, l.st.getLsbD n = true → (l.setCarry c).st.getLsbD n = true := by
  unfold Lane.setCarry
  split
  · exact ⟨rfl, fun n hn => by simp [hn]⟩
  · split
    · exact ⟨rfl, fun n hn => by simp [hn]⟩
    · exact ⟨rfl, fun _ hn => hn⟩

@[simp] theorem Lane.addInt_e (l : Lane) (t : Int) : (l.addInt t).e = l.e := (Lane.setCarry_frame _ _).1
@[simp] theorem Lane.ofSum_e (l : Lane) (x : Int) : (l.ofSum x).e = l.e := (Lane.setCarry_frame _ _).1
/-- An addition clears no status bit. -/
theorem Lane.addInt_st (l : Lane) (t : Int) {n : Nat} (h : l.st.getLsbD n = true) : (l.addInt t).st.getLsbD n = true :=
  (Lane.setCarry_frame _ _).2 n h
theorem Lane.ofSum_st (l : Lane) (x : Int) {n : Nat} (h : l.st.getLsbD n = true) : (l.ofSum x).st.getLsbD n = true :=
  (Lane.setCarry_frame _ _).2 n h

@[simp] theorem Lane.mark_e (l : Lane) (b : Byte) : (l.mark b).e = l.e := rfl

/-! ### Products (R79) -/

/-- A multiple of the window's unit is not rounded. -/
theorem roundInteger_ofNat (neg : Bool) (m z : Nat) :
    roundInteger neg m (Int.ofNat z) = ((if neg then -1 else 1) * Int.ofNat (m * 2 ^ z), false) := by
  have hz : (0 : Int) ≤ Int.ofNat z := Int.natCast_nonneg z
  unfold roundInteger roundMag
  rw [if_pos hz, Int.sub_zero]
  cases neg <;> simp

/-- The product of a term is finite, and v times the unit of a window anchored at a (R77, R79). -/
def TermIs (b : Nat → Num) (sa sb : Nat → Nat) (a : BitVec 16) (x : Nat × Num) (v : Int) : Prop :=
  ∃ p m e q n f, x.2 = .fin p m e ∧ b x.1 = .fin q n f ∧
    ∃ z : Nat, e + f + (Int.ofNat (sa (x.1 / 32)) + Int.ofNat (sb (x.1 / 32)) - 254) - (a.toInt - 56) = Int.ofNat z ∧
      v = (if p != q then -1 else 1) * Int.ofNat (m * n * 2 ^ z)

/-- The next term of a lane, where its block has its scales: the lane, and whether a product was rounded (R79). -/
def accTerm (b : Nat → Num) (sa sb : Nat → Nat) (p : Lane × Bool) (t : Nat × Num) : Lane × Bool :=
  let r := p.1.addTerm t.2 (b t.1) (Int.ofNat (sa (t.1 / 32)) + Int.ofNat (sb (t.1 / 32)) - 254)
  (r.1, p.2 || r.2)

/-- A finite product that is a multiple of the window's unit enters the sum exactly. -/
theorem accTerm_exact {b : Nat → Num} {sa sb : Nat → Nat} {l : Lane} {x : Nat × Num} {v : Int} (hx : TermIs b sa sb l.e x v)
    (hb : (laneSum l).natAbs + v.natAbs < 2 ^ 126) :
    ∃ l', accTerm b sa sb (l, false) x = (l', false) ∧ laneSum l' = laneSum l + v ∧ l'.e = l.e := by
  obtain ⟨p, m, e, q, n, f, hx2, hbx, z, hz, rfl⟩ := hx
  unfold accTerm Lane.addTerm Num.mul
  rw [hx2, hbx]
  dsimp only
  by_cases h0 : m * n = 0
  · rw [if_pos h0]
    exact ⟨l, rfl, by simp [h0], rfl⟩
  · rw [if_neg h0, hz, roundInteger_ofNat]
    exact ⟨_, rfl, laneSum_addInt_of_natAbs (l.mark 0) _ hb, by simp⟩

/-- Folds of functions that agree on the members of a list are equal. -/
theorem foldl_eq_of_forall_mem {α β : Type} {f g : β → α → β} (xs : List α) : (∀ b, ∀ a ∈ xs, f b a = g b a) →
    ∀ b, xs.foldl f b = xs.foldl g b := by
  induction xs with
  | nil => exact fun _ _ => rfl
  | cons a xs ih =>
    intro h b
    rw [List.foldl_cons, List.foldl_cons, h b a List.mem_cons_self]
    exact ih (fun b x hx => h b x (List.mem_cons_of_mem _ hx)) _

/-- With no NaN scale, and every term below the limit, a lane takes every term. -/
theorem exactLane_eq_foldl (l : Lane) (terms : List (Nat × Num)) (b : Nat → Num) (sa sb : Nat → Nat) (limit : Nat)
    (hs : ∀ n, n < limit → sa n ≠ 255 ∧ sb n ≠ 255) (ht : ∀ x ∈ terms, x.1 / 32 < limit) :
    exactLane l terms b sa sb limit = terms.foldl (accTerm b sa sb) (l, false) := by
  have hnan : ∀ n, n < limit → (sa n == 255 || sb n == 255) = false := fun n hn => by simp [hs n hn]
  have hany : (List.range limit).any (fun n => sa n == 255 || sb n == 255) = false := by
    rw [List.any_eq_false]
    intro n hn
    simp [hnan n (List.mem_range.1 hn)]
  have hfold : exactLane l terms b sa sb limit = terms.foldl (fun (p : Lane × Bool) t =>
      if limit ≤ t.1 / 32 || (sa (t.1 / 32) == 255 || sb (t.1 / 32) == 255) then p else accTerm b sa sb p t) (l, false) := by
    unfold exactLane
    dsimp only
    rw [hany]
    rfl
  rw [hfold]
  refine foldl_eq_of_forall_mem _ (fun p t hmem => ?_) _
  rw [hnan _ (ht t hmem)]
  simp [Nat.not_le.2 (ht t hmem)]

/-- Terms that are all multiples of the window's unit enter the sum exactly. -/
theorem foldl_accTerm_exact (b : Nat → Num) (sa sb : Nat → Nat) (val : Nat × Num → Int) (terms : List (Nat × Num)) : ∀ l : Lane,
    (∀ x ∈ terms, TermIs b sa sb l.e x (val x)) → (laneSum l).natAbs + (terms.map (fun x => (val x).natAbs)).sum < 2 ^ 126 →
    laneSum (terms.foldl (accTerm b sa sb) (l, false)).1 = laneSum l + (terms.map val).sum ∧
    (terms.foldl (accTerm b sa sb) (l, false)).2 = false := by
  induction terms with
  | nil => intro l _ _; simp
  | cons x xs ih =>
    intro l hx hb
    rw [List.map_cons, List.sum_cons] at hb
    obtain ⟨l', hstep, hsum, he⟩ := accTerm_exact (hx x List.mem_cons_self) (by omega)
    obtain ⟨hrest, hinx⟩ := ih l' (by rw [he]; exact fun y hy => hx y (List.mem_cons_of_mem _ hy)) (by rw [hsum]; omega)
    rw [List.foldl_cons, hstep, List.map_cons, List.sum_cons]
    exact ⟨by rw [hrest, hsum]; omega, hinx⟩

/-! ### Merges (R83 to R85) -/

theorem bit_eq_getLsbD {w : Nat} (x : BitVec w) (n : Nat) : bit x n = x.getLsbD n := by
  rw [← BitVec.testBit_toNat, Nat.testBit_eq_decide_div_mod_eq]
  rfl

/-- The status bits of an EP128 word as a lane holds them (Table 3.5). -/
def epStatus (w : BitVec 128) : Byte := BitVec.ofNat 8 ((epFields w).status.toNat % 128)

theorem getLsbD_epStatus (w : BitVec 128) (n : Nat) : (epStatus w).getLsbD n = (decide (n < 7) && bit (epFields w).status n) := by
  rw [epStatus, bit_eq_getLsbD, BitVec.getLsbD_ofNat, show (128 : Nat) = 2 ^ 7 from rfl, Nat.testBit_mod_two_pow, BitVec.testBit_toNat]
  by_cases h : n < 7
  · simp [h, Nat.lt_succ_of_lt h]
  · simp [h]

theorem and_stEmpty_eq_zero (b : Byte) : b &&& stEmpty = 0 ↔ b.getLsbD 6 = false := by
  unfold stEmpty
  revert b
  decide

theorem epStatus_and_stEmpty (w : BitVec 128) : epStatus w &&& stEmpty = 0 ↔ bit (epFields w).status 6 = false := by
  rw [and_stEmpty_eq_zero, getLsbD_epStatus]
  simp

/-- The status that a word leaves in a lane that holds st, before the merge sets bits of its own: the sticky bits of both, not
EMPTY (R85). -/
def sticky (st : Byte) (w : BitVec 128) : Byte := (st ||| epStatus w) &&& ~~~stEmpty

theorem getLsbD_sticky (st : Byte) (w : BitVec 128) {n : Nat} (h : n < 6) :
    (sticky st w).getLsbD n = (st.getLsbD n || bit (epFields w).status n) := by
  have h7 : n < 7 := by omega
  have hempty : ∀ j, j < 6 → (~~~stEmpty).getLsbD j = true := by decide
  simp [sticky, getLsbD_epStatus, h7, hempty n h]

theorem sticky_and_stEmpty (st : Byte) (w : BitVec 128) : sticky st w &&& stEmpty = 0 := by
  unfold sticky
  rw [BitVec.and_assoc]
  exact BitVec.and_zero

theorem sticky_comm (st : Byte) (w w' : BitVec 128) : sticky (sticky st w) w' = sticky (sticky st w') w := by
  unfold sticky
  generalize epStatus w = a
  generalize epStatus w' = b
  ext n
  simp only [BitVec.getElem_and, BitVec.getElem_or]
  grind

/-- An EMPTY word leaves V, the carry count and the anchor. -/
theorem Lane.merge_of_emptyWord (l : Lane) (w : BitVec 128) (h : bit (epFields w).status 6 = true) :
    (l.merge w).1 = { l with st := sticky l.st w ||| (l.st &&& stEmpty) } := by
  have hw : epStatus w &&& stEmpty ≠ 0 := by rw [Ne, epStatus_and_stEmpty, h]; simp
  unfold Lane.merge
  dsimp only
  rw [if_pos (by simpa [epStatus] using hw)]
  rfl

/-- An EMPTY lane takes the word's value. -/
theorem Lane.merge_of_emptyLane (l : Lane) (w : BitVec 128) (h : bit (epFields w).status 6 = false) (hl : l.st &&& stEmpty ≠ 0) :
    (l.merge w).1 = { v := (epFields w).value, e := (epFields w).scale, c := 0, st := sticky l.st w } := by
  have hw := (epStatus_and_stEmpty w).2 h
  unfold Lane.merge
  dsimp only
  rw [if_neg (by simpa [epStatus] using hw), if_pos (by simpa using hl)]
  rfl

/-- Words of one SCALE are added as they are. -/
theorem Lane.merge_of_scale_eq (l : Lane) (w : BitVec 128) (h : bit (epFields w).status 6 = false) (hl : l.st &&& stEmpty = 0)
    (he : (epFields w).scale = l.e) :
    (l.merge w).1 = ({ l with st := sticky l.st w } : Lane).addInt (epFields w).value.toInt := by
  have hw := (epStatus_and_stEmpty w).2 h
  unfold Lane.merge
  dsimp only
  rw [if_neg (by simpa [epStatus] using hw), if_neg (by simpa using hl), if_pos he]
  rfl

/-- Words of two SCALEs end at the larger one, with SCALE_MIXED set. -/
theorem Lane.merge_of_scale_ne (l : Lane) (w : BitVec 128) (h : bit (epFields w).status 6 = false) (hl : l.st &&& stEmpty = 0)
    (he : (epFields w).scale ≠ l.e) :
    (l.merge w).1.e.toInt = max l.e.toInt (epFields w).scale.toInt ∧
    ∀ n, (sticky l.st w ||| stMixed).getLsbD n = true → (l.merge w).1.st.getLsbD n = true := by
  have hw := (epStatus_and_stEmpty w).2 h
  have hset : ∀ (n : Nat) (x : Byte), (sticky l.st w ||| stMixed).getLsbD n = true → (sticky l.st w ||| stMixed ||| x).getLsbD n = true :=
    fun n x hn => by rw [BitVec.getLsbD_or, hn, Bool.true_or]
  unfold Lane.merge
  dsimp only
  rw [if_neg (by simpa [epStatus] using hw), if_neg (by simpa using hl), if_neg he]
  split
  · refine ⟨?_, fun n hn => Lane.addInt_st _ _ (hset n _ hn)⟩
    rw [Lane.addInt_e]
    dsimp only
    omega
  · refine ⟨?_, fun n hn => Lane.addInt_st _ _ (Lane.ofSum_st _ _ (hset n _ hn))⟩
    rw [Lane.addInt_e, Lane.ofSum_e]
    dsimp only
    omega

/-- A merge clears no sticky bit of the lane or of the word (R85). -/
theorem Lane.merge_st (l : Lane) (w : BitVec 128) {n : Nat} (h : (sticky l.st w).getLsbD n = true) :
    (l.merge w).1.st.getLsbD n = true := by
  by_cases hw : bit (epFields w).status 6 = true
  · rw [l.merge_of_emptyWord w hw]
    simp [h]
  · rw [Bool.not_eq_true] at hw
    by_cases hl : l.st &&& stEmpty = 0
    · by_cases he : (epFields w).scale = l.e
      · rw [l.merge_of_scale_eq w hw hl he]
        exact Lane.addInt_st _ _ h
      · exact (l.merge_of_scale_ne w hw hl he).2 n (by rw [BitVec.getLsbD_or, h, Bool.true_or])
    · rw [l.merge_of_emptyLane w hw hl]
      exact h

/-- Whether a word carries a value at the anchor a. -/
def ValueAt (a : BitVec 16) (w : BitVec 128) : Prop := (epFields w).scale = a ∧ bit (epFields w).status 6 = false

/-- Merging a word of the lane's own SCALE below the limit of the carry count is exact. -/
theorem Lane.merge_exact (l : Lane) (w : BitVec 128) (hw : ValueAt l.e w) (hl : l.st &&& stEmpty = 0)
    (hc : l.c.toInt.natAbs < 2147483646) :
    laneSum (l.merge w).1 = laneSum l + (epFields w).value.toInt ∧ (l.merge w).1.e = l.e ∧ (l.merge w).1.st = sticky l.st w ∧
    (l.merge w).1.c.toInt.natAbs ≤ l.c.toInt.natAbs + 1 := by
  have hcarry := carryOut_natAbs_le l (epFields w).value
  have hnew : (l.c.toInt + l.carryOut (epFields w).value.toInt).natAbs < 2147483647 := by omega
  have hsum := laneSum_addInt { l with st := sticky l.st w } (epFields w).value.toInt (by dsimp only; omega) hnew
  have hadd := Lane.addInt_of_lt { l with st := sticky l.st w } (epFields w).value.toInt (by dsimp only; omega) hnew
  rw [l.merge_of_scale_eq w hw.2 hl hw.1]
  refine ⟨hsum, Lane.addInt_e _ _, by rw [hadd], ?_⟩
  have hle : (l.c.toInt + l.carryOut (epFields w).value.toInt).natAbs ≤ l.c.toInt.natAbs + 1 := by omega
  rw [hadd]
  exact Nat.le_trans (Nat.le_of_eq (congrArg Int.natAbs (toInt_ofInt_carry hnew))) hle

/-- The lane after words have been merged one by one. -/
def Lane.mergeAll (l : Lane) (ws : List (BitVec 128)) : Lane := ws.foldl (fun x w => (x.merge w).1) l

/-- Merging words of the lane's own SCALE below the limit of the carry count is exact, and the status is the OR of all. -/
theorem Lane.mergeAll_exact (ws : List (BitVec 128)) : ∀ l : Lane, l.st &&& stEmpty = 0 → (∀ w ∈ ws, ValueAt l.e w) →
    l.c.toInt.natAbs + ws.length < 2147483647 →
    laneSum (l.mergeAll ws) = laneSum l + (ws.map (fun w => (epFields w).value.toInt)).sum ∧ (l.mergeAll ws).e = l.e ∧
    (l.mergeAll ws).st = ws.foldl sticky l.st := by
  induction ws with
  | nil => intro l _ _ _; simp [Lane.mergeAll]
  | cons w ws ih =>
    intro l hl hw hc
    rw [List.length_cons] at hc
    obtain ⟨hsum, he, hst, hle⟩ := l.merge_exact w (hw w List.mem_cons_self) hl (by omega)
    obtain ⟨hsum', he', hst'⟩ := ih (l.merge w).1 (by rw [hst]; exact sticky_and_stEmpty _ _)
      (by rw [he]; exact fun y hy => hw y (List.mem_cons_of_mem _ hy)) (by omega)
    refine ⟨?_, he'.trans he, ?_⟩
    · rw [List.map_cons, List.sum_cons, ← Int.add_assoc, ← hsum]
      exact hsum'
    · rw [List.foldl_cons, ← hst]
      exact hst'

theorem foldl_sticky_and_stEmpty (ws : List (BitVec 128)) : ∀ st : Byte, st &&& stEmpty = 0 → ws.foldl sticky st &&& stEmpty = 0 := by
  induction ws with
  | nil => exact fun st h => h
  | cons w ws ih => exact fun st _ => ih _ (sticky_and_stEmpty st w)

theorem getLsbD_foldl_sticky (ws : List (BitVec 128)) {n : Nat} (h : n < 6) : ∀ st : Byte,
    (ws.foldl sticky st).getLsbD n = (st.getLsbD n || ws.any (fun w => bit (epFields w).status n)) := by
  induction ws with
  | nil => simp
  | cons w ws ih =>
    intro st
    rw [List.foldl_cons, ih, getLsbD_sticky st w h, List.any_cons, Bool.or_assoc]

theorem sum_eq_of_perm {xs ys : List Int} (h : xs.Perm ys) : xs.sum = ys.sum := by
  rw [List.sum_eq_foldr, List.sum_eq_foldr]
  exact h.foldr_eq' (fun a _ b _ z => by omega) 0

/-- The order of the words does not matter (R82). -/
theorem Lane.mergeAll_perm {l : Lane} {ws ws' : List (BitVec 128)} (hp : ws.Perm ws') (hl : l.st &&& stEmpty = 0)
    (hw : ∀ w ∈ ws, ValueAt l.e w) (hc : l.c.toInt.natAbs + ws.length < 2147483647) : l.mergeAll ws' = l.mergeAll ws := by
  obtain ⟨hsum, he, hst⟩ := Lane.mergeAll_exact ws l hl hw hc
  obtain ⟨hsum', he', hst'⟩ := Lane.mergeAll_exact ws' l hl (fun w hm => hw w (hp.mem_iff.2 hm)) (by rw [← hp.length_eq]; exact hc)
  refine Lane.eq_of_laneSum ?_ (he'.trans he.symm) ?_
  · rw [hsum, hsum', sum_eq_of_perm (hp.map _)]
  · rw [hst, hst']
    exact (hp.foldl_eq' (fun a _ b _ st => sticky_comm st a b) l.st).symm

end Sys2Proof.Machine

namespace Sys2Proof.Proofs

open Sys2Proof.Machine Sys2Proof.Claim

/-- Settles O12: every term enters the lane's sum exactly, one by one. -/
theorem exactLaneHoldsExactSum : Obligations.ExactLaneHoldsExactSum := by
  unfold Obligations.ExactLaneHoldsExactSum
  intro l terms b sa sb limit val hs ht hb
  rw [exactLane_eq_foldl l terms b sa sb limit hs fun x hx => (ht x hx).1]
  exact foldl_accTerm_exact b sa sb val terms l (fun x hx => (ht x hx).2) hb

/-- Settles O11: words of one SCALE by induction over their list, and a merge of two word by word. -/
theorem mergeAddsExactly : Obligations.MergeAddsExactly := by
  unfold Obligations.MergeAddsExactly
  refine ⟨fun l ws hl hw hc => ?_, fun l w => ?_⟩
  · obtain ⟨hsum, he, hst⟩ := Lane.mergeAll_exact ws l hl hw hc
    refine ⟨⟨hsum, he, ?_, fun n hn => ?_⟩, fun ws' hp => Lane.mergeAll_perm hp hl hw hc⟩
    · exact hst ▸ foldl_sticky_and_stEmpty ws l.st hl
    · exact hst ▸ getLsbD_foldl_sticky ws hn l.st
  · refine ⟨fun hw => ?_, fun hw hl => ?_, fun hw hl hc he => ?_, fun hw hl he => ?_, fun n hn hor => ?_⟩
    · rw [l.merge_of_emptyWord w hw]
      exact ⟨rfl, rfl, rfl⟩
    · rw [l.merge_of_emptyLane w hw hl]
      exact ⟨rfl, rfl, rfl⟩
    · obtain ⟨hsum, hanchor, -⟩ := l.merge_exact w ⟨he, hw⟩ hl hc
      exact ⟨hsum, hanchor⟩
    · obtain ⟨hanchor, hset⟩ := l.merge_of_scale_ne w hw hl he
      exact ⟨hset 5 (by simp [stMixed]), hanchor⟩
    · exact l.merge_st w ((getLsbD_sticky l.st w hn).trans hor)

end Sys2Proof.Proofs
end

section
/-! The tensor engine's commands on tiles: MMA, MERGE and STORE (R84, R85, R97 to R100, R112 to R115, R120). -/

namespace Sys2Proof.Machine

/-! ### Flags of CORE_ARITH_STATUS (R100) -/

theorem Arith.getLsbD_flag (a : Arith) {n : Nat} (on : Bool) (j : Nat) (h : n < 9) :
    (a.flag n on).status.getLsbD j = (a.status.getLsbD j || (j == n && on)) := by
  unfold Arith.flag
  cases on with
  | false => simp
  | true =>
    rw [if_pos rfl, BitVec.getLsbD_or, BitVec.getLsbD_ofNat, Nat.testBit_two_pow, Bool.and_true, Bool.beq_eq_decide_eq]
    by_cases hj : j = n
    · simp [hj, h]
    · simp [hj, Ne.symm hj]

/-- A change of the arithmetic registers that sets status bits alone. -/
def Arith.Flagged (a b : Arith) : Prop := b = { a with status := b.status } ∧ ∀ n, a.status.getLsbD n = true → b.status.getLsbD n = true

theorem Arith.Flagged.refl (a : Arith) : Arith.Flagged a a := ⟨rfl, fun _ h => h⟩
theorem Arith.Flagged.trans {a b c : Arith} (h : Arith.Flagged a b) (k : Arith.Flagged b c) : Arith.Flagged a c :=
  ⟨by rw [k.1, h.1], fun n hn => k.2 n (h.2 n hn)⟩
theorem Arith.flagged_flag (a : Arith) {n : Nat} (on : Bool) (h : n < 9) : Arith.Flagged a (a.flag n on) := by
  refine ⟨?_, fun j hj => by rw [a.getLsbD_flag on j h, hj, Bool.true_or]⟩
  unfold Arith.flag
  split <;> rfl
theorem Arith.flagged_accFlags (a : Arith) (path16 : Bool) (l : Lane) : Arith.Flagged a (a.accFlags path16 l) := by
  unfold Arith.accFlags
  split <;> exact ((a.flagged_flag _ (by omega)).trans (Arith.flagged_flag _ _ (by omega))).trans (Arith.flagged_flag _ _ (by omega))
theorem Arith.flagged_foldl_accFlags (ls : List (Tile × Lane)) : ∀ a : Arith,
    Arith.Flagged a (ls.foldl (fun a x => a.accFlags x.1.path16 x.2) a) := by
  induction ls with
  | nil => exact .refl
  | cons x ls ih => exact fun a => (a.flagged_accFlags _ _).trans (ih _)

theorem Arith.getLsbD_convFlags (a : Arith) (f : ConvFlags) (j : Nat) : (a.convFlags f).status.getLsbD j =
    (a.status.getLsbD j || (j == 5 && f.ovf) || (j == 6 && f.undf) || (j == 7 && f.invalid) || (j == 8 && f.inexact)) := by
  unfold Arith.convFlags
  iterate 4 rw [Arith.getLsbD_flag _ _ _ (by omega)]
theorem Arith.flagged_convFlags (a : Arith) (f : ConvFlags) : Arith.Flagged a (a.convFlags f) :=
  (((a.flagged_flag _ (by omega)).trans (Arith.flagged_flag _ _ (by omega))).trans (Arith.flagged_flag _ _ (by omega))).trans
    (Arith.flagged_flag _ _ (by omega))

/-! ### The selected tiles -/

theorem Core.tile_setTiles_of_notMem (c : Core) {n : Nat} {ts : List (Nat × Tile)} (h : n ∉ ts.map Prod.fst) :
    (c.setTiles ts).tile n = c.tile n := Map.get_foldl_upd_of_notMem ({} : Tile) (fun x _ => x) n ts c.tensor.tiles h
theorem Core.tile_setTiles_of_mem (c : Core) {n : Nat} {x : Tile} {ts : List (Nat × Tile)} (hd : (ts.map Prod.fst).Nodup)
    (h : (n, x) ∈ ts) : (c.setTiles ts).tile n = x := Map.get_foldl_upd_of_mem ({} : Tile) (fun x _ => x) n x ts c.tensor.tiles hd h

/-- The model's test that every selected tile is ready (R114). -/
theorem all_ready_of_forall {sel : List Nat} {start : Nat → Tile} {p16 : Bool}
    (h : ∀ n ∈ sel, (start n).init = true ∧ (start n).path16 = p16) :
    (sel.map (fun n => (n, start n))).all (fun t => t.2.ready p16) = true := by
  rw [List.all_map, List.all_eq_true]
  intro n hn
  obtain ⟨hi, hp⟩ := h n hn
  simp [Tile.ready, hi, hp]

/-- What an operation f makes of the selected tiles, each from its start: the tile's number, the tile and what else f answers. -/
def tileResults {α : Type} (cmd : TCmd) (start : Nat → Tile) (f : Nat → Tile → Tile × α) : List (Nat × Tile × α) :=
  (cmdSel cmd).zipIdx.map (fun e => (e.1, f e.2 (start e.1)))

/-- A core whose selected tiles have taken their results. -/
def Core.takeTiles {α : Type} (c : Core) (rs : List (Nat × Tile × α)) : Core := c.setTiles (rs.map (fun r => (r.1, r.2.1)))

section
variable {α : Type} (c : Core) (cmd : TCmd) (start : Nat → Tile) (f : Nat → Tile → Tile × α)

theorem map_zipIdx_eq_tileResults :
    ((cmdSel cmd).map (fun t => (t, start t))).zipIdx.map (fun e => (e.1.1, f e.2 e.1.2)) = tileResults cmd start f := by
  rw [List.zipIdx_map, List.map_map]
  rfl
theorem map_fst_tileResults : ((tileResults cmd start f).map (fun r => (r.1, r.2.1))).map Prod.fst = cmdSel cmd := by
  rw [tileResults, List.map_map, List.map_map]
  exact List.zipIdx_map_fst _ _

theorem tile_takeTiles_of_notMem {n : Nat} (h : n ∉ cmdSel cmd) : (c.takeTiles (tileResults cmd start f)).tile n = c.tile n :=
  c.tile_setTiles_of_notMem (by rwa [map_fst_tileResults])
theorem tile_takeTiles_of_getElem? {i n : Nat} (h : (cmdSel cmd)[i]? = some n) :
    (c.takeTiles (tileResults cmd start f)).tile n = (f i (start n)).1 := by
  refine c.tile_setTiles_of_mem (by rw [map_fst_tileResults]; exact cmdSel_nodup cmd) ?_
  rw [tileResults, List.map_map, List.mem_map]
  exact ⟨(n, i), List.mk_mem_zipIdx_iff_getElem?.2 h, rfl⟩

theorem any_tileResults (p : α → Bool) : (tileResults cmd start f).any (fun r => p r.2.2) =
    (List.range (cmdSel cmd).length).any (fun i => p (f i (start ((cmdSel cmd).getD i 0))).2) := by
  have hzip : (cmdSel cmd).zipIdx = (List.range (cmdSel cmd).length).map (fun i => ((cmdSel cmd).getD i 0, i)) := by
    refine List.ext_getElem (by simp) fun i hi _ => ?_
    rw [List.length_zipIdx] at hi
    simp [hi]
  rw [tileResults, hzip, List.map_map, List.any_map]
  rfl
end

/-! ### MMA (R114, R115, R120) -/

/-- A selected tile as an MMA starts from it (R114). -/
def mmaStart (c : Core) (cmd : TCmd) (n : Nat) : Tile := if cmd.init then (c.tile n).initMma (mmaPath16 cmd) else c.tile n

/-- What an MMA within the anchors makes of the selected tiles. -/
def mmaResults (c : Core) (cmd : TCmd) : List (Nat × Tile × Bool) :=
  tileResults cmd (mmaStart c cmd)
    (mmaTile cmd (Map.get {} c.tensor.a (cmdHalf cmd)) (Map.get {} c.tensor.b (cmdHalf cmd)) (cmdKBlocks cmd))

theorem any_mmaResults (c : Core) (cmd : TCmd) : (mmaResults c cmd).any (fun r => r.2.2) =
    (List.range (cmdSel cmd).length).any (fun i => (mmaTile cmd (Map.get {} c.tensor.a (cmdHalf cmd))
      (Map.get {} c.tensor.b (cmdHalf cmd)) (cmdKBlocks cmd) i (mmaStart c cmd ((cmdSel cmd).getD i 0))).2) :=
  any_tileResults _ _ _ id

theorem teMma_of_fault {c : Core} {cmd : TCmd} {chk : TChk} {f : CoreFault}
    (h : mmaFault c (mmaPath16 cmd) (mmaBeats cmd (Map.get {} c.tensor.a (cmdHalf cmd)).data.toNat) chk = some f) :
    teMma c cmd chk = (c, some f) := by
  unfold teMma
  dsimp only
  rw [h]

/-- An MMA on tiles that are ready, within the anchors. -/
theorem teMma_of_ready {c : Core} {cmd : TCmd}
    (hr : ∀ n ∈ cmdSel cmd, (mmaStart c cmd n).init = true ∧ (mmaStart c cmd n).path16 = mmaPath16 cmd)
    (ha : mmaPath16 cmd = false → anchorExceeded cmd (Map.get {} c.tensor.a (cmdHalf cmd)) (Map.get {} c.tensor.b (cmdHalf cmd))
      ((cmdSel cmd).map (fun n => (n, mmaStart c cmd n))) = none) :
    teMma c cmd .ok =
      (let n := mmaBeats cmd (Map.get {} c.tensor.a (cmdHalf cmd)).data.toNat
       ({ c with
          tensor := { (c.takeTiles (mmaResults c cmd)).tensor with
            mmaBeats := (satAdd c.tensor.mmaBeats c.tensor.mmaSat n).1, mmaSat := (satAdd c.tensor.mmaBeats c.tensor.mmaSat n).2,
            dupTurn := if mmaPath16 cmd then c.tensor.dupTurn + BitVec.ofNat 8 n else c.tensor.dupTurn },
          arith := c.arith.flag 3 ((mmaResults c cmd).any (fun r => r.2.2)) }, none)) := by
  have hready := all_ready_of_forall hr
  have hbad : (if mmaPath16 cmd then none else anchorExceeded cmd (Map.get {} c.tensor.a (cmdHalf cmd))
      (Map.get {} c.tensor.b (cmdHalf cmd)) ((cmdSel cmd).map (fun n => (n, mmaStart c cmd n)))) = none := by
    cases hp : mmaPath16 cmd with
    | true => rfl
    | false => exact ha hp
  unfold mmaStart at hready hbad
  unfold teMma
  simp only [mmaFault, hready, hbad, Bool.not_true, Bool.false_eq_true, if_false]
  rw [mmaResults, ← map_zipIdx_eq_tileResults]
  rfl

/-! ### MERGE (R84, R85, R112) -/

/-- A selected tile as a MERGE starts from it (R112). -/
def mergeStart (c : Core) (cmd : TCmd) (n : Nat) : Tile :=
  if cmd.init then (c.tile n).initMerge (cmd.fmt.toNat == 0) else c.tile n

/-- Partial l of the i-th selected tile (R112). -/
def partialOf (cmd : TCmd) (bs : List Byte) (i l : Nat) : BitVec 128 :=
  BitVec.ofNat 128 (eltAt (ofBytes bs) 0 (8 * (if cmd.fmt.toNat == 0 then 4 else 16)) (256 * i + l))

/-- The first malformed word of the selected lanes: its tile and lane (R84). -/
def firstMalformed (cmd : TCmd) (word : Nat → Nat → BitVec 128) : Option (Nat × Nat) :=
  (cmdSel cmd).zipIdx.findSome? (fun e => ((List.range 256).find? (fun l => epMalformed (word e.2 l))).map (fun l => (e.1, l)))

theorem firstMalformed_eq_none {cmd : TCmd} {word : Nat → Nat → BitVec 128}
    (h : ∀ i l, i < (cmdSel cmd).length → l < 256 → epMalformed (word i l) = false) : firstMalformed cmd word = none := by
  rw [firstMalformed, List.findSome?_eq_none_iff]
  intro e he
  have hlt := List.snd_lt_of_mem_zipIdx he
  rw [Nat.add_zero] at hlt
  rw [Option.map_eq_none_iff, List.find?_eq_none]
  intro l hl
  rw [h _ _ hlt (List.mem_range.1 hl)]
  exact Bool.false_ne_true

theorem firstMalformed_eq_some {cmd : TCmd} {word : Nat → Nat → BitVec 128} {i n l : Nat} (hi : (cmdSel cmd)[i]? = some n) (hl : l < 256)
    (hbad : epMalformed (word i l) = true) (hfirst : ∀ i' l', l' < 256 → 256 * i' + l' < 256 * i + l → epMalformed (word i' l') = false) :
    firstMalformed cmd word = some (n, l) := by
  have hfind : (List.range 256).find? (fun l => epMalformed (word i l)) = some l := by
    rw [List.find?_range_eq_some]
    exact ⟨hbad, List.mem_range.2 hl, fun j hj => by rw [hfirst i j (by omega) (by omega)]; rfl⟩
  obtain ⟨hlt, hget⟩ := List.getElem?_eq_some_iff.1 hi
  rw [firstMalformed, List.findSome?_eq_some_iff]
  have hlen : ((cmdSel cmd).take i).length = i := by rw [List.length_take]; omega
  have hsplit : (cmdSel cmd).zipIdx = ((cmdSel cmd).take i).zipIdx ++ (n, i) :: ((cmdSel cmd).drop (i + 1)).zipIdx (i + 1) := by
    conv =>
      lhs
      rw [← List.take_append_drop i (cmdSel cmd), List.drop_eq_getElem_cons hlt, hget, List.zipIdx_append, hlen]
    rw [List.zipIdx_cons, Nat.zero_add]
  refine ⟨_, (n, i), _, hsplit, by rw [hfind]; rfl, fun e he => ?_⟩
  have hidx := List.snd_lt_of_mem_zipIdx he
  rw [Option.map_eq_none_iff, List.find?_eq_none]
  intro j hj
  have hj := List.mem_range.1 hj
  rw [hfirst e.2 j hj (by omega)]
  exact Bool.false_ne_true

/-- What a MERGE of well-formed partials makes of the selected tiles. -/
def mergeResults (c : Core) (cmd : TCmd) (bs : List Byte) : List (Nat × Tile × Bool × Bool) :=
  tileResults cmd (mergeStart c cmd) (fun i => mergeTile (cmd.fmt.toNat == 0) ((List.range 256).map (partialOf cmd bs i)))

theorem lane_mergeTile (p16 : Bool) (word : Nat → BitVec 128) (x : Tile) {l : Nat} (hl : l < 256) :
    (mergeTile p16 ((List.range 256).map word) x).1.lane l =
      if p16 then (x.lane l).addF32 (BitVec.ofNat 32 (word l).toNat) (numOfF32 (BitVec.ofNat 32 (word l).toNat)).finite
      else ((x.lane l).merge (word l)).1 := by
  unfold mergeTile
  cases p16 <;> simp [Tile.lane, hl]

/-- The arithmetic registers after a MERGE: INEXACT where a partial was rounded, SCALE_MIXED where SCALEs differed (R100). -/
def mergedArith (c : Core) (cmd : TCmd) (bs : List Byte) : Arith :=
  (c.arith.flag 3 ((mergeResults c cmd bs).any (fun r => r.2.2.1))).flag 4 ((mergeResults c cmd bs).any (fun r => r.2.2.2))

theorem mergedArith_flagged (c : Core) (cmd : TCmd) (bs : List Byte) : Arith.Flagged c.arith (mergedArith c cmd bs) :=
  (c.arith.flagged_flag _ (by omega)).trans (Arith.flagged_flag _ _ (by omega))
theorem getLsbD_mergedArith (c : Core) (cmd : TCmd) (bs : List Byte) {n : Nat} (h3 : n ≠ 3) (h4 : n ≠ 4) :
    (mergedArith c cmd bs).status.getLsbD n = c.arith.status.getLsbD n := by
  unfold mergedArith
  rw [Arith.getLsbD_flag _ _ _ (by omega), Arith.getLsbD_flag _ _ _ (by omega), beq_false_of_ne h3, beq_false_of_ne h4]
  simp

/-- What a MERGE answers, by the first malformed word if there is one (R84, R112). -/
def mergeOutcome (c : Core) (cmd : TCmd) (bs : List Byte) : Option (Nat × Nat) → Core × Option CoreFault
  | some (t, l) => (c, some (.check 5 t l false))
  | none => ({ c.takeTiles (mergeResults c cmd bs) with arith := mergedArith c cmd bs }, none)

/-- A MERGE of partials that are read, into tiles that are ready. -/
theorem teMerge_of_ready {c : Core} {cmd : TCmd} {bs : List Byte}
    (hread : c.readMem cmd.addr.toNat (256 * (if cmd.fmt.toNat == 0 then 4 else 16) * (cmdSel cmd).length) = .ok bs)
    (hr : ∀ n ∈ cmdSel cmd, (mergeStart c cmd n).init = true ∧ (mergeStart c cmd n).path16 = (cmd.fmt.toNat == 0)) :
    teMerge c cmd .ok = mergeOutcome c cmd bs (if cmd.fmt.toNat == 0 then none else firstMalformed cmd (partialOf cmd bs)) := by
  have hready := all_ready_of_forall hr
  have hfirst : firstMalformed cmd (partialOf cmd bs) = ((cmdSel cmd).map (fun n => (n, mergeStart c cmd n))).zipIdx.findSome? (fun e =>
      ((List.range 256).find? (fun l => epMalformed (partialOf cmd bs e.2 l))).map (fun l => (e.1.1, l))) := by
    rw [List.zipIdx_map, List.findSome?_map]
    rfl
  rw [hfirst]
  unfold mergeStart at hready
  unfold teMerge
  simp only [chkFault, hread, hready, Bool.not_true, Bool.false_eq_true, if_false]
  unfold mergeOutcome mergedArith mergeResults
  rw [← map_zipIdx_eq_tileResults]
  rfl

/-! ### STORE (R113, R162) -/

theorem padLine_length (ctr : Nat) (bs : List Byte) : (padLine ctr bs).length = bs.length + (roundUp bs.length 64 - bs.length) := by
  simp [padLine]

/-- The arithmetic registers after the values of a panel have been stored (R95, R100). -/
def storedArith (a : Arith) (ls : List (Tile × Lane)) (o : StoreOut) : Arith :=
  { ((ls.foldl (fun a x => a.accFlags x.1.path16 x.2) a).convFlags o.flags) with convCount := a.convCount + o.conv }

theorem storedArith_frame (a : Arith) (ls : List (Tile × Lane)) (o : StoreOut) :
    storedArith a ls o = { a with status := (storedArith a ls o).status, convCount := a.convCount + o.conv } := by
  obtain ⟨hframe, -⟩ := (a.flagged_foldl_accFlags ls).trans (Arith.flagged_convFlags _ o.flags)
  unfold storedArith
  rw [hframe]

theorem getLsbD_storedArith (a : Arith) (ls : List (Tile × Lane)) (o : StoreOut) (j : Nat) : (storedArith a ls o).status.getLsbD j =
    ((ls.foldl (fun a x => a.accFlags x.1.path16 x.2) a).status.getLsbD j || (j == 5 && o.flags.ovf) || (j == 6 && o.flags.undf) ||
      (j == 7 && o.flags.invalid) || (j == 8 && o.flags.inexact)) := Arith.getLsbD_convFlags _ _ _

/-- A core whose panel has been stored, its scales filled up with free bytes from number ctr on. -/
def Core.stored (c : Core) (cmd : TCmd) (pword ctr : Nat) : Core :=
  let o := storeOut c cmd pword (panelLanes c cmd)
  { (c.writeMem cmd.addr.toNat o.data).writeMem cmd.scaleAddr.toNat (padLine ctr o.scale) with
    arith := storedArith c.arith (panelLanes c cmd) o }

/-- A STORE changes of a core its memory, the status and the element counter alone. -/
theorem Core.stored_frame (c : Core) (cmd : TCmd) (pword ctr : Nat) : c.stored cmd pword ctr =
    (let o := storeOut c cmd pword (panelLanes c cmd)
     { (c.writeMem cmd.addr.toNat o.data).writeMem cmd.scaleAddr.toNat (padLine ctr o.scale) with
       arith := { c.arith with status := (c.stored cmd pword ctr).arith.status, convCount := c.arith.convCount + o.conv } }) := by
  unfold Core.stored
  dsimp only
  rw [← storedArith_frame]

theorem teStore_of_allowed {c : Core} {cmd : TCmd} (pword ctr : Nat) (h : storeAllowed cmd (panelLanes c cmd) = true) :
    teStore c cmd .ok pword ctr = (c.stored cmd pword ctr, none,
      roundUp (storeOut c cmd pword (panelLanes c cmd)).scale.length 64 - (storeOut c cmd pword (panelLanes c cmd)).scale.length) := by
  unfold teStore
  simp only [chkFault, h, Bool.not_true, Bool.false_eq_true, if_false, padLine_length, Nat.add_sub_cancel_left]
  rfl

end Sys2Proof.Machine

namespace Sys2Proof.Claim

open Sys2Proof.Machine

/-- What a checker finds in an MMA that acts is all that the MMA does. -/
theorem exec_mma_of_mmaFault {k : Nat} {s : State} {cmd : TCmd} {chk : TChk} {f : CoreFault} (h : Acts k s (.mma k cmd .ok))
    (hf : mmaFault (s.core k) (mmaPath16 cmd) (mmaBeats cmd (Map.get {} (s.core k).tensor.a (cmdHalf cmd)).data.toNat) chk = some f) :
    exec (.mma k cmd chk) s = .next (s.coreFault k f) :=
  exec_fault (fun x => teMma x cmd chk) k s f h rfl (teMma_of_fault hf)

/-- A memory-port command that finds a fault before it changes anything. -/
theorem exec_port_fault {i : Instr} {k : Nat} {p : PortCmd} {s : State} {f : CoreFault} (hk : scheduledAt i = some k)
    (hp : portOf i = some p) (h : Acts k s i) (hl : s.portLate k p.op p.cmd = none) (hr : p.run (s.core k) = (s.core k, some f)) :
    exec i s = .next (s.coreFault k f) := by
  rw [exec_port hk hp, State.portAt_acting _ _ _ _ _ h.1 hp h.2, State.portStart_now _ _ _ _ hl, hr, State.coreStep_fault,
    coreFault_setCore]

/-- A malformed word of the selected lanes is all that a MERGE finds. -/
theorem exec_merge_of_malformed {k : Nat} {s : State} {cmd : TCmd} {bs : List Byte} {n l : Nat} (h : Acts k s (.merge k cmd .ok))
    (hl : s.portLate k 5 cmd = none) (hread : (s.core k).readMem cmd.addr.toNat (4096 * (cmdSel cmd).length) = .ok bs)
    (hp : (cmd.fmt.toNat == 0) = false)
    (hr : ∀ n ∈ cmdSel cmd, (mergeStart (s.core k) cmd n).init = true ∧ (mergeStart (s.core k) cmd n).path16 = false)
    (hbad : firstMalformed cmd (partialOf cmd bs) = some (n, l)) :
    exec (.merge k cmd .ok) s = .next (s.coreFault k (.check 5 n l false)) := by
  have hrun : teMerge (s.core k) cmd .ok = (s.core k, some (.check 5 n l false)) := by
    rw [teMerge_of_ready (bs := bs) (by rw [hp, if_neg Bool.false_ne_true]; exact hread) (by rw [hp]; exact hr), hp,
      if_neg Bool.false_ne_true, hbad]
    rfl
  exact exec_port_fault rfl rfl h hl hrun

/-- A STORE that acts, in a form that R113 allows. -/
theorem exec_store_of_allowed {k : Nat} {s : State} {cmd : TCmd} (h : Acts k s (.store k cmd .ok))
    (ha : storeAllowed cmd (panelLanes (s.core k) cmd) = true) :
    exec (.store k cmd .ok) s =
      (let o := storeOut (s.core k) cmd (localCore s.split (wingOf k) k) (panelLanes (s.core k) cmd)
       .next (({ s with freeCtr := s.freeCtr + (roundUp o.scale.length 64 - o.scale.length) } : State).setCore k
         ((s.core k).stored cmd (localCore s.split (wingOf k) k) s.freeCtr))) := by
  have hexec : exec (.store k cmd .ok) s = execStore k cmd .ok s := rfl
  have hact : s.acting k (.store k cmd .ok) = true := h.2
  rw [hexec, execStore, atCore_valid _ h.1, if_pos hact, teStore_of_allowed _ _ ha]
  rfl

/-- A checker's error changes of the tensor engine nothing. -/
theorem tensor_coreFault_check (s : State) (k code tile lane : Nat) (path : Bool) :
    ((s.coreFault k (.check code tile lane path)).core k).tensor = (s.core k).tensor := by
  obtain ⟨on, ret, rel, lines, l, hcore⟩ := s.core_coreFault k (.check code tile lane path) k
  rw [hcore, if_pos rfl]
  rfl

end Sys2Proof.Claim

namespace Sys2Proof.Proofs

open Sys2Proof.Machine Sys2Proof.Claim

/-- Settles O7: each selected tile takes its result, one by one, and what a checker finds comes first. -/
theorem mmaAccumulatesSelectedTiles : Obligations.MmaAccumulatesSelectedTiles := by
  unfold Obligations.MmaAccumulatesSelectedTiles
  intro k s cmd h
  refine ⟨fun hr ha => ?_, fun chk f hf => exec_mma_of_mmaFault h hf⟩
  have hr' : ∀ n ∈ cmdSel cmd, (mmaStart (s.core k) cmd n).init = true ∧ (mmaStart (s.core k) cmd n).path16 = mmaPath16 cmd := hr
  refine answers_op (fun x => teMma x cmd .ok) k s h _ rfl ?_ ?_
  · rw [teMma_of_ready hr' ha]
  · dsimp only
    rw [teMma_of_ready hr' ha, State.core_setCore_same]
    refine ⟨oneCore_of ?_, fun n hn => ?_, fun i n hi => ?_, fun n => ?_⟩
    · dsimp only
      rw [((s.core k).arith.flagged_flag _ (by omega)).1]
      rfl
    · exact tile_takeTiles_of_notMem _ _ _ _ hn
    · exact tile_takeTiles_of_getElem? _ _ _ _ hi
    · dsimp only
      rw [Arith.getLsbD_flag _ _ _ (by omega), any_mmaResults]
      rfl

/-- Settles O8: each selected tile takes its result lane by lane, and MERGE sets flags 3 and 4 alone. -/
theorem mergeCombinesPartials : Obligations.MergeCombinesPartials := by
  unfold Obligations.MergeCombinesPartials
  intro k s cmd bs h hl
  dsimp only
  intro hread hr hw
  have hgood : (if cmd.fmt.toNat == 0 then none else firstMalformed cmd (partialOf cmd bs)) = none := by
    cases hp : cmd.fmt.toNat == 0 with
    | true => rfl
    | false => exact firstMalformed_eq_none (hw hp)
  have hrun := teMerge_of_ready hread hr
  rw [hgood] at hrun
  refine answers_port rfl rfl h hl hrun ?_
  rw [State.core_setCore_same]
  obtain ⟨hframe, hset⟩ := mergedArith_flagged (s.core k) cmd bs
  refine ⟨oneCore_of ?_, fun n hn => tile_takeTiles_of_notMem _ _ _ _ hn, hset, fun n h3 h4 => ?_, fun i n l hi hlt => ?_⟩
  · dsimp only
    rw [hframe]
    rfl
  · exact getLsbD_mergedArith _ _ _ h3 h4
  · refine (congrArg (Tile.lane · l) (tile_takeTiles_of_getElem? _ _ _ _ hi)).trans ?_
    exact lane_mergeTile _ _ _ hlt

/-- Settles O9: the first malformed word is the fault that the core finds, which ends the step. -/
theorem malformedPartialIsRefused : Obligations.MalformedPartialIsRefused := by
  unfold Obligations.MalformedPartialIsRefused
  intro k s cmd bs h hl hfmt
  dsimp only
  intro hread hr i n l hi hlt hbad hfirst
  have hp : (cmd.fmt.toNat == 0) = false := by simpa using hfmt
  have hword : ∀ i l, BitVec.ofNat 128 (eltAt (ofBytes bs) 0 128 (256 * i + l)) = partialOf cmd bs i l := by
    intro i l
    rw [partialOf, hp]
    rfl
  simp only [hword] at hbad hfirst
  have hexec := exec_merge_of_malformed h hl hread hp (by unfold mergeStart; rw [hp]; exact hr)
    (firstMalformed_eq_some hi hlt hbad hfirst)
  refine ⟨hexec, fun ht => ⟨_, hexec, ?_, tensor_coreFault_check _ _ _ _ _ _⟩⟩
  exact coreFault_ends s k (.check 5 n l false) ht (show checkCode 5 ≠ syncCode 7 by decide)

/-- Settles O10: the panel and its scales are written line by line, and each flag of the conversion is kept. -/
theorem storeWritesPanel : Obligations.StoreWritesPanel := by
  unfold Obligations.StoreWritesPanel
  intro k s cmd h
  dsimp only
  intro ha
  refine ⟨_, exec_store_of_allowed h ha, ?_⟩
  have hflag := getLsbD_storedArith (s.core k).arith (panelLanes (s.core k) cmd)
    (storeOut (s.core k) cmd (localCore s.split (wingOf k) k) (panelLanes (s.core k) cmd))
  dsimp only
  rw [State.core_setCore_same, State.setCore_freeCtr]
  refine ⟨rfl, oneCore_of ((s.core k).stored_frame _ _ _), rfl, fun hf => ?_, fun hf => ?_, fun hf => ?_, fun hf => ?_, fun n hn => ?_⟩
  · exact (hflag 5).trans (by simp [hf])
  · exact (hflag 6).trans (by simp [hf])
  · exact (hflag 7).trans (by simp [hf])
  · exact (hflag 8).trans (by simp [hf])
  · exact (hflag n).trans (by simp [((s.core k).arith.flagged_foldl_accFlags _).2 n hn])

end Sys2Proof.Proofs
end

section
/-! The register writes of a core with an action (R100, R170, R219, R281, R294). -/

namespace Sys2Proof.Machine

/-- A field of a register word, read as a number or cut out as bits. -/
theorem ofNat_bits {w hi lo n : Nat} (x : BitVec w) (h : hi - lo + 1 = n) : BitVec.ofNat n (bits x hi lo) = x.extractLsb' lo n := by
  apply BitVec.eq_of_toNat_eq
  rw [BitVec.toNat_ofNat, BitVec.extractLsb'_toNat, Nat.shiftRight_eq_div_pow, bits, h, Nat.mod_mod]

/-! ### Sections turned off (R170) -/

/-- The 192 lines of section j, as bits of the line states. -/
theorem testBit_sectionLines (j i : Nat) : ((2 ^ 192 - 1) * 2 ^ (192 * j)).testBit i = decide (i / 192 = j) := by
  rw [Nat.testBit_mul_two_pow, Nat.testBit_two_pow_sub_one, ← Bool.decide_and, decide_eq_decide]
  omega

/-- Turning off section j of a mask clears the states of its lines alone. -/
theorem getLsbD_dropSection (m : Byte) (v : BitVec 1536) (j : Nat) {i : Nat} (hi : i < 1536) :
    (if bit m j then v &&& ~~~(BitVec.ofNat 1536 ((2 ^ 192 - 1) * 2 ^ (192 * j))) else v).getLsbD i =
    (v.getLsbD i && !(decide (i / 192 = j) && m.getLsbD j)) := by
  rw [bit_eq_getLsbD]
  cases m.getLsbD j with
  | false => simp
  | true =>
    rw [if_pos rfl, BitVec.getLsbD_and, BitVec.getLsbD_not, BitVec.getLsbD_ofNat, testBit_sectionLines, decide_eq_true hi,
      Bool.true_and, Bool.true_and, Bool.and_true]

/-- The line states with the lines of the first n sections of a mask out. -/
theorem getLsbD_foldl_dropSection (m : Byte) (v : BitVec 1536) (n : Nat) {i : Nat} (hi : i < 1536) :
    ((List.range n).foldl (fun (v : BitVec 1536) j =>
      if bit m j then v &&& ~~~(BitVec.ofNat 1536 ((2 ^ 192 - 1) * 2 ^ (192 * j))) else v) v).getLsbD i =
    (v.getLsbD i && !(decide (i / 192 < n) && m.getLsbD (i / 192))) := by
  induction n with
  | zero => simp
  | succ n ih =>
    rw [List.range_succ, List.foldl_append, List.foldl_cons, List.foldl_nil, getLsbD_dropSection _ _ _ hi, ih]
    generalize v.getLsbD i = b
    by_cases hn : i / 192 = n
    · rw [hn, decide_eq_false (Nat.lt_irrefl n), decide_eq_true rfl, decide_eq_true (Nat.lt_succ_self n)]
      simp
    · have hlt : decide (i / 192 < n + 1) = decide (i / 192 < n) := decide_eq_decide.2 (by omega)
      rw [hlt, decide_eq_false hn, Bool.false_and, Bool.not_false, Bool.and_true]

theorem CoreMem.getLsbD_turnOff (x : CoreMem) (m : Byte) {i : Nat} (hi : i < 1536) :
    (x.turnOff m).lineSet.getLsbD i = (x.lineSet.getLsbD i && !m.getLsbD (i / 192)) := by
  refine (getLsbD_foldl_dropSection m x.lineSet 8 hi).trans ?_
  rw [decide_eq_true (by omega : i / 192 < 8), Bool.true_and]

/-! ### Limits (R294) -/

/-- The limits that a written value brings in force. -/
def Limit.written (l : Limit) (v : Word) : Limit :=
  { l with sections := v.extractLsb' 0 8, tiles := v.extractLsb' 8 4, slots := v.extractLsb' 12 4, depth := v.extractLsb' 16 5,
           sendEp := v.extractLsb' 21 5, recvEp := v.extractLsb' 26 5, pend := none }

theorem Limit.settle_pend (l : Limit) (v : Word) : ({ l with pend := some v } : Limit).settle = l.written v := by
  simp only [Limit.settle, Limit.written, ofNat_bits v (show 7 - 0 + 1 = 8 from rfl), ofNat_bits v (show 11 - 8 + 1 = 4 from rfl),
    ofNat_bits v (show 15 - 12 + 1 = 4 from rfl), ofNat_bits v (show 20 - 16 + 1 = 5 from rfl),
    ofNat_bits v (show 25 - 21 + 1 = 5 from rfl), ofNat_bits v (show 30 - 26 + 1 = 5 from rfl)]

/-- While a step runs a written value waits. -/
theorem Core.writeLimit_running (c : Core) (v : Word) : c.writeLimit true v = { c with limit := { c.limit with pend := some v } } := rfl
/-- With no step running a written value is in force at once. -/
theorem Core.writeLimit_idle (c : Core) (v : Word) : c.writeLimit false v = { c with limit := c.limit.written v } := by
  rw [← Limit.settle_pend]
  rfl

/-- A write that the programs of a wing see and a write of a core do not meet. -/
theorem State.setCore_onWing_noteLimit (s : State) (k w : Nat) (c : Core) :
    (s.setCore k c).onWing w WingState.noteLimit = (s.onWing w WingState.noteLimit).setCore k c := by
  unfold State.setCore State.onWing State.setWing State.wing
  by_cases hk : wingOf k = 0 <;> by_cases hw : w = 0 <;> simp [hk, hw, WingState.noteLimit]

/-! ### Writes of a core register -/

theorem Core.writeReg_limit (running : Bool) (v : Word) (c : Core) : c.writeReg running 0xC00 v = c.writeLimit running v := rfl
theorem Core.writeReg_release (running : Bool) (m : Byte) (c : Core) :
    c.writeReg running 0x518 (m.setWidth 64) = c.writeRelease running m := by
  have hm : (m.setWidth 64).setWidth 8 = m := by simp
  exact congrArg (fun x => c.writeRelease running x) hm
theorem Core.writeReg_status (running : Bool) (v : Word) (c : Core) : c.writeReg running 0x218 v = c.clearStatus v := rfl

/-- A write to CORE_LIMIT: the core takes it, and the programs of its wing see it. -/
theorem State.writeCore_limit (s : State) (k : Nat) (v : Word) : s.writeCore k 0xC00 v =
    (s.onWing (s.lead (wingOf k)) WingState.noteLimit).setCore k ((s.core k).writeLimit (s.stepRuns (wingOf k)) v) := by
  rw [← State.setCore_onWing_noteLimit]
  unfold State.writeCore
  dsimp only
  rw [if_pos rfl, State.onCore, State.lead_setCore, Core.writeReg_limit]
/-- A write to another register changes its core alone. -/
theorem State.writeCore_of_ne (s : State) (k : Nat) {off : Nat} (v : Word) (h : off ≠ 0xC00) :
    s.writeCore k off v = s.setCore k ((s.core k).writeReg (s.stepRuns (wingOf k)) off v) := if_neg h

end Sys2Proof.Machine

namespace Sys2Proof.Claim

open Sys2Proof.Machine

section
variable {k : Nat} (s : State) (hk : validCore k = true)
include hk

theorem exec_coreLimitWrite (v : Word) : exec (.coreLimitWrite k v) s =
    .next ((s.onWing (s.lead (wingOf k)) WingState.noteLimit).setCore k ((s.core k).writeLimit (s.stepRuns (wingOf k)) v)) := by
  rw [← State.writeCore_limit]
  exact atCore_valid _ hk
theorem exec_coreMemRelease (m : Byte) : exec (.coreMemRelease k m) s =
    .next (s.setCore k ((s.core k).writeRelease (s.stepRuns (wingOf k)) m)) := by
  rw [← Core.writeReg_release, ← State.writeCore_of_ne _ _ _ (by decide)]
  exact atCore_valid _ hk
theorem exec_coreArithStatusClear (m : Word) : exec (.coreArithStatusClear k m) s = .next (s.setCore k ((s.core k).clearStatus m)) := by
  rw [← Core.writeReg_status, ← State.writeCore_of_ne _ _ _ (by decide)]
  exact atCore_valid _ hk
theorem exec_staleClear : exec (.staleClear k) s = .next (s.setCore k (s.core k).clearStale) := atCore_valid _ hk
theorem exec_rtLinkClear (l : BitVec 2) : exec (.rtLinkClear k l) s = .next (s.setCore k ((s.core k).clearLink l.toNat)) :=
  atCore_valid _ hk
end

end Sys2Proof.Claim

namespace Sys2Proof.Proofs

open Sys2Proof.Machine Sys2Proof.Claim

/-- Settles O40: each write replaces its core by the core with that field changed; CORE_LIMIT is noted for the programs too. -/
theorem coreRegisterWritesAct : Obligations.CoreRegisterWritesAct := by
  unfold Obligations.CoreRegisterWritesAct
  intro k s hk
  dsimp only
  refine ⟨fun v => ⟨fun hrun => ?_, fun hrun => ?_⟩, fun m => ⟨fun hrun => ?_, fun hrun => ?_⟩, fun m => ?_, ?_, fun l => ?_⟩
  · exact ⟨_, exec_coreLimitWrite s hk v, oneCore_of (by rw [hrun, Core.writeLimit_running])⟩
  · exact ⟨_, exec_coreLimitWrite s hk v, (s.core k).limit.written v, oneCore_of (by rw [hrun, Core.writeLimit_idle]),
      rfl, rfl, rfl, rfl, rfl, rfl, rfl, rfl⟩
  · refine ⟨_, exec_coreMemRelease s hk m, oneCore_of ?_⟩
    rw [hrun]
    rfl
  · refine ⟨_, exec_coreMemRelease s hk m, _, oneCore_of ?_, fun i hi => (s.core k).mem.getLsbD_turnOff m hi⟩
    rw [hrun]
    rfl
  · exact ⟨_, exec_coreArithStatusClear s hk m, oneCore_setCore _ _ _⟩
  · exact ⟨_, exec_staleClear s hk, oneCore_setCore _ _ _⟩
  · exact ⟨_, exec_rtLinkClear s hk l, _, oneCore_setCore _ _ _, setsKey_set _ _ _ _⟩

end Sys2Proof.Proofs
end

section
/-! PROOFS. DSTART and DTILE: the start of a stream in a slot of the DMA engine, and the tiles on which DTILE acts (R224, R225,
R230, R272, R273). -/

namespace Sys2Proof.Machine

theorem Map.find?_set_same {α : Type} (m : List (Nat × α)) (a : Nat) (v : α) : Map.find? (Map.set m a v) a = some v := by
  induction m with
  | nil => simp [Map.set, Map.find?]
  | cons e m ih =>
    obtain ⟨k, w⟩ := e
    unfold Map.set
    split
    · simp [Map.find?]
    · split
      · simp [Map.find?]
      · simp [Map.find?, *]

/-! ### Stream slots (R224) -/

theorem Core.slot_of_slots {c : Core} {m : List (Nat × DmaSlot)} {n : Nat} {x : DmaSlot} (h : c.dma.slots = Map.set m n x) :
    c.slot n = x := by
  unfold Core.slot
  rw [h]
  exact Map.get_set_same ..
@[simp] theorem Core.slot_setSlot_same (c : Core) (n : Nat) (x : DmaSlot) : (c.setSlot n x).slot n = x := Core.slot_of_slots rfl
@[simp] theorem Core.setSlot_setSlot (c : Core) (n : Nat) (x y : DmaSlot) : (c.setSlot n x).setSlot n y = c.setSlot n y := by
  unfold Core.setSlot
  dsimp only
  rw [Map.set_set]
/-- A slot set to what was set there last stays as it is. -/
theorem Core.setSlot_of_slots {c : Core} {m : List (Nat × DmaSlot)} {n : Nat} {x : DmaSlot} (h : c.dma.slots = Map.set m n x) :
    c.setSlot n x = c := by
  unfold Core.setSlot
  rw [h, Map.set_set, ← h]

/-- A slot that is busy from now on with x. -/
def Core.occupy (c : Core) (n : Nat) (x : DmaSlot) : Core :=
  { c.setSlot n x with dma := { (c.setSlot n x).dma with busy := c.dma.busy ||| BitVec.ofNat 8 (2 ^ n) } }

theorem Core.takeSlot_eq (c : Core) (n i beat : Nat) :
    c.takeSlot n i beat = c.occupy n { index := i, start := beat, fetching := true, owed := (c.slot n).unacted } := rfl
theorem Core.slotBusy_occupy (c : Core) (n : Nat) (x : DmaSlot) {j : Nat} (hj : j < 8) :
    (c.occupy n x).slotBusy j = (c.slotBusy j || j == n) := by
  change (c.dma.busy ||| BitVec.ofNat 8 (2 ^ n)).getLsbD j = _
  rw [BitVec.getLsbD_or, BitVec.getLsbD_ofNat, Nat.testBit_two_pow, decide_eq_true hj, Bool.true_and, Bool.beq_eq_decide_eq]
  exact congrArg _ (decide_eq_decide.2 eq_comm)

/-! ### DSTART (R224, R225, R273) -/

/-- What a held descriptor answers depends on the bursts alone, and making its burst the more recently used changes them alone. -/
theorem Dma.held_of_bursts {a b : Dma} (h : b.bursts = a.bursts) (i : Nat) :
    b.held i = (a.held i).map (fun r => (r.1, r.2.1, { b with bursts := r.2.2.bursts })) := by
  unfold Dma.held
  rw [h]
  split <;> rfl

/-- The send endpoints after a stream has started: a SEND stream is attached to its endpoint. -/
def Core.sendsFor (c : Core) (n : Nat) (d : Desc) : List (Nat × SendEp) :=
  if dKind d = 2 then Map.set c.flow.send (dEndpoint d) { c.sendEp (dEndpoint d) with stream := some n, sentBytes := 0 }
  else c.flow.send
/-- The tally pairs after a stream has started: that of an EXT_IN takes the ring size for BUFFERS and keeps the program's. -/
def Core.talliesFor (c : Core) (n : Nat) (d : Desc) : List (Nat × Tally) :=
  if dKind d = 4 then Map.set c.router.tallies n { c.tally n with
    buffers := BitVec.ofNat 9 (dRing d), own := some ((c.tally n).own.getD (c.tally n).buffers) }
  else c.router.tallies
/-- A slot that holds a stream from a held burst, with nothing of it issued. -/
def Core.heldSlot (c : Core) (n i beat : Nat) (d p : Desc) : DmaSlot :=
  { desc := d, pairDesc := p, index := i, start := beat, owed := (c.slot n).unacted }

theorem Core.startStream_eq (c : Core) (n beat : Nat) (d p : Desc) : c.startStream n beat d p =
    { c.setSlot n { c.slot n with desc := d, pairDesc := p, start := beat, fetching := false } with
      flow := { c.flow with send := c.sendsFor n d }, router := { c.router with tallies := c.talliesFor n d } } := by
  unfold Core.startStream Core.sendsFor Core.talliesFor
  by_cases h2 : dKind d = 2
  · have h4 : dKind d ≠ 4 := by omega
    simp only [if_pos h2, if_neg h4]
    rfl
  · simp only [if_neg h2]
    split <;> rfl

/-- The core after a DSTART whose descriptor lies in a held burst. -/
def Core.startHeld (c : Core) (n i beat : Nat) (d p : Desc) (bursts : List (Nat × List Desc)) : Core :=
  let c1 := c.occupy n (c.heldSlot n i beat d p)
  { c1 with dma := { c1.dma with bursts := bursts },
            flow := { c.flow with send := c.sendsFor n d }, router := { c.router with tallies := c.talliesFor n d } }
/-- The core after a DSTART whose descriptor has to be fetched. -/
def Core.startFetch (c : Core) (n i beat : Nat) : Core :=
  let c1 := c.takeSlot n i beat
  { c1 with dma := { c1.dma with fetch := c.dma.fetch ++ [⟨i / 8, 4, n, i⟩] } }

theorem Core.slotBusy_startHeld (c : Core) (n i beat : Nat) (d p : Desc) (bursts : List (Nat × List Desc)) {j : Nat} (hj : j < 8) :
    (c.startHeld n i beat d p bursts).slotBusy j = (c.slotBusy j || j == n) :=
  c.slotBusy_occupy n (c.heldSlot n i beat d p) hj
theorem Core.slotBusy_startFetch (c : Core) (n i beat : Nat) {j : Nat} (hj : j < 8) :
    (c.startFetch n i beat).slotBusy j = (c.slotBusy j || j == n) :=
  c.slotBusy_occupy n { index := i, start := beat, fetching := true, owed := (c.slot n).unacted } hj
theorem Core.dstart_held {c : Core} {n i : Nat} {d p : Desc} {e : Dma} (beat : Nat) (hb : c.slotBusy n = false)
    (hh : c.dma.held i = some (d, p, e)) : c.dstart n i beat = c.startHeld n i beat d p e.bursts := by
  have htaken := Dma.held_of_bursts (a := c.dma) (b := (c.takeSlot n i beat).dma) rfl i
  rw [hh, Option.map_some] at htaken
  unfold Core.dstart
  rw [if_neg (by simp [hb])]
  dsimp only
  rw [htaken]
  dsimp only
  rw [Core.startStream_eq, Core.takeSlot_eq]
  simp only [Core.occupy, Core.startHeld, Core.heldSlot, Core.setSlot, Core.slot, Map.get_set_same, Map.set_set]
  rfl
theorem Core.dstart_unheld {c : Core} {n i : Nat} (beat : Nat) (hb : c.slotBusy n = false) (hh : c.dma.held i = none) :
    c.dstart n i beat = c.startFetch n i beat := by
  have htaken := Dma.held_of_bursts (a := c.dma) (b := (c.takeSlot n i beat).dma) rfl i
  rw [hh, Option.map_none] at htaken
  unfold Core.dstart
  rw [if_neg (by simp [hb])]
  dsimp only
  rw [htaken]
  rfl

/-! ### The value bits handed over (R237, R241) -/

/-- The count of value bits changes of a slot that count alone, and nothing where the stream is being fetched, is no VALUES_ONLY
write, or has handed nothing over. -/
theorem State.countValues_setCore (s : State) (k : Nat) {c : Core} {m : List (Nat × DmaSlot)} {n : Nat} {x : DmaSlot}
    (hs : c.dma.slots = Map.set m n x) : ∃ v,
    (s.setCore k c).countValues k n = s.setCore k (c.setSlot n { x with values := v }) ∧
    (x.fetching = true ∨ dValuesOnly x.desc = false ∨ (x.released = [] ∧ x.values = 0) → v = x.values) := by
  unfold State.countValues
  dsimp only
  rw [State.core_setCore_same, Core.slot_of_slots hs]
  split
  · next h =>
    refine ⟨_, State.setCore_setCore .., ?_⟩
    simp only [Bool.and_eq_true, Bool.not_eq_true'] at h
    rintro (hf | hv | ⟨hr, hz⟩)
    · simp [hf] at h
    · simp [hv] at h
    · rw [hr, hz]
      rfl
  · refine ⟨x.values, ?_, fun _ => rfl⟩
    exact congrArg (s.setCore k) (Core.setSlot_of_slots hs).symm
/-- A stream that has just started, or is being fetched, opens nothing but at an optical gateway. -/
theorem State.openExt_fresh (s : State) (k : Nat) {c : Core} {m : List (Nat × DmaSlot)} {n : Nat} {x : DmaSlot}
    (hs : c.dma.slots = Map.set m n x) (hx : x.fetching = true ∨ (dOptical x.desc = false ∧ x.released = [] ∧ x.values = 0)) :
    (s.setCore k c).openExt k n = s.setCore k c := by
  obtain ⟨v, hcount, hv⟩ := s.countValues_setCore k hs
  have hvalues : v = x.values := hv (hx.imp_right fun ⟨_, hr, hz⟩ => .inr ⟨hr, hz⟩)
  unfold State.openExt
  dsimp only
  rw [State.core_setCore_same, Core.slot_of_slots hs, if_neg, hcount, hvalues]
  · exact congrArg (s.setCore k) (Core.setSlot_of_slots hs)
  · rcases hx with hf | ⟨ho, -, -⟩
    · simp [hf]
    · simp [ho]

/-! ### DTILE (R224, R273) -/

/-- The descriptor of the tile on which a DTILE acts: the oldest that none has acted on. -/
def DmaSlot.oldest (x : DmaSlot) : Desc := (x.owed.map (·.1)).headD x.desc
/-- A slot after a DTILE at a beat. -/
def DmaSlot.act (x : DmaSlot) (beat : Nat) : DmaSlot :=
  if x.owed = [] then { x with released := x.released ++ [beat] } else { x with owed := x.owed.drop 1 }
/-- A core whose slot n has had a DTILE, before the tally pair of the slot is met. -/
def Core.actTile (c : Core) (n : Nat) : Core := c.setSlot n ((c.slot n).act c.time)
/-- A tile that a DTILE can act on: one of an earlier stream, or one of the present stream, which may still be fetched. -/
def DmaSlot.hasTile (x : DmaSlot) : Prop :=
  x.owed = [] → x.fetching = true ∨ (x.desc ≠ 0 ∧ x.released.length < dTiles x.desc)
/-- The next tile is the last of the present stream. -/
abbrev DmaSlot.atLast (x : DmaSlot) : Prop := x.owed = [] ∧ x.released.length + 1 = dTiles x.desc

theorem DmaSlot.oldest_of_nil {x : DmaSlot} (h : x.owed = []) : x.oldest = x.desc := by simp [DmaSlot.oldest, h]
theorem DmaSlot.act_values (x : DmaSlot) (beat : Nat) : (x.act beat).values = x.values := by
  unfold DmaSlot.act
  split <;> rfl
theorem dValuesOnly_of_kind {d : Desc} (h : dKind d = 4) : dValuesOnly d = false := by simp [dValuesOnly, h]

theorem State.extTile_of_kind_ne (s : State) (k n : Nat) {d : Desc} (b : Nat) (h : dKind d ≠ 4) : s.extTile k n d b = s :=
  if_neg h

theorem Core.addCons_one_of_lt {c : Core} {n : Nat} (hb : (c.tally n).buffers ≠ 0)
    (h : (c.tally n).cons.toNat < (c.tally n).prod.toNat) :
    c.addCons n 1 = (c.setTally n { c.tally n with cons := (c.tally n).cons + 1 }, none) := by
  have hcons : BitVec.ofNat 32 ((c.tally n).cons.toNat + 1) = (c.tally n).cons + 1 := by simp [BitVec.ofNat_add]
  unfold Core.addCons
  dsimp only
  rw [if_neg (not_or.2 ⟨hb, by omega⟩), hcons]
theorem Core.addCons_one_of_le {c : Core} {n : Nat} (h : (c.tally n).prod.toNat ≤ (c.tally n).cons.toNat) :
    c.addCons n 1 = (c.setTally n { c.tally n with bound := true }, some (.sync 0x11 false 0 0)) :=
  if_pos (.inr (by omega))

/-- DTILE on a tile of an EXT_IN of the companion gateway that has arrived (R273). -/
theorem State.extTile_arrived (s : State) (k : Nat) (c : Core) {n : Nat} {d : Desc} (b : Nat) (hd : dKind d = 4)
    (ho : dOptical d = false) (hb : (c.tally n).buffers ≠ 0) (h : (c.tally n).cons.toNat < (c.tally n).prod.toNat) :
    (s.setCore k c).extTile k n d b = s.setCore k (c.setTally n { c.tally n with cons := (c.tally n).cons + 1 }) := by
  unfold State.extTile
  rw [if_pos hd, State.core_setCore_same, Core.addCons_one_of_lt hb h]
  dsimp only
  rw [if_neg (by simp [ho]), State.setCore_setCore]
/-- DTILE on a tile of an EXT_IN that has not arrived (R273). -/
theorem State.extTile_early (s : State) (k : Nat) (c : Core) {n : Nat} {d : Desc} (b : Nat) (hd : dKind d = 4)
    (h : (c.tally n).prod.toNat ≤ (c.tally n).cons.toNat) : (s.setCore k c).extTile k n d b =
      (s.setCore k (c.setTally n { c.tally n with bound := true })).coreFault k (.sync 0x11 false 0 0) := by
  unfold State.extTile
  rw [if_pos hd, State.core_setCore_same, Core.addCons_one_of_le h]
  dsimp only
  rw [State.setCore_setCore]

theorem Core.leaveTally_setTally (c : Core) (n : Nat) (y : Tally) : (c.setTally n y).leaveTally n = c.setTally n y.back := by
  unfold Core.leaveTally Core.setTally
  rw [if_pos (by simp [Map.find?_set_same])]
  unfold Map.upd
  dsimp only
  rw [Map.get_set_same, Map.set_set]
theorem Core.leaveTally_flow (c : Core) (n : Nat) : (c.leaveTally n).flow = c.flow := by
  unfold Core.leaveTally
  split <;> rfl

end Sys2Proof.Machine

namespace Sys2Proof.Claim

open Sys2Proof.Machine

/-! ### What starts of a stream -/

theorem exec_dstart {k : Nat} {s : State} {slot : BitVec 3} {n : BitVec 9} (h : Acts k s (.dstart k slot n))
    (hb : (s.core k).slotBusy slot.toNat = false)
    (ha : ((s.core k).dstart slot.toNat n.toNat (s.core k).time).slotBusy slot.toNat = true) :
    exec (.dstart k slot n) s =
      .next ((s.setCore k ((s.core k).dstart slot.toNat n.toNat (s.core k).time)).openExt k slot.toNat) := by
  obtain ⟨hk, hacts⟩ := h
  have hacting : s.acting k (.dstart k slot n) = true := hacts
  change execDstart k slot n s = _
  unfold execDstart
  dsimp only
  rw [atCore_valid _ hk, hacting, hb, State.core_setCore_same, ha]
  rfl

section
variable {k : Nat} {s : State} {slot : BitVec 3} {n : BitVec 9} (h : Acts k s (.dstart k slot n))
  (hb : (s.core k).slotBusy slot.toNat = false)
include h hb

theorem exec_dstart_held {d p : Desc} {e : Dma} (hh : (s.core k).dma.held n.toNat = some (d, p, e)) (ho : dOptical d = false) :
    exec (.dstart k slot n) s =
      .next (s.setCore k ((s.core k).startHeld slot.toNat n.toNat (s.core k).time d p e.bursts)) := by
  have hstart := Core.dstart_held (s.core k).time hb hh
  rw [exec_dstart h hb, hstart, State.openExt_fresh s k rfl (.inr ⟨ho, rfl, rfl⟩)]
  rw [hstart, Core.slotBusy_startHeld _ _ _ _ _ _ _ slot.isLt, beq_self_eq_true, Bool.or_true]
theorem exec_dstart_unheld (hh : (s.core k).dma.held n.toNat = none) :
    exec (.dstart k slot n) s = .next (s.setCore k ((s.core k).startFetch slot.toNat n.toNat (s.core k).time)) := by
  have hstart := Core.dstart_unheld (s.core k).time hb hh
  rw [exec_dstart h hb, hstart, State.openExt_fresh s k rfl (.inl rfl)]
  rw [hstart, Core.slotBusy_startFetch _ _ _ _ slot.isLt, beq_self_eq_true, Bool.or_true]
end

/-! ### What a tile does -/

/-- A DTILE that finds a tile changes its slot, acts on the tally pair, and lets it go with the last tile (R224, R273). -/
theorem exec_dtile {k : Nat} {s : State} {slot : BitVec 3} (h : Acts k s (.dtile k slot))
    (ht : ((s.core k).slot slot.toNat).hasTile) : ∃ v b,
    (((s.core k).slot slot.toNat).owed ≠ [] ∨ dValuesOnly ((s.core k).slot slot.toNat).desc = false →
      v = ((s.core k).slot slot.toNat).values) ∧
    exec (.dtile k slot) s =
      (let x := (s.core k).slot slot.toNat
       let t := (s.setCore k ((s.core k).setSlot slot.toNat { x.act (s.core k).time with values := v })).extTile k slot.toNat
         x.oldest b
       .next (if dKind x.oldest = 4 ∧ x.atLast then t.onCore k (fun c => c.leaveTally slot.toNat) else t)) := by
  obtain ⟨hk, hacts⟩ := h
  have hacting : s.acting k (.dtile k slot) = true := hacts
  have hexec : exec (.dtile k slot) s = execDtile k slot s := rfl
  unfold execDtile at hexec
  dsimp only at hexec
  rw [atCore_valid _ hk, if_pos hacting] at hexec
  rw [hexec]
  unfold DmaSlot.hasTile at ht
  generalize (s.core k).slot slot.toNat = x at *
  split
  · next d b rest ho =>
    have hne : x.owed ≠ [] := by simp [ho]
    refine ⟨x.values, b, fun _ => rfl, ?_⟩
    have hact : x.act (s.core k).time = { x with owed := rest } := by rw [DmaSlot.act, if_neg hne, ho]; rfl
    have hold : x.oldest = d := by simp [DmaSlot.oldest, ho]
    dsimp only
    rw [hact, hold, if_neg (fun hc => hne hc.2.1)]
  · next ho =>
    have hguard : (x.fetching || (x.desc != 0 && Nat.blt x.released.length (dTiles x.desc))) = true := by
      simpa [Nat.blt_eq] using ht ho
    obtain ⟨v, hcount, hv⟩ := s.countValues_setCore k (c := (s.core k).setSlot slot.toNat (x.act (s.core k).time)) rfl
    have hact : x.act (s.core k).time = { x with released := x.released ++ [(s.core k).time] } := by rw [DmaSlot.act, if_pos ho]
    refine ⟨v, x.baseSeq, fun hx => ?_, ?_⟩
    · rw [← x.act_values (s.core k).time]
      refine hv (.inr (.inl ?_))
      rw [hact]
      exact hx.resolve_left fun hn => hn ho
    · dsimp only
      rw [if_pos hguard, DmaSlot.oldest_of_nil ho, List.length_append, List.length_singleton, hact]
      rw [hact, Core.setSlot_setSlot] at hcount
      rw [hcount]
      simp only [DmaSlot.atLast, ho, true_and]

theorem StepEnds.onCore {w : Nat} {s t : State} {code : Code} {kind loc : Nat} (h : StepEnds w s t code kind loc) (k : Nat)
    (f : Core → Core) : StepEnds w s (t.onCore k f) code kind loc := by
  intro g hrun hg
  obtain ⟨hgone, hrec, hnone, hpass⟩ := h g hrun hg
  unfold State.onCore State.cring at *
  rw [State.setCore_flights, State.setCore_cq, State.wing_setCore]
  exact ⟨hgone, hrec, hnone, hpass⟩

/-- A fault that a core finds after a change of its own that leaves its health registers. -/
theorem coreFault_setCore_ends (s : State) (k : Nat) (c : Core) (f : CoreFault) (hc : c.health = (s.core k).health)
    (ht : s.underTest k = false) (hs : f.code ≠ syncCode 7) :
    StepEnds (wingOf k) s ((s.setCore k c).coreFault k f) f.code 1 (localCore s.split (wingOf k) k) := by
  have hwing : ∀ w, ((s.setCore k c).wing w) = { s.wing w with cores := ((s.setCore k c).wing w).cores } := s.wing_setCore c k
  have htest : (s.setCore k c).underTest k = false := by
    unfold State.underTest at *
    rw [State.lead_setCore, State.core_setCore_same, hwing, hc]
    exact ht
  have hends := coreFault_ends (s.setCore k c) k f htest hs
  rw [State.setCore_split] at hends
  refine hends.of_eq (by simp) (by simp) (by simp) ?_
  unfold State.stepRuns
  rw [State.lead_setCore, hwing]

/-- A DTILE on a tile that no EXT_IN brought changes its slot alone (R224). -/
theorem exec_dtile_other {k : Nat} {s : State} {slot : BitVec 3} (h : Acts k s (.dtile k slot))
    (ht : ((s.core k).slot slot.toNat).hasTile) (hd : dKind ((s.core k).slot slot.toNat).oldest ≠ 4) : ∃ v,
    (dValuesOnly ((s.core k).slot slot.toNat).desc = false → v = ((s.core k).slot slot.toNat).values) ∧
    exec (.dtile k slot) s = .next (s.setCore k ((s.core k).setSlot slot.toNat
      { ((s.core k).slot slot.toNat).act (s.core k).time with values := v })) := by
  obtain ⟨v, b, hv, hexec⟩ := exec_dtile h ht
  refine ⟨v, fun hx => hv (.inr hx), ?_⟩
  rw [hexec]
  dsimp only
  rw [if_neg (fun hc => hd hc.1), State.extTile_of_kind_ne _ _ _ _ hd]

/-- A DTILE on a tile of an EXT_IN acts on the tally pair, and lets it go with the stream's last tile (R273). -/
theorem exec_dtile_extIn {k : Nat} {s : State} {slot : BitVec 3} (h : Acts k s (.dtile k slot))
    (ht : ((s.core k).slot slot.toNat).hasTile) (hd : dKind ((s.core k).slot slot.toNat).oldest = 4) : ∃ b,
    exec (.dtile k slot) s =
      (let x := (s.core k).slot slot.toNat
       let t := (s.setCore k ((s.core k).actTile slot.toNat)).extTile k slot.toNat x.oldest b
       .next (if x.atLast then t.onCore k (fun c => c.leaveTally slot.toNat) else t)) := by
  obtain ⟨v, b, hv, hexec⟩ := exec_dtile h ht
  refine ⟨b, ?_⟩
  unfold Core.actTile
  rw [hexec]
  generalize (s.core k).slot slot.toNat = x at *
  have hvalues : v = (x.act (s.core k).time).values := by
    rw [x.act_values]
    refine hv ?_
    by_cases ho : x.owed = []
    · exact .inr (dValuesOnly_of_kind (by rwa [DmaSlot.oldest_of_nil ho] at hd))
    · exact .inl ho
  rw [hvalues]
  dsimp only
  simp only [hd, true_and]

/-! ### What the statement says -/

theorem dstart_starts_held {k : Nat} {s : State} {slot : BitVec 3} {n : BitVec 9} (h : Acts k s (.dstart k slot n))
    (hb : (s.core k).slotBusy slot.toNat = false) (d p : Desc) (e : Dma) (hh : (s.core k).dma.held n.toNat = some (d, p, e))
    (ho : dOptical d = false) :
    Answers (.dstart k slot n) s (fun t =>
      OneCore k s t { s.core k with
        dma := { (s.core k).dma with slots := (t.core k).dma.slots, busy := (t.core k).dma.busy, bursts := e.bursts },
        flow := { (s.core k).flow with send := (t.core k).flow.send },
        router := { (s.core k).router with tallies := (t.core k).router.tallies } } ∧
      SetsKey {} (s.core k).dma.slots (t.core k).dma.slots slot.toNat
        ((s.core k).heldSlot slot.toNat n.toNat (s.core k).time d p) ∧
      (∀ j, j < 8 → (t.core k).slotBusy j = ((s.core k).slotBusy j || j == slot.toNat)) ∧
      (dKind d ≠ 2 → (t.core k).flow.send = (s.core k).flow.send) ∧
      (dKind d = 2 → SetsKey {} (s.core k).flow.send (t.core k).flow.send (dEndpoint d)
        { (s.core k).sendEp (dEndpoint d) with stream := some slot.toNat, sentBytes := 0 }) ∧
      (dKind d ≠ 4 → (t.core k).router.tallies = (s.core k).router.tallies) ∧
      (dKind d = 4 → ((t.core k).tally slot.toNat).buffers = BitVec.ofNat 9 (dRing d))) := by
  refine ⟨_, exec_dstart_held h hb hh ho, ?_⟩
  dsimp only
  rw [State.core_setCore_same]
  generalize s.core k = c
  refine ⟨oneCore_of rfl, setsKey_set _ _ _ _, fun j hj => Core.slotBusy_startHeld _ _ _ _ _ _ _ hj, fun h2 => if_neg h2,
    fun h2 => ?_, fun h4 => if_neg h4, fun h4 => ?_⟩
  · have hsend : c.sendsFor slot.toNat d = _ := if_pos h2
    change SetsKey _ _ (c.sendsFor slot.toNat d) _ _
    rw [hsend]
    exact setsKey_set _ _ _ _
  · have htally : c.talliesFor slot.toNat d = _ := if_pos h4
    change (Map.get {} (c.talliesFor slot.toNat d) slot.toNat).buffers = _
    rw [htally, Map.get_set_same]

theorem dstart_fetches_unheld {k : Nat} {s : State} {slot : BitVec 3} {n : BitVec 9} (h : Acts k s (.dstart k slot n))
    (hb : (s.core k).slotBusy slot.toNat = false) (hh : (s.core k).dma.held n.toNat = none) :
    Answers (.dstart k slot n) s (fun t =>
      OneCore k s t { s.core k with dma := { (s.core k).dma with
        slots := (t.core k).dma.slots, busy := (t.core k).dma.busy,
        fetch := (s.core k).dma.fetch ++ [{ burst := n.toNat / 8, turns := 4, slot := slot.toNat, index := n.toNat }] } } ∧
      SetsKey {} (s.core k).dma.slots (t.core k).dma.slots slot.toNat
        { index := n.toNat, start := (s.core k).time, fetching := true, owed := ((s.core k).slot slot.toNat).unacted } ∧
      ∀ j, j < 8 → (t.core k).slotBusy j = ((s.core k).slotBusy j || j == slot.toNat)) := by
  refine ⟨_, exec_dstart_unheld h hb hh, ?_⟩
  dsimp only
  rw [State.core_setCore_same]
  generalize s.core k = c
  exact ⟨oneCore_of rfl, setsKey_set _ _ _ _, fun j hj => Core.slotBusy_startFetch _ _ _ _ hj⟩

section
variable {k : Nat} {s : State} {slot : BitVec 3} (h : Acts k s (.dtile k slot)) (ht : ((s.core k).slot slot.toNat).hasTile)
include h ht

theorem dtile_changes_slot (hd : dKind ((s.core k).slot slot.toNat).oldest ≠ 4) :
    Answers (.dtile k slot) s (fun t =>
      OneCore k s t { s.core k with dma := { (s.core k).dma with slots := (t.core k).dma.slots } } ∧
      SetsKey {} (s.core k).dma.slots (t.core k).dma.slots slot.toNat
        { ((s.core k).slot slot.toNat).act (s.core k).time with values := ((t.core k).slot slot.toNat).values } ∧
      (dValuesOnly ((s.core k).slot slot.toNat).desc = false →
        ((t.core k).slot slot.toNat).values = ((s.core k).slot slot.toNat).values)) := by
  obtain ⟨v, hv, hexec⟩ := exec_dtile_other h ht hd
  refine ⟨_, hexec, ?_⟩
  dsimp only
  rw [State.core_setCore_same, Core.slot_setSlot_same]
  generalize s.core k = c at hv ⊢
  exact ⟨oneCore_of rfl, setsKey_set _ _ _ _, hv⟩

theorem dtile_advances_cons (hd : dKind ((s.core k).slot slot.toNat).oldest = 4)
    (ho : dOptical ((s.core k).slot slot.toNat).oldest = false) (hb : ((s.core k).tally slot.toNat).buffers ≠ 0)
    (hlt : ((s.core k).tally slot.toNat).cons.toNat < ((s.core k).tally slot.toNat).prod.toNat) :
    Answers (.dtile k slot) s (fun t =>
      OneCore k s t { s.core k with dma := { (s.core k).dma with slots := (t.core k).dma.slots },
                                    router := { (s.core k).router with tallies := (t.core k).router.tallies } } ∧
      SetsKey {} (s.core k).dma.slots (t.core k).dma.slots slot.toNat (((s.core k).slot slot.toNat).act (s.core k).time) ∧
      SetsKey {} (s.core k).router.tallies (t.core k).router.tallies slot.toNat
        (if ((s.core k).slot slot.toNat).atLast
          then ({ (s.core k).tally slot.toNat with cons := ((s.core k).tally slot.toNat).cons + 1 } : Tally).back
          else { (s.core k).tally slot.toNat with cons := ((s.core k).tally slot.toNat).cons + 1 })) := by
  obtain ⟨b, hexec⟩ := exec_dtile_extIn h ht hd
  refine ⟨_, hexec, ?_⟩
  dsimp only
  rw [State.extTile_arrived s k ((s.core k).actTile slot.toNat) b hd ho hb hlt]
  split
  · rw [State.onCore, State.core_setCore_same, State.setCore_setCore, Core.leaveTally_setTally, State.core_setCore_same]
    generalize s.core k = c
    exact ⟨oneCore_of rfl, setsKey_set _ _ _ _, setsKey_set _ _ _ _⟩
  · rw [State.core_setCore_same]
    generalize s.core k = c
    exact ⟨oneCore_of rfl, setsKey_set _ _ _ _, setsKey_set _ _ _ _⟩

theorem dtile_early_ends (hd : dKind ((s.core k).slot slot.toNat).oldest = 4)
    (hle : ((s.core k).tally slot.toNat).prod.toNat ≤ ((s.core k).tally slot.toNat).cons.toNat) (hu : s.underTest k = false) :
    Answers (.dtile k slot) s (fun t =>
      StepEnds (wingOf k) s t 0x5011#16 1 (localCore s.split (wingOf k) k) ∧ (t.core k).flow.errCode = 0x011#12) := by
  obtain ⟨b, hexec⟩ := exec_dtile_extIn h ht hd
  refine ⟨_, hexec, ?_⟩
  dsimp only
  rw [State.extTile_early s k ((s.core k).actTile slot.toNat) b hd hle]
  have hends := coreFault_setCore_ends s k (((s.core k).actTile slot.toNat).setTally slot.toNat
    { (s.core k).tally slot.toNat with bound := true }) (.sync 0x11 false 0 0) rfl hu (by decide)
  obtain ⟨on, ret, rel, lines, l, hcore⟩ := (s.setCore k (((s.core k).actTile slot.toNat).setTally slot.toNat
    { (s.core k).tally slot.toNat with bound := true })).core_coreFault k (.sync 0x11 false 0 0) k
  rw [if_pos rfl] at hcore
  have herr := congrArg (fun c => c.flow.errCode) hcore
  split
  · refine ⟨hends.onCore _ _, ?_⟩
    rw [State.core_onCore_same, Core.leaveTally_flow]
    exact herr
  · exact ⟨hends, herr⟩
end

end Sys2Proof.Claim

namespace Sys2Proof.Proofs

open Sys2Proof.Machine Sys2Proof.Claim

/-- Settles O23: a DSTART by whether its burst is held, a DTILE by the kind of the oldest tile and by what the tally pair holds. -/
theorem streamsStartAndTile : Obligations.StreamsStartAndTile := by
  unfold Obligations.StreamsStartAndTile
  refine ⟨fun k s slot n h hb => ⟨dstart_starts_held h hb, dstart_fetches_unheld h hb⟩, fun k s slot h => ?_⟩
  intro c x y d z ht
  exact ⟨dtile_changes_slot h ht, fun hd ho hb => ⟨dtile_advances_cons h ht hd ho hb, dtile_early_ends h ht hd⟩⟩

end Sys2Proof.Proofs
end
